-- ==== Sys2Proof/Word.lean ====
section
/-!
DEFINITION. The words of the Elvith Merold M4 model: bit vectors, the numbers of the named resources (R9, 00_scope.md)
and the small closed types that the commands carry as operands. No operation is defined here.
-/

namespace Sys2Proof

abbrev Byte := BitVec 8
abbrev W16 := BitVec 16
abbrev W32 := BitVec 32
abbrev W64 := BitVec 64
/-- 32 bytes: one flit's data (R253) or one message (R371). -/
abbrev W256 := BitVec 256

/-- Cell index Y × 64 + X (R18). -/
abbrev CellId := Fin 4096
/-- Bay b = (Y div 8) × 4 + (X div 16) (R19). -/
abbrev BayId := Fin 32
/-- Suite S0–S31. -/
abbrev SuiteId := Fin 32
/-- Memory port MP0–MP11, one stack each (R15). -/
abbrev PortId := Fin 12
/-- Gacon port G0–G15 (R33). -/
abbrev GPort := Fin 16
/-- Landing zone of a cell (R118). -/
abbrev ZoneId := Fin 64
/-- Barrier ID (R395). -/
abbrev BarId := Fin 16384
/-- Virtual channel of a Gacon link (R441). -/
abbrev Vc := Fin 5

/-- The sequencer contexts of a cell (R42, R80). -/
inductive Ctx where
  | main
  | handler
  deriving DecidableEq, Repr

/-- The engines of a cell that have an instruction queue (R43). -/
inductive Engine where
  | matrix
  | vector
  | reduction
  | moveSend
  | counter
  deriving DecidableEq, Repr

/-- The PCIe function an access or a ring belongs to (R491): the PF, or the VF of suite s (VF s + 1). -/
inductive HostFn where
  | pf
  | vf (s : SuiteId)
  deriving DecidableEq, Repr

/-- A stream context: context c of stream engine SE e (R343), or of the Gacon engine of port g (R461). -/
inductive StreamCtx where
  | se (e : Fin 96) (c : Fin 16)
  | gacon (g : GPort) (c : Fin 16)
  deriving DecidableEq, Repr

/-- A strip, or a granule, of a remote WRITE (MODEL, R459): the port that accepted the WRITE, the write's number there, and which of its items. -/
structure WriteItem where
  port : Nat
  write : Nat
  item : Nat
  deriving DecidableEq, Repr

/-- One flit: 256 data bits and the VALID, PROV and VOID bits of its sideband (R253, R255). strip (MODEL): in the header of a landing frame
made of a remote WRITE, the strip that the frame carries, whatever becomes of its bits (R402). -/
structure Flit where
  data : W256
  valid : Bool
  prov : Bool
  void : Bool
  strip : Option WriteItem
  deriving DecidableEq, Repr

/-- What the SEC-DED code of a received flit shows (R256). The code's bit layout is not in the spec, so the
outcome is an input; an uncorrectable flit carries the bits that arrived. -/
inductive FlitErr where
  | none
  | corrected
  | uncorrectable (seen : W256)
  deriving DecidableEq, Repr

/-- Who sends a barrier command (R397, R399). -/
inductive BarSrc where
  | mgmt
  | vf (s : SuiteId)
  | cell (s : SuiteId)
  | remote (part : BitVec 6) (s : SuiteId)
  deriving DecidableEq, Repr

/-- Data that the device read from host memory: none is an error status or a poisoned TLP (R493). -/
abbrev HostRead := Option (List Byte)

/-- The unit of an error record (Table 16.3, UNIT). -/
inductive UnitRef where
  | cell (c : CellId)
  | bay (b : BayId)
  | stream (e : Fin 96) (c : Fin 16)
  | memPort (p : PortId) (pc : Option (Fin 64))
  | gaconPort (g : GPort) (lane : Fin 10)
  | hub
  | core (n : Fin 2)
  | none
  deriving DecidableEq, Repr

/-- What FEC found on a direction since the flit before (R434): whether this flit lies in an uncorrectable codeword, the codewords that
ended corrected and uncorrectable, and the symbols corrected on each logical lane. -/
structure FecResult where
  lost : Bool
  corrected : Nat
  uncorrectable : Nat
  symbols : List Nat
  deriving DecidableEq, Repr

/-- The kinds of unit check error (Table 16.4, TYPE 0x03). A track check names the physical columns' western logical
cell, whether the track is vertical, and whether it is a border lane. -/
inductive UnitCheck where
  | datapath (c : CellId)
  | sramMacro (c : CellId)
  | track (c : CellId) (vertical : Bool)
  | borderLane (b : BayId)
  | regulatorPhase (b : BayId)
  | pllLock (b : BayId)
  | hubLinkLane (b : BayId)
  deriving DecidableEq, Repr

/-- Why hardware protection acts (R538, Table 16.4b INFO of 0x31): 0 temperature (of a die, none for the H-die),
1 power, 2 current, of the bay whose regulator phase is at its limit. -/
inductive ProtCause where
  | temperature (die : Option (Fin 4))
  | power
  | current (b : BayId)
  deriving DecidableEq, Repr

/-- What a maceration step reports (Table 15.8): whether it completed, its failure code, the cells and bays that
failed, the stacks that failed, the run-time failed marks and retired bays whose unit passed a repair retest (R548), whether a 100 MHz reference clock was
present (R623), and the faulty rows of each subarray that has some: bay row (8 × bay + row), physical column in the bay, bank, subarray,
rows (R100). -/
structure MacReport where
  ok : Bool
  code : Byte
  badCells : List CellId
  badBays : List BayId
  badStacks : List PortId
  retested : List (UnitCheck × Nat)
  retestedBays : List BayId
  refclk : Bool
  badRows : List (Fin 256 × Fin 17 × Fin 256 × Fin 32 × Nat)
  deriving DecidableEq, Repr

/-- A Gacon capability block (R446). -/
structure CapBlock where
  verMin : Byte
  verMax : Byte
  lanes4 : Bool
  rate100 : Bool
  feat : BitVec 5
  part : BitVec 6
  port : BitVec 4
  goodLanes8 : Bool
  credits : List Nat
  deriving DecidableEq, Repr

/-- The counter that overflows (R579): of a cell, of a bay, or of the device block. -/
inductive CounterRef where
  | cell (c : CellId) (i : Fin 8)
  | bay (b : BayId) (i : Fin 8)
  | device (i : Fin 16)
  deriving DecidableEq, Repr

/-- The receiver of a commit or void notice (R424): a zone of a cell, or a read context. -/
inductive NoticeTarget where
  | zone (c : CellId) (z : ZoneId)
  | context (x : StreamCtx)
  deriving DecidableEq, Repr

end Sys2Proof
end

