-- ==== Sys2Proof/Syntax.lean ====
section
/-!
DEFINITION. The commands of the M4 as a block: one constructor per row of spec/opcode_table.json, in the table's order.

A cell instruction names the cell and the sequencer context that issues it; its fields are the instruction word that the
context fetches from its program store (R51). A mailbox command names the ticket of a command entry that COMMAND_FETCH has
taken (R503), and the data the device reads from host memory for it. An event names the unit it happens in, and what of it
comes from outside the device.
-/

namespace Sys2Proof

/-- The commands, one constructor per row of spec/opcode_table.json. -/
inductive Instr where
  /-- NOP (R60): Sequencing instruction that fills max(1, n) issue cycles and, with OPEN, offers OPEN slots to the handler context. -/
  | nop (c : CellId) (x : Ctx)
  /-- LOOP (R70): Opens a loop level, loads its counter with the iteration count and copies the enclosing VL. -/
  | loop (c : CellId) (x : Ctx)
  /-- ENDLOOP (R71): Folded at fetch; decrements the innermost counter and either repeats the body or closes the loop. -/
  | endloop (c : CellId) (x : Ctx)
  /-- SETVL (R75): Sets the VL register of the current loop depth for the next instruction issued. -/
  | setvl (c : CellId) (x : Ctx)
  /-- WAIT (R127): Takes the threshold from the zone's landing counters and seals the zone's EMPTY panes FULL or PROVISIONAL. -/
  | wait (c : CellId) (x : Ctx)
  /-- SEAL (R116): Seals every pane of a pane range according to the tag state table. -/
  | seal (c : CellId) (x : Ctx)
  /-- RELEASE (R116): Releases every pane of a pane range according to the tag state table. -/
  | release (c : CellId) (x : Ctx)
  /-- MODE (R77): Sets ROUND and SR_STREAM for instructions issued after it. -/
  | mode (c : CellId) (x : Ctx)
  /-- DRYDOWN (R293): Last instruction of a section; after it the main context issues nothing and the cell enters LOADING. -/
  | drydown (c : CellId) (x : Ctx)
  /-- HALT (R60): Stops main-context issue and puts the cell in HALTED, or ends the running handler. -/
  | halt (c : CellId) (x : Ctx)
  /-- MCLR (R196): Clears the accumulator panes of a mask and sets their KIND and PROV marks. -/
  | mclr (c : CellId) (x : Ctx)
  /-- MLOAD_I8 (R209): Loads an INT8 weight block into a weight buffer over 8 cycles. -/
  | mloadI8 (c : CellId) (x : Ctx)
  /-- MLOAD_I4 (R209): Loads an INT4 weight block into a weight buffer. -/
  | mloadI4 (c : CellId) (x : Ctx)
  /-- MLOAD_MB8 (R209): Loads an MB8 weight block with its E6M2 codes into a weight buffer. -/
  | mloadMb8 (c : CellId) (x : Ctx)
  /-- MLOAD_MB4 (R209): Loads an MB4 weight block with its E6M2 codes into a weight buffer. -/
  | mloadMb4 (c : CellId) (x : Ctx)
  /-- MLOAD_SP (R209): Loads a split-precision slice block with its group exponents into a weight buffer. -/
  | mloadSp (c : CellId) (x : Ctx)
  /-- MMAC_I8 (R214): Plain INT8 multiply-accumulate of M activation rows into INT accumulator panes. -/
  | mmacI8 (c : CellId) (x : Ctx)
  /-- MMAC_I4 (R214): Plain INT4 multiply-accumulate of M activation rows into INT accumulator panes. -/
  | mmacI4 (c : CellId) (x : Ctx)
  /-- MMAC_MB8 (R215): MB8 block-mode accumulation of terms into EXT40 accumulator panes. -/
  | mmacMb8 (c : CellId) (x : Ctx)
  /-- MMAC_MB4 (R215): MB4 block-mode accumulation of two terms per row into EXT40 accumulator panes. -/
  | mmacMb4 (c : CellId) (x : Ctx)
  /-- MMAC_SP (R217): One split-precision slice pass into EXT40 accumulator panes. -/
  | mmacSp (c : CellId) (x : Ctx)
  /-- MMOV (R218): Moves one accumulator pane out to scratchpad or the chain path as INT32, FP32 or BF16, optionally clearing it. -/
  | mmov (c : CellId) (x : Ctx)
  /-- VADD (R229): Vector addition D := S1 + S2 rounded or saturated once to DFMT. -/
  | vadd (c : CellId) (x : Ctx)
  /-- VSUB (R229): Vector subtraction D := S1 − S2. -/
  | vsub (c : CellId) (x : Ctx)
  /-- VMUL (R229): Vector multiplication D := S1 × S2. -/
  | vmul (c : CellId) (x : Ctx)
  /-- VMAX (R164): Elementwise maximum with the NaN rules of R164. -/
  | vmax (c : CellId) (x : Ctx)
  /-- VMIN (R164): Elementwise minimum with the NaN rules of R164. -/
  | vmin (c : CellId) (x : Ctx)
  /-- VABS (R229): Elementwise absolute value, saturating for integers. -/
  | vabs (c : CellId) (x : Ctx)
  /-- VNEG (R229): Elementwise negation, saturating for integers. -/
  | vneg (c : CellId) (x : Ctx)
  /-- VFMA (R232): Fused multiply-add D := S1 × S2 + D rounded once, reading D as a source. -/
  | vfma (c : CellId) (x : Ctx)
  /-- VFMAC (R230): Fused multiply-add with a constant addend c. -/
  | vfmac (c : CellId) (x : Ctx)
  /-- VCMP (R230): Elementwise comparison writing 1 or 0 in DFMT. -/
  | vcmp (c : CellId) (x : Ctx)
  /-- VSELC (R230): Selects S1 or constant c per element by a comparison condition. -/
  | vselc (c : CellId) (x : Ctx)
  /-- VSEL (R231): Selects S1 where D is non-zero, else S2. -/
  | vsel (c : CellId) (x : Ctx)
  /-- VCVT (R165): Converts a vector between formats as Table 4.7 states. -/
  | vcvt (c : CellId) (x : Ctx)
  /-- VQUANT (R152): Quantises FP32 or BF16 values to MB8 or MB4 blocks with their scale codes. -/
  | vquant (c : CellId) (x : Ctx)
  /-- VDEQ (R153): Dequantises MB8 or MB4 blocks to FP32 or BF16. -/
  | vdeq (c : CellId) (x : Ctx)
  /-- VMXI (R154): Imports MXINT8 blocks into FP32, BF16 or MB8. -/
  | vmxi (c : CellId) (x : Ctx)
  /-- VMXE (R155): Exports MB8 blocks to MXINT8. -/
  | vmxe (c : CellId) (x : Ctx)
  /-- VSLICE (R235): Split-precision slicer writing one slice and optionally the group exponents. -/
  | vslice (c : CellId) (x : Ctx)
  /-- VBSHUF (R228): Permutes bytes within each word by the ENG selectors. -/
  | vbshuf (c : CellId) (x : Ctx)
  /-- VXP4 (R236): Transposes each aligned 4 × 4 byte matrix. -/
  | vxp4 (c : CellId) (x : Ctx)
  /-- VEXP2 (R237): Computes 2^x rounded once to FP32. -/
  | vexp2 (c : CellId) (x : Ctx)
  /-- VLOG2 (R237): Computes log2 x rounded once to FP32. -/
  | vlog2 (c : CellId) (x : Ctx)
  /-- VRSQRT (R237): Computes 1/√x rounded once to FP32. -/
  | vrsqrt (c : CellId) (x : Ctx)
  /-- VRCP (R237): Computes 1/x rounded once to FP32. -/
  | vrcp (c : CellId) (x : Ctx)
  /-- VTANH (R237): Computes tanh x rounded once to FP32. -/
  | vtanh (c : CellId) (x : Ctx)
  /-- VSIGM (R237): Computes the logistic sigmoid rounded once to FP32. -/
  | vsigm (c : CellId) (x : Ctx)
  /-- VTWOSUM (R185): Writes the TWOSUM pair vector of S1 and S2. -/
  | vtwosum (c : CellId) (x : Ctx)
  /-- VFTWOSUM (R186): Writes the FASTTWOSUM pair vector of S1 and S2. -/
  | vftwosum (c : CellId) (x : Ctx)
  /-- VRAND (R238): Writes uniform Philox draws from a key and counter. -/
  | vrand (c : CellId) (x : Ctx)
  /-- RSUM (R242): Reduction sum in the fixed lane and tree order. -/
  | rsum (c : CellId) (x : Ctx)
  /-- RMAX (R241): Reduction maximum. -/
  | rmax (c : CellId) (x : Ctx)
  /-- RMIN (R241): Reduction minimum. -/
  | rmin (c : CellId) (x : Ctx)
  /-- RARGMAX (R241): Reduction maximum with its element index. -/
  | rargmax (c : CellId) (x : Ctx)
  /-- RARGMIN (R241): Reduction minimum with its element index. -/
  | rargmin (c : CellId) (x : Ctx)
  /-- RPSUM (R243): Compensated pair sum of FP32 elements or pairs. -/
  | rpsum (c : CellId) (x : Ctx)
  /-- RTOPK (R244): Selects the top k candidates and writes a top-k record. -/
  | rtopk (c : CellId) (x : Ctx)
  /-- RTOPKM (R245): Merges several top-k records into one. -/
  | rtopkm (c : CellId) (x : Ctx)
  /-- MOVE (R361): Copies strips or bytes within the cell's scratchpad. -/
  | move (c : CellId) (x : Ctx)
  /-- SEND (R361): Sends strips into a send channel as flits at a given pace. -/
  | send (c : CellId) (x : Ctx)
  /-- RECV (R368): Takes strips from a receive channel and writes them to scratchpad, marking missing flits VOID. -/
  | recv (c : CellId) (x : Ctx)
  /-- LSEND (R370): Sends strips as landing frames addressed to another cell's zone. -/
  | lsend (c : CellId) (x : Ctx)
  /-- MSG (R373): Sends a 32-byte message on a static channel or as a tagged message by router or hub path. -/
  | msg (c : CellId) (x : Ctx)
  /-- QPOP (R390): Pops the head message of a polled queue, or writes an EMPTY message. -/
  | qpop (c : CellId) (x : Ctx)
  /-- HTAKE (R391): Writes the handler message register to scratchpad in the handler context. -/
  | htake (c : CellId) (x : Ctx)
  /-- BARR (R400): Sends one BAR_CMD with ARRIVE by the hub path. -/
  | barr (c : CellId) (x : Ctx)
  /-- ZCTL_GRANT (R364): Adds credits to a zone in credit mode and sends a CREDIT message. -/
  | zctlGrant (c : CellId) (x : Ctx)
  /-- ZCTL_COMMIT (R364): Requests a commit of a landing zone as a write of LZ_CFG.COMMIT. -/
  | zctlCommit (c : CellId) (x : Ctx)
  /-- ZCTL_VOID (R364): Requests a void of a landing zone as a write of LZ_CFG.VOID. -/
  | zctlVoid (c : CellId) (x : Ctx)
  /-- ZCTL_NORMAL_MODE (R132): Requests a change of the zone to normal service. -/
  | zctlNormalMode (c : CellId) (x : Ctx)
  /-- ZCTL_CREDIT_MODE (R132): Requests a change of the zone to credit mode. -/
  | zctlCreditMode (c : CellId) (x : Ctx)
  /-- CRD (R585): Writes selected counters to scratchpad. -/
  | crd (c : CellId) (x : Ctx)
  /-- CCLR (R585): Clears selected counters. -/
  | cclr (c : CellId) (x : Ctx)
  /-- CTD (R585): Writes the five cycle tallies to scratchpad. -/
  | ctd (c : CellId) (x : Ctx)
  /-- ISSUE_CHECK_POINT (R63): At cycle 8 of each beat the cell checks the next beat's instructions by effective tags. -/
  | issueCheckPoint (c : CellId)
  /-- LATE_CHECK_PASS (R67): During a hold a late check passes and the cell drops its late signal. -/
  | lateCheckPass (c : CellId)
  /-- MATRIX_START (R207): A queued matrix instruction starts once its pipe is free and its interlocks are met. -/
  | matrixStart (c : CellId)
  /-- VECTOR_START (R246): A queued vector instruction starts once the unit is free and its sources are written. -/
  | vectorStart (c : CellId)
  /-- REDUCTION_START (R246): A queued reduction instruction starts, or waits for its first chained strip. -/
  | reductionStart (c : CellId)
  /-- MOVE_SEND_START (R363): A queued move/send instruction starts, waiting for room in the outbound buffer where needed. -/
  | moveSendStart (c : CellId)
  /-- COUNTER_UNIT_START (R585): A queued counter instruction starts in the counter unit. -/
  | counterUnitStart (c : CellId)
  /-- INSTRUCTION_COMPLETE (R58): An instruction's last write or read completes and its SEAL or RELEASE is applied, clearing pending marks. -/
  | instructionComplete (c : CellId) (e : Engine)
  /-- HANDLER_DISPATCH (R79): When no handler runs, the oldest dispatch-list entry starts its handler after 4 cycles. -/
  | handlerDispatch (c : CellId)
  /-- CONFIG_WINDOW_WRITE (R48): A management write to a cell's configuration window takes effect only in IDLE, HALTED or FAULTED. -/
  | configWindowWrite (f : HostFn) (c : CellId) (word : Fin 4096) (v : W32)
  /-- REGISTER_WRITE (R10): A write to a register with no row of its own acts by field type, or is discarded and logged. -/
  | registerWrite (f : HostFn) (off : Nat) (v : W64)
  /-- RC_FIELD_READ (R12): A read of an RC field returns its value and clears it. -/
  | rcFieldRead (f : HostFn) (off : Nat)
  /-- UNMAPPED_ACCESS (R37): A host access to an unmapped address returns all ones or is discarded, and is logged. -/
  | unmappedAccess (f : HostFn) (off : Nat) (write : Bool)
  /-- LANDING_STRIP (R124): A landing strip arriving in its slot is checked and written, counted, refused or discarded. -/
  | landingStrip (c : CellId) (octant : Fin 8)
  /-- NOTICE_ARRIVAL (R425): A commit or void notice reaches a cell or context and is kept for its beat or discarded. -/
  | noticeArrival (t : NoticeTarget) (commit : Bool) (beat : Option W32) (step : W32) (sect : W16)
  /-- ZONE_COMMIT (R128): At the named beat, a zone's PROV_LANDED moves to LANDED, PROVISIONAL panes become FULL and PGEN advances. -/
  | zoneCommit (c : CellId) (z : ZoneId)
  /-- ZONE_VOID (R129): At the named beat, a zone's PROV_LANDED is dropped, PROVISIONAL panes become EMPTY and PGEN advances. -/
  | zoneVoid (c : CellId) (z : ZoneId)
  /-- ZONE_MODE_CHANGE (R132): At the next beat a zone enters the other mode with CREDITS 0 and no credit partner. -/
  | zoneModeChange (c : CellId) (z : ZoneId)
  /-- LZ_CFG_COMMIT (R133): A write of LZ_CFG.COMMIT requests a commit of the zone. -/
  | lzCfgCommit (f : HostFn) (c : CellId) (z : ZoneId) (rest : W64)
  /-- LZ_CFG_VOID (R133): A write of LZ_CFG.VOID requests a void of the zone. -/
  | lzCfgVoid (f : HostFn) (c : CellId) (z : ZoneId) (rest : W64)
  /-- LZ_CFG_GRANT (R131): A write of LZ_CFG.GRANT adds credits to a zone in credit mode. -/
  | lzCfgGrant (f : HostFn) (c : CellId) (z : ZoneId) (g : W16)
  /-- LZ_CFG_WRITE (R134): A write of the zone's setup fields, MODE or flags, with setup fields accepted only in IDLE, HALTED or FAULTED. -/
  | lzCfgWrite (f : HostFn) (c : CellId) (z : ZoneId) (v : W64)
  /-- SCRUB_READ (R140): The octant scrubber reads one bank address in an unclaimed cycle and corrects or poisons. -/
  | scrubRead (c : CellId) (o : Fin 8)
  /-- SCRUB_INTERVAL_END (R141): At each scrub interval end a shortfall raises a SCRUB late signal for up to 4 beats. -/
  | scrubIntervalEnd (c : CellId)
  /-- CORRECTION_WRITE_BACK (R138): A queued correction write-back is written in an unclaimed cycle or dropped. -/
  | correctionWriteBack (c : CellId) (o : Fin 8)
  /-- MGMT_SCRATCHPAD_READ (R139): A management read of a scratchpad window in an unclaimed cycle, returning ones for uncorrectable words. -/
  | mgmtScratchpadRead (c : CellId) (word : BitVec 20)
  /-- MGMT_SCRATCHPAD_WRITE (R139): A management write of a scratchpad window in an unclaimed cycle, discarded on an uncorrectable partial word. -/
  | mgmtScratchpadWrite (c : CellId) (word : BitVec 20) (v : W32) (be : BitVec 4)
  /-- FLIT_RECEIVE (R266): A flit arrives at an input FIFO, corrected, marked VOID or dropped at a full FIFO. -/
  | flitReceive (c : CellId) (port : Fin 5) (track : Fin 4) (err : FlitErr)
  /-- ROUTE_TABLE_PHASE (R259): In each schedule phase the route table pops, sends, receives and lands flits. -/
  | routeTablePhase (c : CellId)
  /-- HOLD_ROOT_SAMPLE (R272): In cycle 12 of each beat the hold root samples the tree and sends HOLD, RELEASE or START. -/
  | holdRootSample (s : SuiteId)
  /-- HOLD_BEGIN (R275): At the beat boundary the suite enters the fixative hold and issue freezes. -/
  | holdBegin (s : SuiteId)
  /-- HOLD_END (R274): At the boundary after RELEASE issue resumes and the hold ring entry is written. -/
  | holdEnd (s : SuiteId)
  /-- HOLD_TIMEOUT (R279): The held-beat count reaches LIMIT, sets TIMEOUT and reports a hold timeout. -/
  | holdTimeout (s : SuiteId)
  /-- BAY_ISO_WRITE (R287): A write of BAY_ISO.STATE opens or closes bay sides at the next beat boundary. -/
  | bayIsoWrite (f : HostFn) (b : BayId) (v : W64)
  /-- READY_RAISE (R296): A LOADING cell raises its READY line once no handler runs and FIFO room exists. -/
  | readyRaise (c : CellId)
  /-- CONFIG_GROUP_SEND (R298): A cell or the spine sends a configuration group east while the neighbour is READY. -/
  | configGroupSend (c : CellId) (spine : Bool)
  /-- CONFIG_GROUP_RECEIVE (R299): A LOADING cell takes a configuration group into its own block or forwards it. -/
  | configGroupReceive (c : CellId) (track : Fin 4) (err : FlitErr)
  /-- PANE_CLEARING (R303): After the KEEP map and engine completion, each octant clears its unkept panes one per cycle. -/
  | paneClearing (c : CellId)
  /-- CONFIG_COMMIT (R304): The cell commits its new configuration and enters WAITING_START, applying Table 8.2. -/
  | configCommit (c : CellId)
  /-- SECTION_CLOSE (R307): The section closes when all cells dried down, instructions completed and writes accepted. -/
  | sectionClose (s : SuiteId)
  /-- SECTION_START (R310): The root sends START and beat 0 of the new section begins in every cell. -/
  | sectionStart (s : SuiteId)
  /-- REGULATOR_RAMP_DONE (R534): A bay regulator reaches the new step voltage, letting START proceed. -/
  | regulatorRampDone (b : BayId)
  /-- DUTY_WITHHOLD_END (R537): The cap-duty withholding of a serving suite's step START expires. -/
  | dutyWithholdEnd (s : SuiteId)
  /-- READ_SLOT (R338): A read slot reads one tile for its owning context into the return buffer. -/
  | readSlot (p : PortId)
  /-- WRITE_SLOT (R338): A write slot stores one tile from the engine's write-combining buffer. -/
  | writeSlot (p : PortId)
  /-- REMOTE_SLOT (R338): A remote slot moves one tile for the Gacon port its entry names. -/
  | remoteSlot (p : PortId)
  /-- MAINTENANCE_SLOT (R338): A maintenance slot serves a re-read, write-back, RFM or scrub read per pseudo-channel, and refresh. -/
  | maintenanceSlot (p : PortId)
  /-- RFM_REQUEST (R339): A stack requests a refresh management command that is absorbed or displaces a traffic slot. -/
  | rfmRequest (p : PortId) (pc : Fin 64) (absorb : Bool) (defer : Bool)
  /-- TILE_READ_RETURN (R326): A tile read arrives in the port's return buffer. -/
  | tileReadReturn (p : PortId)
  /-- MP_SLOT_WRITE (R341): A management write of a slot entry takes effect at the next period. -/
  | mpSlotWrite (f : HostFn) (p : PortId) (i : Fin 1024) (v : W16)
  /-- DESCRIPTOR_START (R344): A context begins its next descriptor at an owned slot once START_BEAT is reached. -/
  | descriptorStart (x : StreamCtx)
  /-- INDEX_FRAME_RECEIVE (R348): A 4-flit frame of 32 indices arrives from a collection cell for a gather or scatter. -/
  | indexFrameReceive (x : StreamCtx)
  /-- SPINE_FRAME_SEND (R353): A context places a landing frame's flits in an injection cell's inlet FIFO at its phase. -/
  | spineFrameSend (x : StreamCtx)
  /-- WRITE_STRIP_TAKE (R357): A write context takes a frame from a spine outlet into its write-combining buffer. -/
  | writeStripTake (x : StreamCtx)
  /-- ROUTER_FORWARD (R375): A message router sends a message one hop in an OPEN slot when the neighbour has room. -/
  | routerForward (c : CellId) (input : Fin 5)
  /-- HUB_PATH_TRANSFER (R377): A bay node moves one item between a cell and the hub. -/
  | hubPathTransfer (c : CellId) (up : Bool)
  /-- HUB_MESSAGE_ROUTE (R378): At the hub a tagged message is staged, sent by Gacon, refused or sent down a bay node. -/
  | hubMessageRoute (b : BayId)
  /-- MESSAGE_ENQUEUE (R387): An arriving message is enqueued at TAIL or discarded and counted in DROPPED. -/
  | messageEnqueue (c : CellId)
  /-- BAR_CMD_ARM (R396): ARM latches PARTICIPANTS and arms a disarmed barrier. -/
  | barCmdArm (src : BarSrc) (n : BarId)
  /-- BAR_CMD_DISARM (R396): DISARM disarms the barrier and discards its arrivals. -/
  | barCmdDisarm (src : BarSrc) (n : BarId)
  /-- BAR_CMD_ARRIVE (R397): ARRIVE is checked and adds one arrival to the barrier. -/
  | barCmdArrive (src : BarSrc) (n : BarId) (err genchk : Bool) (gen : W16)
  /-- BAR_CMD_ERR (R397): ERR sets the barrier's ERROR, or LATE_ERR for the previous generation. -/
  | barCmdErr (src : BarSrc) (n : BarId) (genchk : Bool) (gen : W16)
  /-- BAR_CFG_WRITE (R396): A write of BAR_CFG or BAR_NOTIFY, discarded while the barrier is ARMED. -/
  | barCfgWrite (f : HostFn) (n : BarId) (reg : Fin 5) (v : W64)
  /-- STEP_BUILD (R412): The step builder writes step n + 1's block from the sequence table and marks it built. -/
  | stepBuild (s : SuiteId)
  /-- TOKEN_RECORD_RECEIVE (R415): A token record reaches the suite's commit queue or is refused or discarded. -/
  | tokenRecordReceive (b : BayId)
  /-- STEP_COMMIT (R417): After step close the builder handles the step's token records and commits tokens and chunks. -/
  | stepCommit (s : SuiteId)
  /-- OUTPUT_RECORD_WRITE (R421): The builder DMAs an output record into its ring once the ring has space. -/
  | outputRecordWrite (s : SuiteId) (ring : Fin 16) (dmaOk : Bool)
  /-- OUT_RING_CTL_WRITE (R431): A write of OUT_RING_CTL sets ENABLE, HEAD or LOG2SIZE of an output ring. -/
  | outRingCtlWrite (f : HostFn) (s : SuiteId) (ring : Fin 16) (v : W64)
  /-- LINK_FLIT_RECEIVE (R438): A Gacon data flit is accepted in order or discarded, with ACK and credit handling. -/
  | linkFlitReceive (g : GPort) (flit : BitVec 2144) (fec : FecResult)
  /-- FLIT_OPPORTUNITY (R444): Each link flit opportunity sends a control, replayed or data flit by the transmit pattern. -/
  | flitOpportunity (g : GPort)
  /-- IDLE (R436): An IDLE control flit is received, carrying ACK and returned credits. -/
  | gaconIdle (g : GPort) (flit : BitVec 2144)
  /-- NAK (R438): A NAK makes the sender resend its buffered flits from the named SEQ. -/
  | gaconNak (g : GPort) (flit : BitVec 2144)
  /-- NAK_TIMEOUT (R438): The expected SEQ has not arrived 1 µs after a NAK, which is sent again. -/
  | nakTimeout (g : GPort)
  /-- REPLAY_TIMEOUT (R439): ACK has not advanced for 2 µs and the sender replays its buffer, reporting ORIGIN 3. -/
  | replayTimeout (g : GPort)
  /-- SWAP (R449): A SWAP control flit is received and answered with SWAP_ACK. -/
  | gaconSwap (g : GPort) (flit : BitVec 2144)
  /-- SWAP_ACK (R449): A SWAP_ACK confirms the lane switch at the named codeword. -/
  | gaconSwapAck (g : GPort) (flit : BitVec 2144)
  /-- FAILOVER_SWITCH (R449): Both ends move the logical lane to the spare at the switch codeword. -/
  | failoverSwitch (g : GPort) (rx : Bool)
  /-- LANE_FAILURE (R448): A lane loses lock or exceeds its corrected-symbol or replay allotment and is declared failed. -/
  | laneFailure (g : GPort) (rx : Bool) (lane : Fin 10)
  /-- PARTNER_SIGNAL_LOST (R445): Signal is lost on every lane and the port goes FAILED. -/
  | partnerSignalLost (g : GPort)
  /-- GC_CTL_TRAIN (R445): Writing TRAIN starts training of a DOWN or FAILED port. -/
  | gcCtlTrain (f : HostFn) (g : GPort) (v : W64)
  /-- GC_CTL_DOWN (R445): Writing DOWN takes the port down. -/
  | gcCtlDown (f : HostFn) (g : GPort) (v : W64)
  /-- DETECT (R445): Partner signal is found on enough lanes within 1 ms, or the port fails. -/
  | detect (g : GPort) (signal : BitVec 10)
  /-- EQUALISE (R445): Lanes equalise within 15 ms and failing lanes are marked, or the port fails. -/
  | equalise (g : GPort) (rxGood txGood : BitVec 10) (slow : Bool)
  /-- NEGOTIATE (R446): Capability blocks are exchanged and version, lanes, rate, features and credits agreed. -/
  | negotiate (g : GPort) (cap : CapBlock)
  /-- ALIGN (R445): Deskew and FEC lock within 1 ms take the port UP, or it fails. -/
  | align (g : GPort) (lock : Bool)
  /-- DOMAIN_ID_WRITE (R452): A write of DOMAIN_ID, discarded while any port is outside DOWN and FAILED. -/
  | domainIdWrite (f : HostFn) (v : W64)
  /-- WRITE (R458): A Gacon WRITE transaction is forwarded or applied into HBM or as landing frames. -/
  | gaconWrite (g : GPort) (vc : Vc)
  /-- READ (R457): A Gacon READ is checked and answered with a RETURN. -/
  | gaconRead (g : GPort) (vc : Vc)
  /-- RETURN (R463): A RETURN tile enters the Gacon engine's return buffer for delivery by due beat. -/
  | gaconReturn (g : GPort) (vc : Vc)
  /-- GACON_MSG (R456): A MSG transaction delivers a message to its destination queue. -/
  | gaconMsg (g : GPort) (vc : Vc)
  /-- BARCMD (R457): A BARCMD transaction applies a BAR_CMD to a barrier on the target part. -/
  | gaconBarcmd (g : GPort) (vc : Vc)
  /-- NOTICE (R465): A NOTICE places a write-loss record in the initiator suite's error queue. -/
  | gaconNotice (g : GPort) (vc : Vc)
  /-- SESSION_OPEN (R507): Opens a PF session at the negotiated version, optionally with the exclusive lease. -/
  | sessionOpen (t : Nat)
  /-- SESSION_CLOSE (R508): Closes a session and releases its leases. -/
  | sessionClose (t : Nat)
  /-- DEVICE_STATUS (R513): Returns device state, grade, bays, suite counts and the tick counter. -/
  | deviceStatus (t : Nat)
  /-- SUITE_CREATE (R485): Checks an image header, places the shape, takes resources and builds the hold tree. -/
  | suiteCreate (t : Nat) (buf : HostRead)
  /-- SUITE_DESTROY (R487): Unloads a suite and releases all its resources. -/
  | suiteDestroy (t : Nat)
  /-- IMAGE_LOAD (R486): Checks, decrypts and writes an image into a suite, leaving it LOADED or EMPTY. -/
  | imageLoad (t : Nat) (buf peers : HostRead)
  /-- IMAGE_UNLOAD (R487): Clears a suite's cells, windows and extents, keeping its reservations. -/
  | imageUnload (t : Nat)
  /-- SUITE_START (R519): Wakes a suite's bays and runs its section 0 or its configured section. -/
  | suiteStart (t : Nat)
  /-- SUITE_STOP (R519): FORCE 0: sets STOPPING so the suite stops at its next section or step boundary. -/
  | suiteStop (t : Nat)
  /-- SUITE_STOP_FORCE (R545): FORCE 1: issues final records and performs a suite reset to LOADED. -/
  | suiteStopForce (t : Nat)
  /-- SEQ_SUBMIT (R405): Writes a QUEUED sequence entry in the suite's blocks or refuses it. -/
  | seqSubmit (t : Nat)
  /-- SEQ_CANCEL (R515): Cancels a sequence, sending its final record. -/
  | seqCancel (t : Nat)
  /-- POLICY_SET_DEVICE (R535): SCOPE 0: sets the power cap. -/
  | policySetDevice (t : Nat)
  /-- POLICY_SET_SUITE (R535): SCOPE 1: sets a suite's frequency floor and ceiling. -/
  | policySetSuite (t : Nat)
  /-- POLICY_SET_SPLIT (R337): SCOPE 2: writes the slot split code into the boot configuration record. -/
  | policySetSplit (t : Nat)
  /-- COUNTER_CONFIG (R586): Writes counter event selects and sets the suite's CTR_USER permission. -/
  | counterConfig (t : Nat)
  /-- SAMPLE_CONFIG (R590): Sets sillage sampling enable, interval and ring. -/
  | sampleConfig (t : Nat)
  /-- METER_READ (R617): Copies metering records in SEQ order to host memory. -/
  | meterRead (t : Nat)
  /-- TIME_SET (R618): Sets the wall-clock label from a returned tick. -/
  | timeSet (t : Nat)
  /-- FW_DOWNLOAD (R608): Writes firmware bytes into slot B. -/
  | fwDownload (t : Nat) (buf : HostRead)
  /-- FW_VERIFY (R608): Checks slot B's header, digest and SVN and marks it VERIFIED. -/
  | fwVerify (t : Nat)
  /-- FW_ACTIVATE (R608): Opens a firmware trial in the boot pointer and performs a warm reset. -/
  | fwActivate (t : Nat)
  /-- FW_CONFIRM (R608): Confirms the trial slot as slot A. -/
  | fwConfirm (t : Nat)
  /-- KEY_PROVISION_FK (R604): OP 0: programs a customer fuse key. -/
  | keyProvisionFk (t : Nat) (buf : HostRead)
  /-- KEY_PROVISION_BBK (R604): OP 1: loads a battery-backed key register. -/
  | keyProvisionBbk (t : Nat) (buf : HostRead)
  /-- KEY_PROVISION_BBK_ZEROISE (R604): OP 2: zeroises a BBK slot without presence. -/
  | keyProvisionBbkZeroise (t : Nat)
  /-- KEY_PROVISION_SIGNER (R604): OP 3: provisions a signer slot digest and SVN floor. -/
  | keyProvisionSigner (t : Nat) (buf : HostRead)
  /-- KEY_PROVISION_REVOKE_SIGNER (R604): OP 4: revokes a signer slot. -/
  | keyProvisionRevokeSigner (t : Nat)
  /-- KEY_PROVISION_REVOKE_FK (R604): OP 5: revokes a customer fuse key. -/
  | keyProvisionRevokeFk (t : Nat)
  /-- KEY_PROVISION_SVN_FLOOR (R604): OP 6: raises a signer slot's SVN floor. -/
  | keyProvisionSvnFloor (t : Nat) (buf : HostRead)
  /-- KEY_PROVISION_SVN_MIN (R604): OP 7: raises the firmware SVN_MIN. -/
  | keyProvisionSvnMin (t : Nat) (buf : HostRead)
  /-- DEBUG_UNLOCK (R603): Verifies a signed token and unlocks JTAG or UART debug, replacing the challenge. -/
  | debugUnlock (t : Nat) (buf : HostRead)
  /-- LEASE_ACQUIRE (R612): Acquires a lease on a resource. -/
  | leaseAcquire (t : Nat)
  /-- LEASE_RELEASE (R612): Releases a lease held by the session. -/
  | leaseRelease (t : Nat)
  /-- LOG_READ (R557): Copies device events, the error log or a suite error queue to host memory. -/
  | logRead (t : Nat)
  /-- DEVICE_RESET_WARM (R541): MODE 0: immediate warm reset. -/
  | deviceResetWarm (t : Nat)
  /-- DEVICE_RESET_DRAINED_WARM (R517): MODE 1: drains the device, then performs a warm reset. -/
  | deviceResetDrainedWarm (t : Nat)
  /-- DEVICE_RESET_DRAINED_QUIESCE (R517): MODE 2: drains the device and quiesces it with HBM in self-refresh. -/
  | deviceResetDrainedQuiesce (t : Nat)
  /-- DEVICE_RESET_FACTORY (R605): MODE 3: erases stored images, zeroises BBKs, frees leases and warm resets. -/
  | deviceResetFactory (t : Nat)
  /-- DEVICE_RESET_REPAIR_RETEST (R548): MODE 4: warm reset whose maceration retests run-time failed units. -/
  | deviceResetRepairRetest (t : Nat)
  /-- DRAIN_TIMEOUT (R517): A suite not STOPPED 1 s after a drain began is stopped with FORCE 1. -/
  | drainTimeout (s : SuiteId)
  /-- DRAIN_COMPLETE (R517): The drain ends and a warm reset or QUIESCED follows. -/
  | drainComplete
  /-- COMMAND_DOORBELL (R502): A write of a command ring's TAIL signals new command entries. -/
  | commandDoorbell (f : HostFn) (v : W64)
  /-- COMPLETION_HEAD_WRITE (R502): A write of a completion ring's HEAD frees completion entries. -/
  | completionHeadWrite (f : HostFn) (v : W64)
  /-- RING_ENABLE (R502): A write of a ring register enables a ring, resetting its pointers, or is refused. -/
  | ringEnable (f : HostFn) (cpl : Bool) (v : W64)
  /-- COMMAND_FETCH (R503): The firmware takes a command entry once it has reserved a completion entry. -/
  | commandFetch (f : HostFn) (entry : HostRead)
  /-- APERTURE_HBM_ACCESS (R498): A host aperture access to HBM is served in an idle owned slot of the suite. -/
  | apertureHbmAccess (f : HostFn) (off : Nat) (w : Option W64)
  /-- FLR_PF (R494): A PF Function Level Reset closes sessions, breaks leases and disables the PF rings. -/
  | flrPf
  /-- FLR_VF (R494): A VF Function Level Reset disables the fast ring, VF_APERTURE and output rings. -/
  | flrVf (s : SuiteId)
  /-- PERST_N (R542): A falling edge of PERST_N warm resets the device, or only the PCIe port during maceration. -/
  | perstN
  /-- DEVICE_FATAL_ERROR (R574): A device-fatal error loses every suite and returns the device to READY. -/
  | deviceFatalError
  /-- VAON_GOOD (R523): VAON becomes good; the always-on domain and tick counter start (power-on reset). -/
  | vaonGood
  /-- VAON_LOSS (R525): VAON is lost and the device turns OFF. -/
  | vaonLoss
  /-- VIN12_GOOD (R523): VIN12 becomes good and the I/O, HBM and hub rails ramp. -/
  | vin12Good
  /-- VIN12_LOSS (R525): VIN12 is lost; all but the always-on domain turns off and HBM contents are lost. -/
  | vin12Loss
  /-- VIN48_GOOD (R523): VIN48 becomes good and core conversion starts. -/
  | vin48Good
  /-- VIN48_LOSS (R525): VIN48 is lost; bays turn off, HBM self-refreshes and suites are lost. -/
  | vin48Loss
  /-- VIN48_RETURN (R525): VIN48 has been good for 10 ms after a loss and warm maceration begins. -/
  | vin48Return
  /-- VBAT_LOSS (R525): VBAT is lost and the BBK slots are zeroised. -/
  | vbatLoss
  /-- RESONATOR_FAILURE (R527): The resonator stops; the always-on domain moves to the ring oscillator and the hub PLL holds over. -/
  | resonatorFailure
  /-- HOLDOVER_END (R528): After 10 s of holdover the hub PLL follows the ring oscillator. -/
  | holdoverEnd
  /-- BAY_PLL_LOCK (R529): A bay's PLL locks and LOCK reads 1. -/
  | bayPllLock (b : BayId)
  /-- ASLEEP_SCRUB_WAKE (R531): An ASLEEP bay wakes once per scrub period for one scrub pass. -/
  | asleepScrubWake (b : BayId)
  /-- STACK_SELF_REFRESH_ENTRY (R533): A stack with no user enters self-refresh. -/
  | stackSelfRefreshEntry (p : PortId)
  /-- STACK_SELF_REFRESH_EXIT (R533): A stack leaves self-refresh within 2 µs when a user arises. -/
  | stackSelfRefreshExit (p : PortId)
  /-- POWER_CAP_LOOP (R536): Every 1 ms the cap loop compares P10 with CAP and changes one TARGET or DUTY. -/
  | powerCapLoop (p10 peak : W16)
  /-- PROTECTION_TRIGGER (R538): Temperature, power or current protection makes suite roots raise PROTECT. -/
  | protectionTrigger (cause : ProtCause)
  /-- PROTECTION_CLEAR (R538): 100 µs after the condition clears the roots drop PROTECT. -/
  | protectionClear (cause : ProtCause)
  /-- THERMTRIP (R539): A sensor at 115 °C asserts THERMTRIP_N, turns off core power and warm resets. -/
  | thermtrip (tj : Byte)
  /-- THERMTRIP_REARM (R539): All sensors below 95 °C release THERMTRIP_N and maceration begins. -/
  | thermtripRearm (tj : Byte)
  /-- MACERATION_STEP_COMPLETE (R546): A maceration step finishes and the next starts, or the device enters READY or SAFE. -/
  | macerationStepComplete (r : MacReport)
  /-- UNIT_CHECK_ERROR (R553): A unit check error in a suite's bays is reported and classified. -/
  | unitCheckError (u : UnitCheck)
  /-- RECOVERY_DETECT (R558): A recoverable fault starts recovery: MGMT hold, quick test, staged effects and contexts discarded. -/
  | recoveryDetect (s : SuiteId)
  /-- QUICK_TEST_DONE (R559): The quick test ends, classifying the fault permanent or transient and starting repair. -/
  | quickTestDone (s : SuiteId) (pass : Bool)
  /-- LATERAL_COPY_DONE (R561): The S-die copy mesh finishes moving the row's scratchpads one column east. -/
  | lateralCopyDone (s : SuiteId)
  /-- RESTORE_DONE (R562): The repair engine finishes writing mirror tiles into the restored panes. -/
  | restoreDone (s : SuiteId)
  /-- MIRROR_RESTORE (R571): A scrubber-poisoned mirrored pane is rewritten from its mirror and becomes FULL. -/
  | mirrorRestore (c : CellId) (o : Fin 8) (pane : Fin 128)
  /-- MIRROR_REWRITE (R571): A poisoned mirror granule is rewritten from its FULL pane. -/
  | mirrorRewrite (c : CellId) (o : Fin 8) (pane : Fin 128)
  /-- SUITE_FATAL_FAULT (R570): A job fault or suite-fatal fault stops the suite, voids its contexts and puts it in FAULTED. -/
  | suiteFatalFault (s : SuiteId)
  /-- PSEUDO_CHANNEL_LOSS (R569): A lost pseudo-channel retires its stack and faults every suite with a window in it. -/
  | pseudoChannelLoss (p : PortId) (pc : Fin 64)
  /-- STATE_MISMATCH_RECHECK (R575): Management rereads a disagreeing register at 100 µs intervals and marks the unit suspect. -/
  | stateMismatchRecheck (u : UnitRef) (differs : Bool)
  /-- COUNTER_OVERFLOW (R579): A counter wraps, sets OVF and optionally enqueues an overflow message. -/
  | counterOverflow (k : CounterRef)
  /-- WATCHDOG_EXPIRY (R584): The schedule beat reaches CELL_WDOG.LIMIT and EXPIRED is reported. -/
  | watchdogExpiry (c : CellId)
  /-- SAMPLE_TAKEN (R591): The bay countdown reaches 0 at an eligible completion and a sample is recorded. -/
  | sampleTaken (c : CellId) (e : Option Engine)
  /-- SAMPLE_RECORD_WRITE (R593): The hub writes buffered sample records into the ring in idle write slots. -/
  | sampleRecordWrite (s : SuiteId)
  /-- HEARTBEAT (R595): The active core writes its heartbeat every 100 µs. -/
  | heartbeat
  /-- CHECKPOINT (R596): Every 10 ms the active core writes a checkpoint into the standby SRAM. -/
  | checkpoint
  /-- ACTIVE_CORE_FAILURE (R595): The hub watchdog declares the active core failed and the standby takes over. -/
  | activeCoreFailure
  /-- STANDBY_BIST_DONE (R595): The failed core's BIST ends and it becomes standby or stays out. -/
  | standbyBistDone (pass : Bool)
  /-- SIDEBAND_READ (R599): An I3C or SMBus read returns the hub register for its command code. -/
  | sidebandRead (k : Byte)
  /-- SIDEBAND_WRITE (R599): A sideband write acts on ALERT_CTL or is discarded. -/
  | sidebandWrite (k : Byte) (v : W64)
  /-- PRESENCE_ASSERT (R600): PRESENCE_N low for 50 ms asserts presence. -/
  | presenceAssert
  /-- PRESENCE_DEASSERT (R600): PRESENCE_N high for 50 ms deasserts presence and ends debug unlocks. -/
  | presenceDeassert
  /-- SEAL_OPEN (R602): The seal loop open for 10 µs zeroises both BBK slots. -/
  | sealOpen
  /-- METER_PERIOD_BOUNDARY (R615): At each period boundary the hub closes a signed metering record per suite. -/
  | meterPeriodBoundary
  /-- METER_CHECKPOINT (R615): Every 1 s the metering accumulators are checkpointed to the store die. -/
  | meterCheckpoint
  /-- METER_CTL_WRITE (R614): A write of METER_CTL.PERIOD takes effect at the next boundary or is discarded. -/
  | meterCtlWrite (f : HostFn) (v : W64)
  /-- PERST_N_DEASSERTION (R489): The rising edge of PERST_N lets the PCIe link train and configuration space answer within 100 ms. -/
  | perstNDeassertion
  /-- VBAT_GOOD (R522): VBAT comes within range, VBAT_GOOD is set and the seal monitor and SEAL_A drive move from VAON to VBAT so BBK slots can hold keys. -/
  | vbatGood
  deriving DecidableEq, Repr

end Sys2Proof
end

