-- ==== Sys2Proof/Config.lean ====
section
/-!
DEFINITION. What one part fixes or the spec leaves open: the free values, and the cryptographic functions that the spec names
by their standards and does not define (SHA-384, HMAC-SHA-384, ECDSA P-384, AES-256-GCM). All are uninterpreted: no proof can
see a value of them, so a claim that holds of the model holds whatever they are.
-/

namespace Sys2Proof

/-- DESIGN CHOICE (log 1): the n-th open value of a run (TRNG output, an accuracy the spec leaves open). State.free counts
the values used. -/
opaque Config.freeValue : Nat → W64

/-- DESIGN CHOICE (log 2): SHA-384 of a byte string (R468, R470, R606). -/
opaque Config.sha384 : List Byte → List Byte

/-- DESIGN CHOICE (log 2): HMAC-SHA-384 under a key (R472, R616). -/
opaque Config.hmacSha384 : List Byte → List Byte → List Byte

/-- DESIGN CHOICE (log 2): whether an ECDSA P-384 signature (r then s) over a message verifies under a public key (x then y)
(R468, R603, R606). The arguments are key, signature, message. -/
opaque Config.ecdsaP384 : List Byte → List Byte → List Byte → Bool

/-- DESIGN CHOICE (log 2): AES-256-GCM decryption under key, nonce, additional data, ciphertext, tag (R469): none when the tag
does not verify. -/
opaque Config.gcmOpen : List Byte → List Byte → List Byte → List Byte → List Byte → Option (List Byte)

/-- DESIGN CHOICE (log 2): AES-256-GCM encryption under key, nonce, additional data, plaintext: ciphertext and tag (R474). -/
opaque Config.gcmSeal : List Byte → List Byte → List Byte → List Byte → List Byte × List Byte

end Sys2Proof
end

