-- ==== Sys2Proof/Machine/State.lean ====
section
/-!
DEFINITION. The whole state of one M4 part as plain data: every register, memory, FIFO, queue, buffer, counter, mode and
pin the spec names, and the queue of waiting commands. Field names follow the spec's register fields; the docstring of a
structure names the rules and tables it holds. Fields marked MODEL are the model's own (time, outputs, free values).
-/

namespace Sys2Proof.Machine

/-- A sparse collection by number: (index, value) pairs with strictly rising indices. What an unlisted index holds is said
where the field is declared. -/
abbrev SMap (V : Type) := List (Nat × V)

/-- Bytes by address in canonical form: addresses strictly rising, no listed byte 0; an unlisted byte is 0. -/
abbrev Memory := List Host.Cell

/-- Pane tag (R112). -/
inductive Tag where
  | empty
  | full
  | provisional
  | poisoned
  deriving DecidableEq, Repr

/-- CELL_STATUS.STATE but for HELD, which the field held of a cell shows (Table 2.5). -/
inductive CellState where
  | idle
  | loading
  | waitingStart
  | running
  | halted
  | faulted
  deriving DecidableEq, Repr

/-- FORMAT of a weight buffer (R192, Table 5.2). -/
inductive WFmt where
  | none
  | int8
  | int4
  | mb8
  | mb4
  | slice
  deriving DecidableEq, Repr

/-- A commit or void that waits (R130): due is the schedule cycle in which it takes effect or, with off (it came while the cell was
neither RUNNING nor HELD), the moment at which the cycle after its arrival begins. -/
structure ZoneNotice where
  commit : Bool
  off : Bool
  due : Nat
  deriving DecidableEq, Repr

/-- One landing zone: LZ_CFG and LZ_COUNT (Tables 3.5, 3.6), its credit partner (R380) and what waits for a beat (R130, R132). -/
structure Zone where
  mode : Bool := false
  valid : Bool := false
  octant : BitVec 3 := 0
  pane : BitVec 7 := 0
  count : BitVec 8 := 0
  pgen : BitVec 4 := 0
  ovf : Bool := false
  tagErr : Bool := false
  refused : Bool := false
  stale : Bool := false
  credits : BitVec 16 := 0
  provLanded : BitVec 24 := 0
  landed : BitVec 24 := 0
  partner : Option (BitVec 6 × BitVec 20) := none
  notices : List ZoneNotice := []
  modeReq : Option (Bool × Nat) := none
  deriving DecidableEq, Repr

/-- One element of an accumulator pane: significand A (an INT32 value in an INT pane), sticky and NaN bits (R170). -/
structure AccElem where
  a : Int := 0
  sticky : Bool := false
  nan : Bool := false
  deriving DecidableEq, Repr

/-- One accumulator pane (R192, R170): KIND, PROV mark, elements by 32 × row + column (unlisted: cleared) and the frame
exponents by column (unlisted: EMPTY). -/
structure AccPane where
  ext : Bool := false
  prov : Bool := false
  elems : SMap AccElem := []
  frames : SMap Int := []
  deriving DecidableEq, Repr

/-- One weight buffer (R192): FORMAT, its PROV mark (R205), element (k, n) at 32 × k + n (unlisted: 0), and side data of
column n, K half h, at 2 × n + h. -/
structure WeightBuf where
  fmt : WFmt := .none
  prov : Bool := false
  elems : SMap Int := []
  side : SMap Nat := []
  deriving DecidableEq, Repr

/-- One open loop (R70, R71): the address of the body's first instruction and the counter. -/
structure Loop where
  body : Nat
  counter : Nat
  deriving DecidableEq, Repr

/-- One of the cell's accesses to an octant in a schedule cycle (R102, R108), with its strip-aligned address. -/
structure Claim where
  octant : Nat
  cycle : Nat
  addr : Nat
  deriving DecidableEq, Repr

/-- A strip write that the schedule places in a cycle: its byte addresses, and nib: the last byte takes its low four bits only (R225).
The bytes of an instruction's slots follow one another in its result. -/
structure WriteSlot where
  cycle : Nat
  addrs : List Nat
  nib : Bool
  deriving DecidableEq, Repr

/-- An issued instruction (R43, R75, R76): its word, context, address, schedule cycle and place in issue order, the MODE and
count read at issue, whether it acts under PROV, the issue number of the producer it takes S1 from by CHAIN, the constant words it read (S1, S2, ENG constant, stochastic key low and
high, or the words its own rule names), the loop counters and depth for a fault record (R95), and its source and destination
panes. wall and held are the cell's cycle counts at issue (Table 17.13). -/
structure Issued where
  word : BitVec 128
  ctx : Ctx
  pc : Nat
  cycle : Nat
  seqNo : Nat
  mode : BitVec 4
  n : Nat
  prov : Bool
  chainedIn : Option Nat
  consts : List Nat
  loops : List Nat
  depth : Nat
  srcs : List Nat
  dsts : List Nat
  wall : Nat
  heldAt : Nat
  deriving DecidableEq, Repr

/-- An instruction that has started and not completed (R58): its engine, first cycle, last cycle of a read and of any access, its
strip reads and writes with their cycles, and the bytes read so far by the read's place in the list. cut: the schedule cycle from which
its accesses and tag updates are suppressed (R91, R109). sends: the cycles at whose end a strip enters the send channel; takes: those in
which a RECV takes a strip (R361), which got holds in place of a read; voids: the strips taken from VOID flits (R257). msg: what QPOP or
HTAKE writes; weights: the buffer that an MMAC found at its start (R207). -/
structure InFlight where
  instr : Issued
  engine : Engine
  start : Nat
  lastRead : Nat
  done : Nat
  reads : List (Nat × List Nat) := []
  slots : List WriteSlot := []
  got : SMap (List Byte) := []
  cut : Option Nat := none
  sends : List Nat := []
  takes : List Nat := []
  voids : List Nat := []
  msg : Option W256 := none
  weights : Option WeightBuf := none
  deriving DecidableEq, Repr

/-- A check that came out late (R66, R67): the instruction's schedule cycle and its hold cause bit (Table 7.6). -/
structure LateCheck where
  cycle : Nat
  cause : Nat
  deriving DecidableEq, Repr

/-- A fault found at the check point, taken when its instruction issues (R89); deferred: a hold began at the boundary of its
beat, so the instruction is checked again (R90). -/
structure CheckFault where
  cycle : Nat
  pc : Nat
  deferred : Bool
  cause : Nat
  detail : Nat
  addr : Nat
  deriving DecidableEq, Repr

/-- FAULT_INFO, FAULT_LOOPS_A/B, FAULT_BEAT, FAULT_ADDR (Tables 2.15–2.19). -/
structure FaultRec where
  valid : Bool := false
  handler : Bool := false
  cause : BitVec 3 := 0
  exec : Bool := false
  detail : BitVec 8 := 0
  opcode : BitVec 8 := 0
  pc : BitVec 9 := 0
  depth : BitVec 3 := 0
  mode : BitVec 4 := 0
  loops : List (BitVec 24) := []
  cycle : BitVec 4 := 0
  beat : BitVec 32 := 0
  addr : BitVec 48 := 0
  deriving DecidableEq, Repr

/-- The running handler (R79–R83): next instruction, instructions issued, MAX_LEN, VL, first cycle it may issue, its queue. -/
structure Handler where
  pc : Nat
  issued : Nat
  maxLen : Nat
  vl : Nat
  ready : Nat
  queue : Nat
  deriving DecidableEq, Repr

/-- The cycles of a NOP carrying OPEN (R80): first cycle, count, octant mask and window. -/
structure OpenNop where
  first : Nat
  n : Nat
  mask : BitVec 8
  window : Nat
  deriving DecidableEq, Repr

/-- The sequencer (R50, R62–R86): CELL_BEAT is that of cycle cyc − stood, for stood counts the cycles that a LOADING cell passed in holds of its
suite (R62, R312). ready is the first schedule cycle in which the
main context may issue; checked counts the beats whose check point has passed; lateSeen: the causes that the root's sample of a wall beat
still sees after their checks passed (R274); dispatch and waiting: queue, schedule cycle and wall cycle of an arrival (R78); lastChain:
the last instruction carried CHAIN (its number, whether it acts under PROV). MODEL: seqNo orders the issues. -/
structure Seq where
  pc : Nat := 0
  ready : Nat := 0
  loops : List Loop := []
  vl : List Nat := [32, 32, 32, 32, 32]
  mode : BitVec 4 := 0
  cyc : Nat := 0
  stood : Nat := 0
  openNop : Option OpenNop := none
  dried : Bool := false
  checked : Nat := 0
  late : List LateCheck := []
  lateSeen : Option (Nat × BitVec 8) := none
  faults : List CheckFault := []
  lastHandlerIssue : Option Nat := none
  handler : Option Handler := none
  hmsg : W256 := 0
  dispatch : List (Nat × Nat × Nat) := []
  waiting : List (Nat × Nat × Nat) := []
  lastChain : Option (Nat × Bool) := none
  seqNo : Nat := 0
  deriving DecidableEq, Repr

/-- The marks of the matrix engine that instructions are judged by (R192, R194, R205): FORMAT of each buffer, KIND and PROV of each
accumulator pane, PROV of each buffer. -/
structure MatMarks where
  fmt0 : WFmt := .none
  fmt1 : WFmt := .none
  kinds : BitVec 8 := 0
  provs : BitVec 8 := 0
  bprov0 : Bool := false
  bprov1 : Bool := false
  deriving DecidableEq, Repr

/-- The matrix engine (R192–R195, R207): buffers, accumulator panes (unlisted: cleared INT), the marks that the sequencer tracks at issue
(R194) and those left by the last instruction started (R195), and the pipe and interlock times of Tables 5.6 and 5.7. -/
structure Matrix where
  buf0 : WeightBuf := {}
  buf1 : WeightBuf := {}
  acc : SMap AccPane := []
  issued : MatMarks := {}
  started : MatMarks := {}
  loadFree : Nat := 0
  arrayFree : Nat := 0
  drainFree : Nat := 0
  ready0 : Nat := 0
  ready1 : Nat := 0
  used0 : Nat := 0
  used1 : Nat := 0
  updated : SMap Nat := []
  readEnd : SMap Nat := []
  deriving DecidableEq, Repr

/-- The instruction queues (R43), the instructions in flight, the SEAL, RELEASE and WAIT opcodes whose issue cycle has not passed
(R60, R127), the two chain paths (issue number of the producer, cycle of delivery, the strip once delivered; R250), and the cycle from
which each unit is free (R246). -/
structure Engines where
  matrixQ : List Issued := []
  vectorQ : List Issued := []
  reductionQ : List Issued := []
  moveQ : List Issued := []
  counterQ : List Issued := []
  inflight : List InFlight := []
  tagOps : List Issued := []
  chainMV : List (Nat × Nat × Option (List Byte)) := []
  chainVR : List (Nat × Nat × Option (List Byte)) := []
  vectorFree : Nat := 0
  reductionFree : Nat := 0
  moveFree : Nat := 0
  counterFree : Nat := 0
  deriving DecidableEq, Repr

/-- One item of the hub path (R377): a message, or a barrier command (BAR_CMD value for a barrier). -/
inductive HubItem where
  | msg (m : W256)
  | bar (n : Nat) (cmd : W64)
  deriving DecidableEq, Repr

/-- Where an arriving message comes from (R388). -/
inductive MsgSource where
  | rxChannel
  | router
  | hub
  deriving DecidableEq, Repr

/-- A message that has reached the cell and is not yet enqueued (R388); vc: the virtual channel it came by from another part. -/
structure Arrival where
  src : MsgSource
  queue : Nat
  msg : W256
  vc : Option Nat := none
  deriving DecidableEq, Repr

/-- The live state of a queue (R386). fresh: the wall cycle of its last enqueue and how many messages that cycle brought, which a pop
of the same cycle does not see (R390). -/
structure QueueLive where
  head : Nat := 0
  tail : Nat := 0
  count : Nat := 0
  retained : Nat := 0
  dropped : BitVec 16 := 0
  fresh : Nat × Nat := (0, 0)
  deriving DecidableEq, Repr

/-- A landing frame whose LAST entry has been popped (R260, R637): the octant and cell cycle of its landing slot, its header, and its
four data flits (none: popped empty). -/
structure Landing where
  octant : Nat
  wall : Nat
  header : Flit
  data : List (Option Flit)
  deriving DecidableEq, Repr

/-- Ports, FIFOs, channels and router of a cell (R253–R269, R365–R376). Wires, FIFOs, outlets and frames by 4 × port + track. A
wire holds the flits on their way to this cell's input track; an outlet the flits of a spine outlet track with the schedule cycle
they were sent in; frames holds the flits a landing frame has popped so far. phaseDone: the cell cycle whose phase has been carried out; routed: by port, the cell cycle in which the router last sent; coming: by
port, the router's messages on their way to it, which its free entries must hold (R375). -/
structure Tracks where
  wires : SMap (List Flit) := []
  fifos : SMap (List Flit) := []
  fifoBad : List Nat := []
  outlets : SMap (List (Nat × Flit)) := []
  frames : SMap (List (Option Flit)) := []
  landings : List Landing := []
  corr : BitVec 16 := 0
  uncorr : BitVec 5 := 0
  overrun : BitVec 5 := 0
  underrun : BitVec 5 := 0
  sendCh : SMap (List Flit) := []
  recvCh : SMap (List Flit) := []
  sendBad : List Nat := []
  recvBad : List Nat := []
  router : SMap (List W256) := []
  routerKept : SMap (List W256) := []
  outbound : List HubItem := []
  arrivals : List Arrival := []
  phaseDone : Option Nat := none
  routed : SMap Nat := []
  coming : SMap Nat := []
  deriving DecidableEq, Repr

/-- The message store in two copies with its check bits, and the queues (R383, R386, R567). local: slots filled in the open
section from a bound channel or the router (R393). -/
structure Queues where
  storeA : Memory := []
  checkA : Memory := []
  storeB : Memory := []
  checkB : Memory := []
  live : SMap QueueLive := []
  localSlots : List Nat := []
  selSlot : BitVec 9 := 0
  selQueue : BitVec 8 := 0
  deriving DecidableEq, Repr

/-- A configuration group of 128 bytes (R298) and whether one of its flits carried VOID. -/
structure Group where
  bytes : BitVec 1024
  void : Bool
  deriving DecidableEq, Repr

/-- The configuration store and path of a cell (R44, R46, R297–R305, Table 8.3). store and parity by word index (unlisted: 0);
rings, qdescs: rings and descriptor bytes of the valid queues at the last commit. -/
structure Config where
  store : SMap W32 := []
  parity : SMap Bool := []
  residue : BitVec 16 := 0
  sect : BitVec 16 := 0
  groups : Nat := 0
  ready : Bool := false
  clearing : Bool := false
  clearPos : Nat := 0
  provDropped : Bool := false
  idErr : Bool := false
  crcErr : Bool := false
  voidErr : Bool := false
  blockErr : Bool := false
  header : BitVec 1024 := 0
  keep : BitVec 1024 := 0
  crc : W32 := 0
  wire : List Group := []
  path : List Group := []
  queueValid : List Nat := []
  rings : SMap (Nat × Nat) := []
  qdescs : SMap (List Nat) := []
  readyAt : Nat := 0
  deriving DecidableEq, Repr

/-- CTR_SEL (Table 17.3). -/
structure CtrSel where
  enable : Bool
  chain : Bool
  ovfMsg : Bool
  edge : Bool
  event : BitVec 10
  unit : Byte
  deriving DecidableEq, Repr

/-- Eight (or sixteen) counters with their select registers and overflow bits (R576–R582), the edge detectors
(the cycle up to which a counter's event was not 0), and the counters that have wrapped and wait for their overflow event. -/
structure Counters where
  ctr : SMap (BitVec 48) := []
  sel : SMap CtrSel := []
  prev : SMap Nat := []
  ovf : W16 := 0
  ovfQueue : Byte := 0
  frozen : Bool := false
  wrapped : List Nat := []
  deriving DecidableEq, Repr

/-- The cell's observation state: watchdog (Table 17.5) and cycle tallies, closed and open parts (R587, R588), wall and held
cycles so far, and the schedule cycle of the last issue other than NOP. -/
structure CellObs where
  wdExpired : Bool := false
  wdRunning : Bool := false
  wdLimit : BitVec 32 := 0
  tdClosed : List (BitVec 48) := [0, 0, 0, 0, 0]
  tdOpen : List (BitVec 48) := [0, 0, 0, 0, 0]
  wall : Nat := 0
  heldCycles : Nat := 0
  busyAt : Option Nat := none
  deriving DecidableEq, Repr

/-- Scrubber of one octant (R140, R141): bank addresses read in a scrub period, the number of that period, and those read in the period
before it; the write-backs that wait (R137): word address and corrected data; the words written since they were queued are dropped by R138. -/
structure Scrub where
  period : Nat := 0
  reads : Nat := 0
  past : Nat := 0
  backs : List (Nat × W32) := []
  deriving DecidableEq, Repr

/-- An access of the scratchpad by management, the repair engine or an octant's scrubber that waits for an unclaimed cycle (R110, R111, R571): a
read of some words, a write of some bytes, the second cycle of one that covers words in part (R106), a strip of a mirrored pane (last: the
pane is then whole), a scrub read, or a correction write-back. -/
inductive SpadAccess where
  | read (word words : Nat)
  | write (bytes : List (Nat × Byte))
  | merge (bytes : List (Nat × Byte))
  | restore (addr : Nat) (bytes : List Byte) (last : Bool)
  | scrub (o : Nat)
  | writeBack (o : Nat)
  deriving DecidableEq, Repr

/-- One cell. mem and check: scratchpad data by 22-bit address and check bits by word number (R97, R135); tags by global pane
number (unlisted: EMPTY); pendSeal and pendRelease: pending marks (R69), pane and issue number of the instruction. touched: panes of R563. eligible: completions waiting
to be sampled (R591). accesses: what waits for the scratchpad, octUsed: the cell cycle of an octant's last use by one of those (R102).
scrubLate: the first wall beat of a SCRUB late signal and the beats it lasts (R141); interval: the number of the last scrub interval
compared. scrubbed: POISONED panes that a scrubber poisoned (R571). parity: DETAIL and offset of a failing configuration word that the next instruction boundary makes a fault (R92). uncorr: a scrub
period and the words read uncorrectable in it (R559).
epoch and vcell: SR_EPOCH (R168), which hold 0 before the first commit loads them (DESIGN CHOICE, log 92). -/
structure Cell where
  state : CellState := .idle
  held : Bool := false
  suite : Option SuiteId := none
  startReady : Bool := false
  epoch : W32 := 0
  vcell : BitVec 12 := 0
  mem : Memory := []
  check : Memory := []
  tags : SMap Tag := []
  pendSeal : List (Nat × Nat) := []
  pendRelease : List (Nat × Nat) := []
  touched : List Nat := []
  zones : SMap Zone := []
  scrub : SMap Scrub := []
  scrubLate : Nat × Nat := (0, 0)
  interval : Nat := 0
  accesses : List SpadAccess := []
  octUsed : SMap Nat := []
  scrubbed : List Nat := []
  parity : Option (Nat × Nat) := none
  uncorr : Nat × List Nat := (0, [])
  seq : Seq := {}
  mat : Matrix := {}
  eng : Engines := {}
  trk : Tracks := {}
  que : Queues := {}
  cfg : Config := {}
  ctrs : Counters := {}
  obs : CellObs := {}
  fault : FaultRec := {}
  deriving DecidableEq, Repr

/-- Bay power state (Table 15.15). -/
inductive BayState where
  | off
  | asleep
  | on
  deriving DecidableEq, Repr

/-- One bay: BAY_ISO (Table 7.16), BAY_PWR (Table 15.15), its bay node (R377), counters (R576) and sampling (R591, R592). -/
structure Bay where
  owner : Option SuiteId := none
  violCount : BitVec 16 := 0
  viol : BitVec 4 := 0
  iso : BitVec 4 := 0
  isoReq : Option (BitVec 4) := none
  vcore : Byte := 0
  power : BayState := .off
  step : BitVec 2 := 0
  lock : Bool := false
  ramping : Bool := false
  limited : Bool := false
  up : List (CellId × HubItem) := []
  down : List (CellId × W256 × Option Nat) := []
  upFree : Nat := 0
  downFree : Nat := 0
  ctrs : Counters := {}
  countdown : Nat := 0
  eligible : List W256 := []
  samples : List W256 := []
  deriving DecidableEq, Repr

/-- State codes of a suite (Table 14.13a). -/
inductive SuiteState where
  | none
  | empty
  | loaded
  | running
  | stopped
  | faulted
  deriving DecidableEq, Repr

/-- A HBM window of a suite (Tables 13.7, 13.16): base is bits [47:24] of its address. -/
structure Window where
  host : Bool
  remoteRd : Bool
  remoteWr : Bool
  stepRing : Bool
  vport : Nat
  stack : Nat
  base : Nat
  extents : Nat
  deriving DecidableEq, Repr

/-- An entry of the section table (Table 13.9) with the feeder's start count (R292). -/
structure Section where
  next : Nat
  final : Bool
  recoverable : Bool
  d : Nat
  descFirst : Nat
  descCount : Nat
  starts : Nat
  deriving DecidableEq, Repr

/-- A restore table entry (Table 13.10). -/
structure Restore where
  vcell : Nat
  octant : Nat
  pane : Nat
  count : Nat
  window : Nat
  tile : Nat
  first : Nat
  last : Nat
  deriving DecidableEq, Repr

/-- An entry of the request table (Table 13.8). -/
structure Request where
  kind : Nat
  cls : Nat
  vport : Nat
  g : Nat
  vengine : Nat
  vctx : Nat
  n : Nat
  depth : Nat
  deriving DecidableEq, Repr

/-- The hold block's hold registers and ring (Tables 7.8–7.13) and the root's decision that waits for its boundary. occurrences: the
bounded causes met in the present window, and window its number (R282); sampled: one more than the wall beat of the last sample. -/
structure Hold where
  mgmtHold : Bool := false
  limit : BitVec 32 := 0x00010000
  held : Bool := false
  timeout : Bool := false
  overBudget : Bool := false
  causes : BitVec 8 := 0
  run : Nat := 0
  schedBeat : BitVec 32 := 0
  holds : BitVec 48 := 0
  beats : BitVec 48 := 0
  wraps : BitVec 32 := 0
  head : BitVec 6 := 0
  ring : SMap W256 := []
  sendHold : Bool := false
  sendRelease : Bool := false
  sendStart : Bool := false
  startTick : W64 := 0
  orCauses : BitVec 8 := 0
  origin : BitVec 4 := 0
  firstCell : BitVec 12 := 0
  occurrences : List Nat := []
  window : Nat := 0
  sampled : Nat := 0
  timedOut : Bool := false
  deriving DecidableEq, Repr

/-- SECT_STATUS (Table 8.4), the staged effects of the open section and the released items behind its writes (R318, R379); carried: by
cell, its items on their way to the hub that belong to closed sections. By injection cell: the groups of its row stream of section NEXT
that the spine has sent; rowReads: granules of a row stream that are read again, by their place: waiting, or
their bytes, or VOID (R329). -/
structure Feeder where
  phase : BitVec 2 := 0
  next : Nat := 0
  current : Nat := 0
  configured : Bool := false
  isOpen : Bool := false
  dried : Nat := 0
  staged : List (CellId × HubItem) := []
  released : List (CellId × HubItem) := []
  carried : SMap Nat := []
  rows : SMap Nat := []
  rowReads : SMap (Option (Option (List Byte))) := []
  deriving DecidableEq, Repr

/-- SUITE_FREQ (Table 15.16) and what protection, the cap duty and a withheld START ask of the root (R537, R538); overrideDue: protection
lowers TARGET at the next close. -/
structure Freq where
  overridden : Bool := false
  current : BitVec 2 := 0
  target : BitVec 2 := 3
  base : BitVec 2 := 3
  rfloor : BitVec 2 := 0
  ceiling : BitVec 2 := 3
  floor : BitVec 2 := 0
  protect : Bool := false
  protCause : Nat := 0
  overrideDue : Bool := false
  withheld : Bool := false
  deriving DecidableEq, Repr

/-- A unit that waits for its quick test (Table 16.6), with the sequence numbers of its record in the device error log and the error queue;
none: a cell that has faulted. -/
structure UnitTest where
  unit : UnitCheck
  record : Option (Nat × Nat)
  deriving DecidableEq, Repr

/-- RECOV_STATUS (Table 16.7a) and the recovery in progress: the fault that started it (cell, CAUSE, DETAIL, PC), or the unit check; the units
that wait for their quick tests, which other states of the suite hold too; the cells whose rows shift; the units that stay in service
unrepaired (R560); and its first report. -/
structure Recovery where
  active : Bool := false
  phase : BitVec 3 := 0
  count : BitVec 16 := 0
  relocate : Bool := false
  lastNs : BitVec 20 := 0
  fault : Option (Nat × Nat × Nat × Nat) := none
  unit : Option UnitCheck := none
  tests : List UnitTest := []
  shifted : List CellId := []
  stuck : List UnitCheck := []
  redo : Bool := false
  started : Nat := 0
  requested : Bool := false
  fatal : Bool := false
  job : Bool := false
  deriving DecidableEq, Repr

/-- A 32-byte record ring with its sequence count (R557, R638). -/
structure RecordRing where
  next : W32 := 0
  overwritten : W16 := 0
  records : List (Nat × W256) := []
  copied : Nat := 0
  deriving DecidableEq, Repr

/-- SUITE_OBS, SAMPLE_RING, SAMPLE_STATUS (Tables 17.10–17.12), and the records the hub holds (R593). -/
structure SuiteObs where
  ctrUser : Bool := false
  sampleEn : Bool := false
  n : BitVec 24 := 4096
  records : W32 := 0
  ringAddr : BitVec 48 := 0
  written : W32 := 0
  dropped : W16 := 0
  pendingRecs : List W256 := []
  deriving DecidableEq, Repr

/-- An output ring (Tables 11.13, 11.14) with its pass, and the records that wait for space (R421). told: an event says that ENABLE is 0 (R495). -/
structure OutRing where
  addr : BitVec 60 := 0
  enable : Bool := false
  head : W16 := 0
  tail : W16 := 0
  log2size : BitVec 5 := 4
  phase : Bool := false
  waiting : List W256 := []
  told : Bool := false
  deriving DecidableEq, Repr

/-- One slot of a built step (Table 11.4), with the entry that SEQIDX names. -/
structure Slot where
  kind : Nat
  sample : Bool
  entry : Nat
  position : Nat
  count : Nat
  pageFirst : Nat
  pages : Nat
  deriving DecidableEq, Repr

/-- A commit or void notice that the step builder has sent and that has not reached its receiver (R424, R425). -/
structure Notice where
  target : NoticeTarget
  commit : Bool
  beat : W32
  step : W32
  sect : W16
  deriving DecidableEq, Repr

/-- The step builder of a suite (Tables 11.7–11.12, R408–R426): built is the slots of each built step not yet committed; started and
closed: the step that runs, and the one that has closed and is not yet committed; stepStart and
stepAt: the tick and the moment of the last step start; stepLen: length of the last step, closedAt the moment of its close; recovered:
a recovery has ended since the step started. spoiled: a condition of R428 has failed in the step that runs; spoiledClosed: in the one that closed
last; startClosed, boundClosed: that step's start, the time in ns that R428
allows its records, and whether a recovery ended in it. -/
structure Builder where
  zones : Nat := 0
  xSlots : Nat := 0
  l : Nat := 0
  p : Nat := 0
  log2pt : Nat := 0
  b : Nat := 0
  nullPage : W32 := 0
  pageBudget : W32 := 0
  blockTiles : BitVec 16 := 0
  ringAddr : BitVec 48 := 0
  committed : W32 := 0
  building : Bool := false
  voided : W32 := 0
  padded : W32 := 0
  misses : BitVec 16 := 0
  latMax : BitVec 24 := 0
  latLast : BitVec 24 := 0
  rings : SMap OutRing := []
  stopSets : SMap W32 := []
  built : List (Nat × List Slot) := []
  started : Option Nat := none
  closed : Option Nat := none
  commitQ : List W256 := []
  stepStart : W64 := 0
  stepLen : Nat := 0
  noticeList : List Notice := []
  recovered : Bool := false
  spoiled : Bool := false
  spoiledClosed : Bool := false
  startClosed : W64 := 0
  boundClosed : Nat := 0
  recoveredClosed : Bool := false
  stepAt : Nat := 0
  closedAt : Nat := 0
  stepFirst : Nat := 0
  deriving DecidableEq, Repr

/-- The metering accumulators and period state of a suite (R613, R615, Table 18.12); tickEnd: the tick of the checkpoint that holds them; gen 0:
no suite. -/
structure Meter where
  cellBeats : W64 := 0
  hbmBytes : W64 := 0
  gaconBytes : W64 := 0
  tokens : W64 := 0
  energyMj : W64 := 0
  gen : W64 := 0
  created : Bool := false
  tickStart : W64 := 0
  tickEnd : W64 := 0
  wallStart : W64 := 0
  noLabel : Bool := false
  timeSets : W32 := 0
  oldLabel : W64 := 0
  newLabel : W64 := 0
  deriving DecidableEq, Repr

/-- One suite (Table 13.13): its state, image header and manifest, placement, windows, protected extents (port, offset, size in
extents), contexts (virtual engine, virtual context, physical), blocks, the stream engine of each bay row by its injection cell (R290), feeder, hold block, builder and meters.
positions: by port, its positions in the transmit pattern (R444, R488). -/
structure Suite where
  state : SuiteState := .none
  stopping : Bool := false
  ended : Bool := false
  header : List Byte := []
  manifest : List Byte := []
  origin : Nat := 0
  log2w : Nat := 0
  log2h : Nat := 0
  keySlot : Byte := 0
  svn : Byte := 0
  cls : Nat := 0
  serving : Bool := false
  remoteSpad : Bool := false
  windows : List Window := []
  requests : List Request := []
  protExts : List (Nat × Nat × Nat) := []
  contexts : List (Nat × Nat × StreamCtx) := []
  barBlocks : List Nat := []
  seqBlocks : List Nat := []
  sections : List Section := []
  descs : List (StreamCtx × BitVec 512) := []
  rowEngines : SMap Nat := []
  restores : List Restore := []
  hold : Hold := {}
  feeder : Feeder := {}
  freq : Freq := {}
  recov : Recovery := {}
  errq : RecordRing := {}
  obs : SuiteObs := {}
  sb : Builder := {}
  meter : Meter := {}
  savedMeter : Meter := {}
  wseq : SMap W32 := []
  positions : List (Nat × List Nat) := []
  deriving DecidableEq, Repr

/-- The decode result of one granule of a tile that was read (Table 9.3). -/
inductive GranuleState where
  | good
  | retry
  | void
  deriving DecidableEq, Repr

/-- Which tile read: its context, the number of its descriptor in the context, whether it is an index tile, and its number. -/
structure ReadId where
  ctx : StreamCtx
  serial : Nat
  index : Bool
  k : Nat
  deriving DecidableEq, Repr

/-- A tile read on its way to delivery (R326, R331, R462): the slot count at which it is in the return buffer, its data, and the
granules that wait or are VOID (unlisted: good). gone: the moment at which the beat of its last frame ends, once that frame is sent (R349). -/
structure TileRead where
  id : ReadId
  arrives : Nat
  inBuffer : Bool
  data : List Byte
  granules : SMap GranuleState
  gone : Option Nat
  deriving DecidableEq, Repr

/-- A transaction (R456): its header, the message or command bytes, the data, and the port it arrived on (none: this part's). -/
structure Txn where
  hdr : W256
  body : List Byte
  arrived : Option GPort
  suite : Option SuiteId
  deriving DecidableEq, Repr

/-- An item that a maintenance slot serves on one pseudo-channel (R338, R339), with the number of its granule in the stack. A
displaced granule of a remote WRITE names its item (R459). A correction write-back (seen: the 68 symbols that were read) is dropped if they have changed (R329). -/
inductive MaintItem where
  | displacedRead (granule : Nat) (id : ReadId)
  | displacedWrite (granule : Nat) (bytes : Option (List Byte)) (item : Option WriteItem)
  | reread (granule : Nat) (id : ReadId)
  | poison (granule : Nat) (scrub : Bool)
  | writeBack (granule : Nat) (bytes : List Byte) (seen : List Byte)
  | rfm
  | scrub (granule : Nat)
  | displacedFetch (granule : Nat) (serial : Nat)
  | rowReread (granule : Nat) (suite : Nat)
  deriving DecidableEq, Repr

/-- A remote READ of a tile of which a refresh displaced granules (R339): the RETURN leaves when the waiting ones have moved. -/
structure Fetch where
  serial : Nat
  port : Nat
  vc : Nat
  txn : Txn
  data : List Byte
  poison : W64
  waiting : List Nat
  deriving DecidableEq, Repr

/-- One memory port and its stack (R323–R342, Tables 9.5, 9.6, 9.10, 9.11). data by byte offset in the stack, check by
4 × granule + symbol. slots: suite and agent of the assigned entries; slotOff: of entries written with ASSIGNED 0; slotReqs: writes of entries that wait for a period (index,
value, period). Slots are counted from power-on: base is the count at the last reset, lastSlot the last slot whose work is done.
rfmTaken: slot and pseudo-channel of refresh commands that displace a granule; fetches: remote READs that wait for one, numbered. scrubbed: granules
that a scrub read filled with the poison pattern (R571). badBanks: pseudo-channel, bank and time of uncorrectable results (R569). -/
structure MemPort where
  data : Memory := []
  check : Memory := []
  slots : SMap (BitVec 5 × BitVec 7) := []
  slotOff : SMap (BitVec 5 × BitVec 7) := []
  slotReqs : List (Nat × W16 × Nat) := []
  base : Nat := 0
  lastSlot : Option Nat := none
  reads : List TileRead := []
  maint : SMap (List MaintItem) := []
  rfmTaken : List (Nat × Nat) := []
  fetches : List Fetch := []
  fetchSerial : Nat := 0
  scrubPos : Nat := 0
  scrubbed : List Nat := []
  corr : BitVec 16 := 0
  retry : Byte := 0
  uncorr : Byte := 0
  poisonRd : Byte := 0
  scrubUncorr : Byte := 0
  stackReport : Byte := 0
  rfmColl : Byte := 0
  eccValid : Bool := false
  eccAddr : BitVec 48 := 0
  selfRefresh : Bool := false
  retired : Bool := false
  badBanks : List (Nat × Nat × Nat) := []
  noNewPlacement : Bool := false
  deriving DecidableEq, Repr

/-- A write strip accepted by a context (R357, R358): tile number, row, bytes, the granules of it that carry VOID, and whether it
was accepted in a section that has closed (R379). -/
structure WStrip where
  tile : Nat
  row : Nat
  bytes : List Byte
  void : List Nat
  owed : Bool
  deriving DecidableEq, Repr

/-- One stream or Gacon context (R343–R363, Table 9.9). desc is the descriptor that reads or writes, the serial-th of the context;
rdTile: tiles read. dlvs: descriptors whose tiles are being delivered, oldest first; dlvTile, dlvStrip: the next strip of the first.
indices: index values received, idxTiles: index tiles read. taken: strips taken by a write descriptor; wrTile: tiles written;
dropped: strips (tile, row) that met a full buffer. frameBeat, frameWall: scheduled and wall beat of the last frame sent.
notices: schedule beats from which a notice adds 1 to PGEN (R354). -/
structure StreamState where
  queue : List (BitVec 512) := []
  active : Bool := false
  voided : Bool := false
  err : BitVec 4 := 0
  pgen : BitVec 4 := 0
  notices : List Nat := []
  missed : BitVec 12 := 0
  tiles : W32 := 0
  desc : BitVec 512 := 0
  serial : Nat := 0
  rdTile : Nat := 0
  dlvs : List (Nat × BitVec 512) := []
  dlvTile : Nat := 0
  dlvStrip : Nat := 0
  indices : List W32 := []
  idxTiles : Nat := 0
  taken : Nat := 0
  dropped : List (Nat × Nat) := []
  wcb : List WStrip := []
  wrTile : Nat := 0
  frameBeat : Nat := 0
  frameWall : Nat := 0
  deriving DecidableEq, Repr

/-- Gacon port states (Table 12.10). -/
inductive PortState where
  | down
  | detect
  | equalise
  | negotiate
  | align
  | up
  | failover
  | failed
  deriving DecidableEq, Repr

/-- A SWAP of one direction that waits for its codeword (R449): logical lane and spare. acked: whether both ends have agreed on it. -/
structure Swap where
  logical : Nat
  spare : Nat
  codeword : W64
  acked : Bool
  deriving DecidableEq, Repr

/-- A window of a suite at a port (R282, R448): its number, the replays in it, whether the window before went over, and the corrected symbols by
physical lane in it and in the one before. -/
structure ReplayWin where
  window : Nat := 0
  replays : Nat := 0
  excess : Bool := false
  syms : SMap Nat := []
  before : SMap Nat := []
  deriving DecidableEq, Repr

/-- The payload of a link flit that waits to be sent, with its FIRST and LAST (R456). -/
structure LinkPart where
  bytes : List Byte
  first : Bool
  last : Bool
  deriving DecidableEq, Repr

/-- A transaction being sent, with its link flits to go (R443). -/
structure Cut where
  txn : Txn
  parts : List LinkPart
  deriving DecidableEq, Repr

/-- A WRITE that its port has accepted and not yet decided: its number, and the strips or granules that are not decided (R459). -/
structure OpenWrite where
  txn : Txn
  write : Nat
  left : List Nat
  deriving DecidableEq, Repr

/-- One Gacon port: Tables 12.9–12.12 and the link layer of R432–R444. txq: transactions to send by virtual channel; cut: the
transaction being sent; sent: transactions whose last flit is not
acknowledged; rxFlits: payload being assembled; rxq: whole transactions; openW: the WRITE that is
accepted, with its strips or granules not yet decided (R459); writes: WRITEs accepted so far (MODEL). reads: the Gacon engine's return buffer (R462); asked: tiles whose READ has left. slow: lanes equalised only at the 100 Gb/s
class; wins: by suite (R282, R448); laneSyms: by physical lane, the millisecond and the corrected symbols in it (R448); rxMap, txMap: the
physical lane of each logical lane; rxSpares: the spares left (R432); rxSwap, txSwap: the lane switches under way; rxReplay: flits of the
partner's replay still to come, txReplay: whether this end's replay after a switch is still to come (Table 12.3). ackNo: the last SEQ received
in order; ackSeen: the last ACK received; ackAt, nakAt: when ACK last advanced and when the last NAK was sent. upAt: when
the port came UP, rxWord, txWord: the codeword numbers of the directions then. cap: the capability block sent in NEGOTIATE (R446). out (MODEL): the link flits sent. -/
structure GaconPort where
  feat : BitVec 5 := 0x1F
  rate100 : Bool := false
  lanes4 : Bool := false
  state : PortState := .down
  failReason : BitVec 4 := 0
  partnerPart : BitVec 6 := 0
  partnerG : BitVec 4 := 0
  version : Byte := 0
  features : BitVec 5 := 0
  stLanes4 : Bool := false
  stRate100 : Bool := false
  slow : Bool := false
  rxFailed : BitVec 10 := 0
  txFailed : BitVec 10 := 0
  replays : BitVec 16 := 0
  crcErr : BitVec 16 := 0
  fecCorr : BitVec 16 := 0
  fecUncorr : Byte := 0
  failovers : BitVec 4 := 0
  wins : SMap ReplayWin := []
  laneSyms : SMap (Nat × Nat) := []
  txPat : SMap (BitVec 3) := []
  txPos : Nat := 0
  nextSeq : BitVec 12 := 0
  expSeq : BitVec 12 := 0
  ackNo : BitVec 12 := 0
  ackSeen : BitVec 12 := 0
  replay : List (BitVec 12 × BitVec 2144) := []
  resend : List (BitVec 12 × BitVec 2144) := []
  control : List (BitVec 2144) := []
  nakOut : Bool := false
  nakAt : Nat := 0
  ackAt : Nat := 0
  credits : List Nat := []
  giveBack : List Nat := []
  txq : SMap (List Txn) := []
  cut : SMap Cut := []
  sent : List (BitVec 12 × Nat × Txn) := []
  rxFlits : SMap (List Byte) := []
  rxq : SMap (List Txn) := []
  openW : SMap OpenWrite := []
  writes : Nat := 0
  reads : List TileRead := []
  asked : List (ReadId × W32) := []
  rxMap : List Nat := []
  rxSpares : List Nat := []
  txMap : List Nat := []
  rxSwap : Option Swap := none
  txSwap : Option Swap := none
  rxReplay : Nat := 0
  txReplay : Bool := false
  upAt : Nat := 0
  rxWord : W64 := 0
  txWord : W64 := 0
  cap : Option CapBlock := none
  out : List (BitVec 2144) := []
  deriving DecidableEq, Repr

/-- One barrier (Tables 10.7–10.10). -/
structure Barrier where
  tag : W16 := 0
  remote : Bool := false
  autoRearm : Bool := false
  notifyCount : BitVec 3 := 0
  participants : BitVec 24 := 0
  armed : Bool := false
  error : Bool := false
  lateErr : Bool := false
  stale : Bool := false
  latched : BitVec 24 := 0
  gen : W16 := 0
  arrived : BitVec 24 := 0
  notify : List (BitVec 26) := []
  deriving DecidableEq, Repr

/-- STATE of a sequence entry (Table 11.1). -/
inductive SeqState where
  | free
  | queued
  | prefill
  | decode
  | retiring
  | done
  deriving DecidableEq, Repr

/-- One sequence-table entry (Table 11.1). -/
structure SeqEntry where
  hostTag : W64 := 0
  state : SeqState := .free
  cls : BitVec 2 := 0
  reason : BitVec 3 := 0
  outSlot : BitVec 4 := 0
  stopSet : W16 := 0
  position : W32 := 0
  maxLen : W32 := 0
  promptLen : W32 := 0
  promptAddr : BitVec 48 := 0
  kvBase : BitVec 48 := 0
  temp : W32 := 0
  topP : W32 := 0
  topK : BitVec 7 := 0
  seed : W64 := 0
  admitTick : W64 := 0
  generated : W32 := 0
  lastToken : W32 := 0
  lastStep : W32 := 0
  deriving DecidableEq, Repr

/-- A mailbox ring register with its pointer register (Tables 14.6, 14.7); phase: pass of a completion ring. -/
structure Ring where
  addr : BitVec 52 := 0
  enable : Bool := false
  log2size : BitVec 4 := 4
  err : Bool := false
  head : W16 := 0
  tail : W16 := 0
  phase : Bool := false
  deriving DecidableEq, Repr

/-- A PF session (R507, R508). -/
structure Session where
  version : W16
  gen : W32
  deriving DecidableEq, Repr

/-- A command entry that COMMAND_FETCH has taken (R503), by ticket; running: it has taken effect and waits for an event before
its completion; lost: its function was reset, so no completion is written (R494); version: that of its session, where the session has ended or
the command opens it. -/
structure Taken where
  ticket : Nat
  fn : HostFn
  opcode : W16
  noint : Bool
  cmdId : W16
  session : W16
  params : List Byte
  running : Bool
  lost : Bool
  version : Option W16 := none
  deriving DecidableEq, Repr

/-- An IMAGE_LOAD under way (R475, R486): its command, its suite, whether that was created for it (R510), header and manifest, and the content key
that was unwrapped. -/
structure LoadRun where
  ticket : Nat
  suite : Nat
  created : Bool
  header : List Byte
  manifest : List Byte
  cek : List Byte
  deriving DecidableEq, Repr

/-- A host access to HBM that waits for a slot (R498): function, BAR offset, local address, and the value of a write. -/
structure HostWait where
  fn : HostFn
  off : Nat
  addr : Nat
  value : Option W64
  deriving DecidableEq, Repr

/-- A lease (R611): its owner's session and generation while HELD. -/
structure Lease where
  held : Bool := false
  broken : Bool := false
  session : W16 := 0
  sessionGen : W32 := 0
  gen : W32 := 0
  deriving DecidableEq, Repr

/-- The mailbox: rings by 2 × function + (0 command, 1 completion), function 0 the PF and 1 + s the VF of suite s; sessions by
number; leases by 65536 × kind + index; apertures (Tables 14.3, 14.5b). -/
structure Mailbox where
  load : Option LoadRun := none
  waits : List HostWait := []
  rings : SMap Ring := []
  sessions : SMap Session := []
  sessionGen : W32 := 0
  taken : List Taken := []
  nextTicket : Nat := 0
  leases : SMap Lease := []
  apertures : SMap (BitVec 25) := []
  vfApertures : SMap (BitVec 2 × BitVec 12 × BitVec 13) := []
  deriving DecidableEq, Repr

/-- State codes of DEVICE_STATE (Table 14.12a); off is never read (R516). -/
inductive DeviceState where
  | off
  | maceration
  | safe
  | ready
  | active
  | draining
  deriving DecidableEq, Repr

/-- Supplies, resets and power (Tables 15.10, 15.12, 15.14): protects are the conditions of R538 that hold; vaonAt, vin12At, vin48At and
holdAt the moments at which a rail became good and holdover began; commonClock: the PCIe link runs on REFCLK, else SRIS (R623); lost12, lost48: the rail was lost and has not returned (R525). -/
structure Power where
  vaonGood : Bool := true
  vin12Good : Bool := false
  vin48Good : Bool := false
  vbatGood : Bool := false
  early12 : Bool := false
  early48 : Bool := false
  railFault : Bool := false
  tjMax : Byte := 0
  thermtrip : Bool := false
  protects : List ProtCause := []
  backup : Bool := false
  holdover : Bool := false
  p10 : W16 := 0
  peak : W16 := 0
  duty : BitVec 4 := 0
  cap : BitVec 12 := 3000
  warmCount : W16 := 0
  cause : Byte := 1
  perstLow : Bool := false
  linkUp : Bool := false
  vaonAt : Nat := 0
  vin12At : Nat := 0
  vin48At : Nat := 0
  holdAt : Nat := 0
  commonClock : Bool := false
  lost12 : Bool := false
  lost48 : Bool := false
  deriving DecidableEq, Repr

/-- MACER_STATUS (Table 15.13), with the moment at which step 1 began, what the maceration under way was asked for, and the retired bays that passed their retest (R548). -/
structure Macer where
  done : Bool := false
  failed : Bool := false
  cold : Bool := false
  failCode : Byte := 0
  failStep : BitVec 4 := 0
  step : BitVec 4 := 0
  startAt : Nat := 0
  retest : Bool := false
  passed : List BayId := []
  started : Bool := false
  deriving DecidableEq, Repr

/-- Fuses, repair log and boot record (R24–R27, R336, R548, R473). fuseShift, shift by 8 × bay + row (unlisted: 16). Spares of Table 1.6:
marks: units that failed at run time, a lane with its group (R548). steered: by bay, the groups of 8 border or die-to-die lanes whose spare is in
use (R41); hubSteered, phases: by bay, hub-link lanes steered to spares and regulator phases lost (Table 16.7); rowsUsed: by subarray, spare rows in
use (R100). idleSpads: by bay row, the contents of the physical scratchpad that no logical cell uses (R26). -/
structure Repair where
  fuseGood : BitVec 32 := 0xFFFFFFFF
  good : BitVec 32 := 0xFFFFFFFF
  fuseShift : SMap (BitVec 5) := []
  shift : SMap (BitVec 5) := []
  marks : List (UnitCheck × Nat) := []
  retiredBays : List BayId := []
  bootSplit : BitVec 2 := 0
  split : BitVec 2 := 0
  suspects : List (UnitRef × Nat) := []
  quarantine : List UnitRef := []
  steered : SMap (List Nat) := []
  hubSteered : SMap Nat := []
  phases : SMap Nat := []
  rowsUsed : SMap Nat := []
  idleSpads : SMap (Memory × Memory) := []
  deriving DecidableEq, Repr

/-- One signer slot (R473). -/
structure Signer where
  digest : List Byte := []
  valid : Bool := false
  revoked : Bool := false
  svnFloor : Byte := 0
  deriving DecidableEq, Repr

/-- Keys and signers (R472, R473, Table 13.4). No agent reads a key; the security engine's functions take them. -/
structure Keys where
  fk : SMap (List Byte) := []
  fkRevoked : BitVec 4 := 0
  bbk0 : Option (List Byte) := none
  bbk1 : Option (List Byte) := none
  duk : List Byte := []
  signers : SMap Signer := []
  deriving DecidableEq, Repr

/-- One copy of the boot pointer (R607). -/
structure BootPtr where
  seqNo : W32 := 0
  slot : Bool := false
  trial : Bool := false
  trialsLeft : BitVec 2 := 0
  ok : Bool := false
  deriving DecidableEq, Repr

/-- Firmware slots, boot pointer and FW_STATUS (R606–R610, Table 18.9). shipped: the physical slot that still holds the firmware the part
came with, whose bytes the spec does not give and which passes the check of R606 (DESIGN CHOICE, log 6). -/
structure Firmware where
  slot0 : Memory := []
  slot1 : Memory := []
  shipped : Option Bool := some false
  ptr0 : BootPtr := { ok := true }
  ptr1 : BootPtr := {}
  bState : BitVec 2 := 0
  svnMin : Byte := 0
  svnB : Byte := 0
  svnCur : Byte := 0
  reverted : Bool := false
  running : Bool := false
  fwKeyDigest : List Byte := []
  deriving DecidableEq, Repr

/-- Management cores, alerts, presence and debug (Tables 18.1, 18.2, 18.4, 18.5), and the moments of the last heartbeat and checkpoint (R595,
R596). failedCore: the core that is not active is held in reset. loopOpen: the seal loop is open (R602). -/
structure Mgmt where
  ckptGen : W32 := 0
  takeovers : W16 := 0
  takeover : Bool := false
  standbyOk : Bool := false
  active : Bool := false
  heartbeatAt : Nat := 0
  ckptAt : Nat := 0
  failedCore : Bool := false
  alertMask : Byte := 0
  alert : Byte := 0
  sealClosed : Bool := false
  sealOpened : Bool := false
  loopOpen : Bool := false
  unlockUart : Bool := false
  unlockJtag : Bool := false
  present : Bool := false
  challenge : W64 := 0
  deriving DecidableEq, Repr

/-- Metering (R613–R618, Table 18.13) and the wall-clock mapping. Ring records by SEQ; ckptAt: the moment of the last checkpoint (R615). -/
structure Metering where
  nextSeq : W64 := 0
  keySlot : BitVec 2 := 0
  pendingPeriod : W16 := 60
  period : BitVec 12 := 60
  ring : SMap (List Byte) := []
  label : Option (W64 × W64) := none
  suiteGen : W64 := 0
  ckptAt : Nat := 0
  deriving DecidableEq, Repr

/-- A stored Veret image (R474), by store index. -/
abbrev Store := SMap (List Byte)

/-- A DMA write that the device made: function, host address, bytes (MODEL: an output). -/
structure DmaWrite where
  fn : HostFn
  addr : Nat
  bytes : List Byte
  deriving DecidableEq, Repr

/-- A device DMA read of host memory, at most 4,096 bytes (R490, R492). -/
structure DmaRead where
  fn : HostFn
  addr : Nat
  len : Nat
  deriving DecidableEq, Repr

/-- A vector of an MSI-X table, laid out as PCI Express lays it out (Tables 14.2, 14.4; PRESUMED, log 101): message address and data, mask bit, and its
bit of the PBA. -/
structure MsixVector where
  addr : W64 := 0
  data : W32 := 0
  masked : Bool := true
  pending : Bool := false
  deriving DecidableEq, Repr

/-- The PCIe port (R489–R491): speed code of the link (1 to 6: 2.5 to 64 GT/s; 0 not trained), its width and FLIT mode; the VFs that the host has
enabled (log 101); the MSI-X vectors that are not at reset, by 8 × function + vector. -/
structure Pcie where
  speed : Nat := 0
  width : Nat := 0
  flitMode : Bool := false
  vfs : Nat := 32
  vectors : SMap MsixVector := []
  deriving DecidableEq, Repr

/-- What the device has put out (MODEL): the value of the last register or memory read, DMA writes and reads, MSI-X messages, and the
sideband's last answer; oldest first. -/
structure Output where
  readData : W64 := 0
  dma : List DmaWrite := []
  reads : List DmaRead := []
  msix : List (HostFn × Nat) := []
  sideband : W64 := 0
  deriving DecidableEq, Repr

/-- The state of the M4 as a block. drainMode, drainAt: the MODE of a drain under way (0 none) and the moment it began. now (MODEL): quanta of 1/15 ns since VAON became good. free (MODEL): how many free values
have been used (Config.freeValue). pending (MODEL): commands waiting, first in, first out. -/
structure State where
  now : Nat := 0
  tick : W64 := 0
  free : Nat := 0
  pending : List Instr := []
  devState : DeviceState := .maceration
  quiesced : Bool := false
  drainMode : Nat := 0
  drainAt : Nat := 0
  pcie : Pcie := {}
  grade : Byte := 32
  uid : BitVec 128 := 0
  domainValid : Bool := false
  part : BitVec 6 := 0
  routes : SMap (Bool × BitVec 4) := []
  power : Power := {}
  macer : Macer := {}
  repair : Repair := {}
  keys : Keys := {}
  fw : Firmware := {}
  mgmt : Mgmt := {}
  metering : Metering := {}
  store : Store := []
  mbox : Mailbox := {}
  devLog : RecordRing := {}
  errLog : RecordRing := {}
  devCtrs : Counters := {}
  cells : SMap Cell := []
  bays : SMap Bay := []
  suites : SMap Suite := []
  ports : SMap MemPort := []
  streams : SMap StreamState := []
  gacon : SMap GaconPort := []
  barriers : SMap Barrier := []
  seqs : SMap SeqEntry := []
  out : Output := {}
  deriving DecidableEq, Repr

/-- The faults of the model: why a command stops the block. -/
inductive Fault where
  /-- Raised by a register access whose BAR offset lies outside the BAR of its function (R496, R499): no agent can make
  such an access. Safe: the model stops where the hardware sees nothing. -/
  | outsideBar
  deriving DecidableEq, Repr

/-- The refusals of the model. -/
inductive Refusal where
  /-- Raised by exec for a command that has no meaning in the model yet. Safe. -/
  | notModelled (mnemonic : String)
  deriving DecidableEq, Repr

/-- The machine right after power-on reset (R13): VAON has just become good, DEVICE_STATE is MACERATION, and every register
holds its reset value; the fields are at their defaults above. Fuses, which the spec leaves to the part, are those of an
EVM4-32 with every bay good (DESIGN CHOICE, log 6). -/
def State.reset : State := {}

end Sys2Proof.Machine
end

