-- ==== Sys2Proof/Machine/Bits.lean ====
section
/-!
DEFINITION. The plain helpers every family uses: sparse collections, canonical byte memories, bit fields, byte order (R9),
saturating counters, and the numbers that derive from a cell index (R16–R31).
-/

namespace Sys2Proof.Machine

/-- The value of index k; d where k is not listed. -/
def sget {V : Type} (d : V) : SMap V → Nat → V
  | [], _ => d
  | (i, v) :: r, k => if i = k then v else sget d r k

/-- The collection with index k set to v, kept in rising order. -/
def sset {V : Type} : SMap V → Nat → V → SMap V
  | [], k, v => [(k, v)]
  | (i, w) :: r, k, v =>
    if k < i then (k, v) :: (i, w) :: r
    else if i = k then (k, v) :: r
    else (i, w) :: sset r k v

/-- The collection without index k. -/
def sdel {V : Type} (m : SMap V) (k : Nat) : SMap V := m.filter (fun e => e.1 != k)

/-- Whether the indices rise strictly. -/
def sorted {V : Type} : SMap V → Bool
  | [] => true
  | [_] => true
  | (i, _) :: (j, w) :: r => decide (i < j) && sorted ((j, w) :: r)

/-- Update of one index through a function; d where k is not listed. -/
def supd {V : Type} (d : V) (m : SMap V) (k : Nat) (f : V → V) : SMap V := sset m k (f (sget d m k))

/-- Memory.wf: the canonical form of a byte memory (addresses strictly rising, no listed 0). -/
def Memory.wf (m : Memory) : Bool := sorted m && m.all (fun e => e.2 != 0)

/-- The byte at address a. -/
def mread (m : Memory) (a : Nat) : Byte := sget 0 m a

/-- The memory with byte v at address a: a 0 leaves the address unlisted. -/
def mwrite : Memory → Nat → Byte → Memory
  | [], a, v => if v = 0 then [] else [(a, v)]
  | (i, w) :: r, a, v =>
    if a < i then (if v = 0 then (i, w) :: r else (a, v) :: (i, w) :: r)
    else if i = a then (if v = 0 then r else (a, v) :: r)
    else (i, w) :: mwrite r a v

/-- n bytes from address a, in address order. -/
def mreadN (m : Memory) (a : Nat) : Nat → List Byte
  | 0 => []
  | n + 1 => mread m a :: mreadN m (a + 1) n

/-- The bytes of a list written from address a on. -/
def mwriteN (m : Memory) (a : Nat) : List Byte → Memory
  | [] => m
  | b :: r => mwriteN (mwrite m a b) (a + 1) r

/-- The addresses from lo to hi − 1 set to 0. -/
def mclear (m : Memory) (lo hi : Nat) : Memory := m.filter (fun e => decide (e.1 < lo) || decide (hi ≤ e.1))

/-- Bits [lo + n − 1 : lo] of a number. -/
def nbits (x lo n : Nat) : Nat := x / 2 ^ lo % 2 ^ n

/-- Bit i of a number. -/
def nbit (x i : Nat) : Bool := x / 2 ^ i % 2 == 1

/-- Bits [lo + n − 1 : lo] of a word. -/
def fld {w : Nat} (x : BitVec w) (lo n : Nat) : BitVec n := x.extractLsb' lo n

/-- A field placed at bit lo of a 64-bit register. -/
def at64 {n : Nat} (v : BitVec n) (lo : Nat) : W64 := v.setWidth 64 <<< lo

/-- A one-bit field placed at bit i of a 64-bit register. -/
def flag64 (b : Bool) (i : Nat) : W64 := if b then 1#64 <<< i else 0

/-- 1 or 0. -/
def b2n (b : Bool) : Nat := if b then 1 else 0

/-- The number of a little-endian byte string (R9). -/
def leNat : List Byte → Nat
  | [] => 0
  | b :: r => b.toNat + 256 * leNat r

/-- The n lowest bytes of a number, little-endian (R9). -/
def leBytes : Nat → Nat → List Byte
  | 0, _ => []
  | n + 1, x => BitVec.ofNat 8 x :: leBytes n (x / 256)

/-- n bytes of a list from position i on, missing bytes 0. -/
def slice (l : List Byte) (i n : Nat) : List Byte :=
  let s := (l.drop i).take n
  s ++ List.replicate (n - s.length) 0

/-- The little-endian number of n bytes from position i on. -/
def leAt (l : List Byte) (i n : Nat) : Nat := leNat (slice l i n)

/-- Addition of k that stops at the largest value of the field. -/
def satAdd {w : Nat} (x : BitVec w) (k : Nat) : BitVec w := BitVec.ofNat w (min (2 ^ w - 1) (x.toNat + k))

/-- The value of a number as a w-bit two's complement word. -/
def signedNat (w x : Nat) : Int := (BitVec.ofNat w x).toInt

/-- Ceiling of a quotient. -/
def cdiv (a b : Nat) : Nat := (a + b - 1) / b

/-- Number of bits of a number (R172). -/
def bitlen (x : Nat) : Nat := if x = 0 then 0 else Nat.log2 x + 1

/-- Element i of a list, d past its end. -/
def nth {V : Type} (l : List V) (i : Nat) (d : V) : V := l.getD i d

/-- The list without its element at index i. -/
def dropAt {V : Type} (l : List V) (i : Nat) : List V := l.take i ++ l.drop (i + 1)

/-- The first value for which a function answers, over 0 to n − 1. -/
def findBelow (n : Nat) (p : Nat → Bool) : Option Nat := (List.range n).find? p

/-- X, Y of a cell index (R18). -/
def cellX (c : Nat) : Nat := c % 64
def cellY (c : Nat) : Nat := c / 64
/-- The bay of a cell (R19). -/
def cellBay (c : Nat) : Nat := (cellY c / 8) * 4 + cellX c / 16
/-- The die of a cell (R17) and of a bay (R20). -/
def cellDie (c : Nat) : Nat := 2 * (cellY c / 32) + cellX c / 32
def bayDie (b : Nat) : Nat := 2 * (b / 16) + (b % 4) / 2
/-- In-bay column lx and row of a cell. -/
def cellLx (c : Nat) : Nat := cellX c % 16
def cellRow (c : Nat) : Nat := cellY c % 8
/-- The injection and collection cells of a cell's bay row (R30). -/
def injection (c : Nat) : Nat := c - cellLx c
def collection (c : Nat) : Nat := c - cellLx c + 15
/-- The logical cell index of (X, Y). -/
def cellAt (x y : Nat) : Nat := y * 64 + x
/-- The cells of a bay in increasing index. -/
def bayCells (b : Nat) : List Nat :=
  (List.range 8).flatMap (fun r => (List.range 16).map (fun i => cellAt (16 * (b % 4) + i) (8 * (b / 4) + r)))
/-- The neighbour of a cell at a port (0 N, 1 E, 2 S, 3 W), none at the edge of the grid. -/
def neighbour (c port : Nat) : Option Nat :=
  if port = 0 then (if cellY c = 0 then none else some (c - 64))
  else if port = 1 then (if cellX c = 63 then none else some (c + 1))
  else if port = 2 then (if cellY c = 63 then none else some (c + 64))
  else if port = 3 then (if cellX c = 0 then none else some (c - 1))
  else none
/-- The port that faces a port. -/
def facing (port : Nat) : Nat := (port + 2) % 4
/-- Physical column of a logical in-bay column under shift position f (R24). -/
def physColumn (f lx : Nat) : Nat := if lx < f then lx else lx + 1
/-- Physical columns and rows of the grid (R23): 17 for each of the 4 bay columns, of which Y is not changed; 4,352 cells. -/
def physColumns : Nat := 17 * 4
def physRows : Nat := 64
def physCells : Nat := physColumns * physRows
/-- Physical coordinates PX and PY of a logical cell whose bay row has shift position f (R23, R24). -/
def physX (f c : Nat) : Nat := 17 * (cellX c / 16) + physColumn f (cellLx c)
def physY (c : Nat) : Nat := cellY c
/-- The in-bay physical column that no logical cell of a row uses: the vacated one, or the spare (R25). -/
def idleColumn (f : Nat) : Nat := if f < 16 then f else 16
/-- The memory ports of a die (R15). -/
def diePorts (d : Nat) : List Nat := [3 * d, 3 * d + 1, 3 * d + 2]

end Sys2Proof.Machine
end

