-- ==== Sys2Proof/Machine/Codes.lean ====
section
/-!
DEFINITION. The codes and generators of the spec: SEC-DED of a scratchpad word (R135, R136), Reed–Solomon of an HBM granule
(R327, R328), CRC-32 (R300), CRC-32C (R435), even parity (R46) and Philox-4×32 (R168).
-/

namespace Sys2Proof.Machine

/-- The code position of data bit i (Table 3.7). -/
def codePos (i : Nat) : Nat :=
  if i = 0 then 3 else if i ≤ 3 then i + 4 else if i ≤ 10 then i + 5 else if i ≤ 25 then i + 6 else i + 7

/-- Even parity of the n low bits of a number. -/
def parityOf (n x : Nat) : Bool := (List.range n).foldl (fun p i => xor p (nbit x i)) false

/-- C0–C5 of a data word: Ci is the XOR of the data bits whose code position has bit i set (R135). -/
def secBits (d : Nat) : Nat :=
  (List.range 32).foldl (fun acc i => if nbit d i then acc ^^^ codePos i else acc) 0

/-- The 7 check bits of a data word, C0–C6 from bit 0 on (R135). -/
def checkOf (d : W32) : Byte :=
  let c := secBits d.toNat
  let p := xor (parityOf 32 d.toNat) (parityOf 6 c)
  BitVec.ofNat 8 (c + 64 * b2n p)

/-- What a decoded word is (Table 3.8). -/
inductive Decoded where
  | good (d : W32)
  | corrected (d : W32)
  | uncorrectable
  deriving DecidableEq, Repr

/-- Data bit with code position s, none when s is a check position. -/
def bitAt (s : Nat) : Option Nat := findBelow 32 (fun i => codePos i == s)

/-- Decoding of a stored word and its check bits (R136, Table 3.8). -/
def decodeWord (d : W32) (chk : Byte) : Decoded :=
  let s := secBits d.toNat ^^^ (chk.toNat % 64)
  let p := xor (parityOf 32 d.toNat) (parityOf 7 chk.toNat)
  if p then
    if s = 0 then .corrected d
    else if s ≤ 38 then
      (match bitAt s with
       | some i => .corrected (d ^^^ BitVec.ofNat 32 (2 ^ i))
       | none => .corrected d)
    else .uncorrectable
  else if s = 0 then .good d else .uncorrectable

/-- Multiplication by α in GF(2^8) with x^8 + x^4 + x^3 + x^2 + 1 (R327). -/
def gfDouble (x : Nat) : Nat := if x < 128 then 2 * x else (2 * x - 256) ^^^ 29

/-- Multiplication in GF(2^8). -/
def gfMul (x y : Nat) : Nat :=
  (List.range 8).foldl (fun acc i => gfDouble acc ^^^ (if nbit y (7 - i) then x else 0)) 0

/-- α^n. -/
def gfPow : Nat → Nat
  | 0 => 1
  | n + 1 => gfDouble (gfPow n)

/-- Syndrome of the 68 symbols of a granule at α^j: data symbol i stands at degree 67 − i and check symbol i at degree 3 − i
(DESIGN CHOICE, log 3: the spec does not order the symbols). -/
def rsSyndrome (j : Nat) (symbols : List Byte) : Nat :=
  symbols.foldl (fun acc b => gfMul acc (gfPow j) ^^^ b.toNat) 0

/-- The generator polynomial's coefficients below x^4: the product of (x + α^j) for j = 0 to 3 (R327). -/
def rsGen : List Nat :=
  (List.range 4).foldl (fun g j =>
    (List.range (g.length + 1)).map (fun i => (if i = 0 then 0 else nth g (i - 1) 0) ^^^ gfMul (gfPow j) (nth g i 0))) [1]

/-- The four check symbols of 64 data symbols: the remainder of division by the generator. -/
def rsCheck (data : List Byte) : List Byte :=
  if data.all (· == 0) then [0, 0, 0, 0] else
  let r := data.foldl (fun r b =>
    let f := b.toNat ^^^ nth r 0 0
    (List.range 4).map (fun i => nth r (i + 1) 0 ^^^ gfMul f (nth rsGen (3 - i) 0))) [0, 0, 0, 0]
  r.map (BitVec.ofNat 8)

/-- The poison pattern's check symbols (R328). -/
def poisonCheck : List Byte := [0x5A, 0xA5, 0x5A, 0xA5]

/-- What decoding a granule gives (Table 9.3). -/
inductive RsResult where
  | good (d : List Byte)
  | corrected (d : List Byte)
  | uncorrectable
  | poison
  deriving DecidableEq, Repr

/-- Decoding of a granule's 64 data and 4 check symbols (R327–R329). All zeros is a codeword. -/
def rsDecode (data chk : List Byte) : RsResult :=
  if data.all (· == 0) && chk == poisonCheck then .poison else
  if data.all (· == 0) && chk.all (· == 0) then .good data else
  let all := data ++ chk
  let s0 := rsSyndrome 0 all
  let s1 := rsSyndrome 1 all
  let s2 := rsSyndrome 2 all
  let s3 := rsSyndrome 3 all
  if s0 = 0 ∧ s1 = 0 ∧ s2 = 0 ∧ s3 = 0 then .good data else
  match findBelow 68 (fun e => s0 != 0 && gfMul s0 (gfPow e) == s1 && gfMul s1 (gfPow e) == s2 && gfMul s2 (gfPow e) == s3) with
  | some e =>
    let i := 67 - e
    .corrected (if i < 64 then data.set i (BitVec.ofNat 8 ((nth data i 0).toNat ^^^ s0)) else data)
  | none => .uncorrectable

/-- One reflected CRC-32 step over a byte with a reflected polynomial. -/
def crcByte (poly : Nat) (crc : Nat) (b : Byte) : Nat :=
  (List.range 8).foldl (fun c _ => if c % 2 = 1 then (c / 2) ^^^ poly else c / 2) (crc ^^^ b.toNat)

/-- CRC state after some bytes. -/
def crcRun (poly : Nat) (crc : Nat) (bs : List Byte) : Nat := bs.foldl (crcByte poly) crc

/-- CRC-32 with the IEEE 802.3 polynomial (R300), all ones at the start and inverted at the end (PRESUMED, log 4). -/
def crc32 (bs : List Byte) : W32 := BitVec.ofNat 32 (crcRun 0xEDB88320 0xFFFFFFFF bs ^^^ 0xFFFFFFFF)

/-- CRC-32C with the Castagnoli polynomial 0x1EDC6F41, reflected 0x82F63B78 (R435; PRESUMED form, log 4). -/
def crc32c (bs : List Byte) : W32 := BitVec.ofNat 32 (crcRun 0x82F63B78 0xFFFFFFFF bs ^^^ 0xFFFFFFFF)

/-- One round of Philox-4×32 (PRESUMED multipliers, log 5). -/
def philoxRound (c : List Nat) (k0 k1 : Nat) : List Nat :=
  let p0 := 0xD2511F53 * nth c 0 0
  let p1 := 0xCD9E8D57 * nth c 2 0
  [(p1 / 2 ^ 32) ^^^ nth c 1 0 ^^^ k0, p1 % 2 ^ 32, (p0 / 2 ^ 32) ^^^ nth c 3 0 ^^^ k1, p0 % 2 ^ 32]

/-- n rounds, the key words stepping by the Weyl constants (PRESUMED, log 5). -/
def philoxRounds : Nat → List Nat → Nat → Nat → List Nat
  | 0, c, _, _ => c
  | n + 1, c, k0, k1 => philoxRounds n (philoxRound c k0 k1) ((k0 + 0x9E3779B9) % 2 ^ 32) ((k1 + 0xBB67AE85) % 2 ^ 32)

/-- Word i of the output of Philox-4×32 with 10 rounds (R168). -/
def philox (c0 c1 c2 c3 k0 k1 i : Nat) : Nat := nth (philoxRounds 10 [c0, c1, c2, c3] k0 k1) i 0

end Sys2Proof.Machine
end

