-- ==== Sys2Proof/Machine/Formats.lean ====
section
/-!
DEFINITION. Number formats and exact arithmetic (04_number_formats.md): decoding and encoding of every format, the three
roundings (R159, R167), overflow (R160), exact sums and products, comparison (R163, R164), conversions (R165), the E6M2 scale
(R146), the block quantiser (R152), EXT40 (R170–R175), the slicer (R177–R180), TWOSUM (R185, R186) and the functions (R237).
A finite value is m × 2^e, so every exact result of the spec is one.
-/

namespace Sys2Proof.Machine

/-- Format codes of Table 6.1. -/
abbrev Fmt := Nat

/-- Width in bits of an element (Table 6.1). -/
def fmtWidth (f : Fmt) : Nat :=
  if f = 0 ∨ f = 8 then 32 else if f = 1 ∨ f = 2 ∨ f = 7 then 16 else if f = 5 ∨ f = 10 then 4 else 8

/-- FP32, BF16 or binary16 (R227, "float"). -/
def isFloat (f : Fmt) : Bool := f ≤ 2
/-- INT8, INT16 or INT32 (R227, "int"). -/
def isInt (f : Fmt) : Bool := 6 ≤ f && f ≤ 8
/-- Any floating-point format of Table 4.2. -/
def isFP (f : Fmt) : Bool := f ≤ 4

/-- A value: NaN, an infinity, or m × 2^e. -/
inductive FVal where
  | nan
  | inf (neg : Bool)
  | fin (m : Int) (e : Int)
  deriving DecidableEq, Repr

/-- Exponent bits, fraction bits and bias (Table 4.2). -/
def fpShape (f : Fmt) : Nat × Nat × Nat :=
  if f = 0 then (8, 23, 127) else if f = 1 then (8, 7, 127) else if f = 2 then (5, 10, 15)
  else if f = 3 then (4, 3, 7) else (5, 2, 15)

/-- The magnitude code of the largest finite value (Table 4.2). -/
def fpMax (f : Fmt) : Nat :=
  if f = 0 then 0x7F7FFFFF else if f = 1 then 0x7F7F else if f = 2 then 0x7BFF else if f = 3 then 0x7E else 0x7B

/-- The canonical NaN (Table 4.2, R161). -/
def fpNaN (f : Fmt) : Nat :=
  if f = 0 then 0x7FC00000 else if f = 1 then 0x7FC0 else if f = 2 then 0x7E00 else if f = 3 then 0x7F else 0x7E

/-- The magnitude code of infinity; E4M3 has none (Table 4.2). -/
def fpInf (f : Fmt) : Option Nat :=
  if f = 0 then some 0x7F800000 else if f = 1 then some 0x7F80 else if f = 2 then some 0x7C00
  else if f = 3 then none else some 0x7C

/-- The value of an encoding of a floating-point or integer format (R142–R145). -/
def decodeVal (f : Fmt) (b : Nat) : FVal :=
  if isFP f then
    let (eb, fb, bias) := fpShape f
    let ex := b / 2 ^ fb % 2 ^ eb
    let fr := b % 2 ^ fb
    let neg := nbit b (eb + fb)
    let sgn : Int → Int := fun m => if neg then -m else m
    if f = 3 then
      if ex = 15 ∧ fr = 7 then .nan
      else if ex = 0 then .fin (sgn fr) (1 - (bias : Int) - fb) else .fin (sgn (2 ^ fb + fr : Nat)) ((ex : Int) - bias - fb)
    else if ex = 2 ^ eb - 1 then (if fr = 0 then .inf neg else .nan)
    else if ex = 0 then .fin (sgn fr) (1 - (bias : Int) - fb)
    else .fin (sgn (2 ^ fb + fr : Nat)) ((ex : Int) - bias - fb)
  else .fin (signedNat (fmtWidth f) b) 0

/-- Whether a magnitude with remainder r of 2^sh (more below it when sticky) is rounded up (R159, R167): q is the truncated
magnitude, u bits [31:8] of the element's draw. -/
def roundsUp (rm u q r sh : Nat) (sticky : Bool) : Bool :=
  if rm = 0 then
    (if 2 * r > 2 ^ sh then true else if 2 * r = 2 ^ sh then sticky || q % 2 == 1 else false)
  else if rm = 1 then false
  else decide (u < r * 2 ^ 24 / 2 ^ sh)

/-- The encoding in a floating-point format of the value ±(m + δ) × 2^e, δ in (0, 1) when sticky, else 0, rounded once
(R158–R162). -/
def roundFP (f : Fmt) (rm u : Nat) (neg : Bool) (m : Nat) (e : Int) (sticky : Bool) : Nat :=
  if m = 0 ∧ !sticky then 0 else
  let (eb, fb, bias) := fpShape f
  let ulpMin : Int := 1 - (bias : Int) - fb
  let top : Int := e + (bitlen m : Int) - 1
  let ulp : Int := max (top - fb) ulpMin
  let low : Int := min e (ulp - 30)
  let m' := m * 2 ^ (e - low).toNat
  let sh := (ulp - low).toNat
  let q := m' / 2 ^ sh
  let r := m' % 2 ^ sh
  let q := if roundsUp rm u q r sh sticky then q + 1 else q
  let code := (ulp - ulpMin).toNat * 2 ^ fb + q
  let code := if code > fpMax f then (if rm = 1 then fpMax f else (fpInf f).getD (fpMax f)) else code
  if code = 0 then 0 else if neg then code + 2 ^ (eb + fb) else code

/-- Rounding of m × 2^e to an integer (R165). -/
def roundInt (rm u : Nat) (m e : Int) : Int :=
  if 0 ≤ e then m * 2 ^ e.toNat else
  let sh := (-e).toNat
  let a := m.natAbs
  let q := a / 2 ^ sh
  let q := if roundsUp rm u q (a % 2 ^ sh) sh false then q + 1 else q
  if m < 0 then -(q : Int) else q

/-- Saturation to a signed width (R160). -/
def satInt (w : Nat) (x : Int) : Int := max (-(2 ^ (w - 1))) (min (2 ^ (w - 1) - 1) x)

/-- The encoding of an integer in w bits. -/
def encInt (w : Nat) (x : Int) : Nat := (BitVec.ofInt w x).toNat

/-- The encoding of a value in a format, rounded or saturated once (R160–R162, R165). -/
def encodeVal (f : Fmt) (rm u : Nat) (v : FVal) : Nat :=
  if isFP f then
    match v with
    | .nan => fpNaN f
    | .inf neg =>
      let (eb, fb, _) := fpShape f
      let c := if rm = 1 ∧ fpInf f = none then fpMax f else (fpInf f).getD (fpMax f)
      if neg then c + 2 ^ (eb + fb) else c
    | .fin m e => roundFP f rm u (decide (m < 0)) m.natAbs e false
  else
    let w := fmtWidth f
    match v with
    | .nan => 0
    | .inf neg => encInt w (if neg then -(2 ^ (w - 1)) else 2 ^ (w - 1) - 1)
    | .fin m e => encInt w (satInt w (roundInt rm u m e))

/-- Exact sum of two finite values. -/
def finAdd (m e m' e' : Int) : FVal :=
  let l := min e e'
  .fin (m * 2 ^ (e - l).toNat + m' * 2 ^ (e' - l).toNat) l

/-- Exact sum; the sum of opposite infinities is NaN. -/
def fAdd : FVal → FVal → FVal
  | .nan, _ => .nan
  | _, .nan => .nan
  | .inf a, .inf b => if a = b then .inf a else .nan
  | .inf a, .fin _ _ => .inf a
  | .fin _ _, .inf b => .inf b
  | .fin m e, .fin m' e' => finAdd m e m' e'

/-- Negation. -/
def fNeg : FVal → FVal
  | .nan => .nan
  | .inf a => .inf (!a)
  | .fin m e => .fin (-m) e

/-- Absolute value. -/
def fAbs : FVal → FVal
  | .nan => .nan
  | .inf _ => .inf false
  | .fin m e => .fin m.natAbs e

/-- Whether a value is below zero. -/
def fIsNeg : FVal → Bool
  | .nan => false
  | .inf a => a
  | .fin m _ => decide (m < 0)

/-- Exact product; zero times infinity is NaN. -/
def fMul : FVal → FVal → FVal
  | .nan, _ => .nan
  | _, .nan => .nan
  | .fin m e, .fin m' e' => .fin (m * m') (e + e')
  | .fin m _, .inf b => if m = 0 then .nan else .inf (xor (decide (m < 0)) b)
  | .inf a, .fin m _ => if m = 0 then .nan else .inf (xor a (decide (m < 0)))
  | .inf a, .inf b => .inf (xor a b)

/-- a < b; false with a NaN (R163). -/
def fLt : FVal → FVal → Bool
  | .nan, _ => false
  | _, .nan => false
  | .inf a, .inf b => a && !b
  | .inf a, .fin _ _ => a
  | .fin _ _, .inf b => !b
  | .fin m e, .fin m' e' =>
    let l := min e e'
    decide (m * 2 ^ (e - l).toNat < m' * 2 ^ (e' - l).toNat)

/-- Whether a value is NaN. -/
def fIsNaN (v : FVal) : Bool := v == .nan

/-- a = b as numbers; false with a NaN (R163). -/
def fEq (a b : FVal) : Bool := !fIsNaN a && !fIsNaN b && !fLt a b && !fLt b a

/-- A comparison by its code (Table 6.3), false with a NaN, not-equal included (R163). -/
def fCond (c : Nat) (a b : FVal) : Bool :=
  if fIsNaN a || fIsNaN b then false
  else if c = 0 then fEq a b else if c = 1 then !fEq a b else if c = 2 then fLt a b
  else if c = 3 then !fLt b a else if c = 4 then fLt b a else !fLt a b

/-- MAX and MIN with their NaN rules (R164). -/
def fMax (a b : FVal) : FVal := if fIsNaN a then b else if fIsNaN b then a else if fLt a b then b else a
def fMin (a b : FVal) : FVal := if fIsNaN a then b else if fIsNaN b then a else if fLt b a then b else a

/-! ### Scale codes and blocks -/

/-- The scale of an E6M2 code other than 0xFF as (4 + FRAC) × 2^(EXP − 33) (R146). -/
def scaleVal (code : Nat) : FVal := .fin (4 + code % 4 : Nat) ((code / 4 : Nat) - 33)

/-- The quantiser of one block (R152): its code and elements; draw gives element i's u. qmax is 127 or 7. -/
def quantise (qmax rm : Nat) (draw : Nat → Nat) (xs : List FVal) : Nat × List Int :=
  let amax := xs.foldl (fun a x => match x with | .fin _ _ => fMax a (fAbs x) | _ => a) (.fin 0 0)
  if fEq amax (.fin 0 0) then (0xFF, xs.map (fun _ => 0)) else
  let ok := fun code => !fLt (fMul (.fin qmax 0) (scaleVal code)) amax
  let code := (findBelow 255 ok).getD 0xFE
  let d := 4 + code % 4
  let se : Int := (code / 4 : Nat) - 33
  let one := fun (i : Nat) (x : FVal) =>
    match x with
    | .nan => (0 : Int)
    | .inf neg => if neg then -(qmax : Int) else qmax
    | .fin m e =>
      -- x / s = num / (d × 2^sh)
      let k : Int := min (e - se) 0
      let num := m.natAbs * 2 ^ (e - se - k).toNat
      let sh := (-k).toNat
      let q := num / (d * 2 ^ sh)
      let r := num % (d * 2 ^ sh)
      let up := if rm = 0 then
          (if 2 * r > d * 2 ^ sh then true else if 2 * r = d * 2 ^ sh then q % 2 == 1 else false)
        else if rm = 1 then false else decide (draw i < r * 2 ^ 24 / (d * 2 ^ sh))
      let q : Nat := min qmax (if up then q + 1 else q)
      if m < 0 then -(q : Int) else q
  let qs := xs.mapIdx one
  (if qs.all (· == 0) then 0xFF else code, qs)

/-- A value of a MB8 or MB4 element (R147, R148). -/
def dequant (code : Nat) (q : Int) : FVal :=
  if code = 0xFF then .fin 0 0 else fMul (.fin q 0) (scaleVal code)

/-- MXINT8 element to a value (R154): NaN when E is 0xFF. -/
def mxVal (e : Nat) (q : Int) : FVal := if e = 0xFF then .nan else .fin q ((e : Int) - 133)

/-- MXINT8 block to MB8 (Table 4.5). -/
def mxToMb8 (rm : Nat) (draw : Nat → Nat) (e : Nat) (qs : List Int) : Nat × List Int :=
  if e = 255 then (0xFF, qs.map (fun _ => 0))
  else if e ≤ 101 then
    let r := qs.mapIdx (fun i q => roundInt rm (draw i) q ((e : Int) - 102))
    (if r.all (· == 0) then 0xFF else 0, r)
  else if e ≤ 165 then ((e - 102) * 4, qs)
  else (0xFC, qs.map (fun q => max (-127) (min 127 (q * 2 ^ (e - 165)))))

/-- MB8 block to MXINT8 (R155). -/
def mb8ToMx (rm : Nat) (draw : Nat → Nat) (code : Nat) (qs : List Int) : Nat × List Int :=
  if code = 0xFF then (0, qs.map (fun _ => 0))
  else if code % 4 = 0 then (code / 4 + 102, qs)
  else (code / 4 + 103, qs.mapIdx (fun i q => roundInt rm (draw i) (q * (4 + code % 4 : Nat)) (-3)))

/-! ### EXT40 -/

/-- A term of R171: T × 2^E, or flagged non-finite (R174). -/
structure Term where
  t : Int
  e : Int
  flagged : Bool
  deriving DecidableEq, Repr

/-- Index of element (row, column) of an accumulator pane. -/
def accIx (row col : Nat) : Nat := 32 * row + col

/-- Arithmetic right shift of one element, dropped bits into its sticky bit (R173). -/
def accShift (k : Nat) (x : AccElem) : AccElem :=
  let d : Int := 2 ^ k
  { x with a := x.a / d, sticky := x.sticky || x.a % d != 0 }

/-- The smallest raise that lets a sum fit (R173). -/
def raiseFor (fits : Nat → Bool) : Nat := (findBelow 1200 fits).getD 1200

/-- The amount a term adds at frame f, and whether a bit was dropped (R173). -/
def termAt (t e f : Int) : Int × Bool :=
  if f ≤ e then (t * 2 ^ (e - f).toNat, false)
  else
    let d : Int := 2 ^ (f - e).toNat
    (t / d, t % d != 0)

/-- A term reaches element (row, col) of an EXT pane (R171–R174). When the sum would not fit, the frame rises by the smallest k
that lets the sum fit, the sum being taken of the shifted element and the term aligned to the raised frame (DEDUCED, log 7). Group exponents
that software wrote outside −149 to 127 can take a frame outside R170's −512 to 511: the frame is then an unbounded integer, and a raise stops
at 1,200 (both DESIGN CHOICE, log 92). -/
def accTerm (p : AccPane) (row col : Nat) (tm : Term) : AccPane :=
  let ix := accIx row col
  let x := sget {} p.elems ix
  if tm.flagged then { p with elems := sset p.elems ix { x with nan := true } }
  else if tm.t = 0 then p
  else
    let f0 : Int := match p.frames.find? (fun y => y.1 == col) with
      | some y => y.2
      | none => tm.e + (bitlen tm.t.natAbs : Int) - 32
    let fits := fun k : Nat =>
      let s := (accShift k x).a + (termAt tm.t tm.e (f0 + k)).1
      decide (-(2 ^ 39) ≤ s) && decide (s ≤ 2 ^ 39 - 1)
    let k := raiseFor fits
    let f := f0 + (k : Int)
    let elems := if k = 0 then p.elems else
      p.elems.map (fun y => if y.1 % 32 = col then (y.1, accShift k y.2) else y)
    let y := sget {} elems ix
    let (add, lost) := termAt tm.t tm.e f
    { p with frames := sset p.frames col f
             elems := sset elems ix { y with a := y.a + add, sticky := y.sticky || lost } }

/-- The encoding that move-out gives element (row, col) of an EXT pane (R175). -/
def extOut (f : Fmt) (rm u : Nat) (p : AccPane) (row col : Nat) : Nat :=
  let x := sget {} p.elems (accIx row col)
  if x.nan then fpNaN f else
  match p.frames.find? (fun y => y.1 == col) with
  | none => 0
  | some y => encodeVal f rm u (.fin (2 * x.a + (if x.sticky then 1 else 0)) (y.2 - 1))

/-! ### Split precision and pairs -/

/-- e(x) of a non-zero finite value (R177). -/
def floorLog2 (m : Nat) (e : Int) : Int := e + (bitlen m : Int) - 1

/-- The group exponent code of a group (R177, R178): INT16. -/
def groupExp (xs : List FVal) : Nat :=
  if xs.any (fun x => match x with | .fin _ _ => false | _ => true) then 0x7FFF else
  let es := xs.filterMap (fun x => match x with
    | .fin m e => if m = 0 then none else some (floorLog2 m.natAbs e)
    | _ => none)
  match es with
  | [] => 0x8000
  | e :: r => encInt 16 (r.foldl max e)

/-- Slice j of a value of a group with exponent code g (R179, R180). -/
def sliceDigit (bf16 : Bool) (j g : Nat) (x : FVal) : Int :=
  if g = 0x7FFF ∨ g = 0x8000 then 0 else
  match x with
  | .fin m e =>
    let k : Int := (if bf16 then 13 else 21) - signedNat 16 g
    let x0 := roundInt 0 0 m (e + k)
    let digit := fun (y : Int) => (y + 128) % 256 - 128
    let s0 := digit x0
    let x1 := (x0 - s0) / 256
    if bf16 then (if j = 1 then s0 else x1)
    else
      let s1 := digit x1
      if j = 2 then s0 else if j = 1 then s1 else (x1 - s1) / 256
  | _ => 0

/-- FP32 encoding of a value rounded to nearest even. -/
def rne32 (v : FVal) : Nat := encodeVal 0 0 0 v

/-- Whether an FP32 encoding is finite. -/
def fin32 (b : Nat) : Bool := b / 2 ^ 23 % 256 != 255

/-- TWOSUM (R185). -/
def twoSum (a b : Nat) : Nat × Nat :=
  let s := fAdd (decodeVal 0 a) (decodeVal 0 b)
  let hi := rne32 s
  (hi, if fin32 hi then rne32 (fAdd s (fNeg (decodeVal 0 hi))) else 0)

/-- FASTTWOSUM (R186). -/
def fastTwoSum (a b : Nat) : Nat × Nat :=
  let va := decodeVal 0 a
  let vb := decodeVal 0 b
  let hi := rne32 (fAdd va vb)
  let z := rne32 (fAdd (decodeVal 0 hi) (fNeg va))
  (hi, if fin32 hi then rne32 (fAdd vb (fNeg (decodeVal 0 z))) else 0)

/-- Sum of two FP32 encodings rounded to nearest even. -/
def addRne (a b : Nat) : Nat := rne32 (fAdd (decodeVal 0 a) (decodeVal 0 b))

/-! ### Functions (R237)

VRCP and VRSQRT are exact quotients and roots with a sticky remainder. VEXP2, VLOG2, VTANH and VSIGM are computed to 256
fraction bits and rounded once from there (UNVERIFIED, log 8: no input's exact value lies within 2^−200 of a rounding
boundary unless it is one of the exact results of Table 6.4, which are computed exactly). -/

/-- Fraction bits of the fixed-point values below. -/
def fxBits : Nat := 256
def fxOne : Nat := 2 ^ 256

/-- ln 2 as Σ 1 / (k 2^k). -/
def fxLn2 : Nat := (List.range 270).foldl (fun a k => a + fxOne / ((k + 1) * 2 ^ (k + 1))) 0

/-- Terms of e^y − 1 below term k, t the k-th term. -/
def expSeries : Nat → Nat → Nat → Nat → Nat
  | 0, _, _, _ => 0
  | n + 1, k, t, y =>
    let t' := t * y / (fxOne * k)
    t' + expSeries n (k + 1) t' y

/-- 2^f for a fixed-point f in [0, 1). -/
def fxExp2 (f : Nat) : Nat := fxOne + expSeries 80 1 fxOne (f * fxLn2 / fxOne)

/-- 2^−t for a fixed-point t ≥ 0, as (v, k): v × 2^−k, v fixed-point in [1, 2]. -/
def fxExp2Neg (t : Nat) : Nat × Nat :=
  let k := cdiv t fxOne
  (fxExp2 (k * fxOne - t), k)

/-- A non-negative finite value in fixed point, truncated. -/
def toFx (m : Nat) (e : Int) : Nat :=
  let s := e + fxBits
  if 0 ≤ s then m * 2 ^ s.toNat else m / 2 ^ (-s).toNat

/-- e^−y as (v, k) for a fixed-point y. -/
def fxExpNeg (y : Nat) : Nat × Nat := fxExp2Neg (y * fxOne / fxLn2)

/-- 2^x (R237). -/
def fnExp2 (rm u : Nat) : FVal → Nat
  | .nan => fpNaN 0
  | .inf neg => if neg then 0 else 0x7F800000
  | .fin m e =>
    if m = 0 then 0x3F800000 else
    let a := m.natAbs
    let big := floorLog2 a e ≥ 9
    if m < 0 then
      if big then roundFP 0 rm u false 1 (-500) true else
      let (v, k) := fxExp2Neg (toFx a e)
      roundFP 0 rm u false v (-(fxBits : Int) - k) (decide (toFx a e % fxOne ≠ 0))
    else if big then roundFP 0 rm u false 1 500 false
    else
      let x := toFx a e
      roundFP 0 rm u false (fxExp2 (x % fxOne)) ((x / fxOne : Nat) - (fxBits : Int)) (decide (x % fxOne ≠ 0))

/-- Terms z^(2k+1) / (2k+1) of atanh z. -/
def atanhSeries : Nat → Nat → Nat → Nat → Nat
  | 0, _, _, _ => 0
  | n + 1, k, t, zz => t / (2 * k + 1) + atanhSeries n (k + 1) (t * zz / fxOne) zz

/-- log2 x (R237). -/
def fnLog2 (rm u : Nat) : FVal → Nat
  | .nan => fpNaN 0
  | .inf neg => if neg then fpNaN 0 else 0x7F800000
  | .fin m e =>
    if m = 0 then 0xFF800000 else if m < 0 then fpNaN 0 else
    let a := m.natAbs
    let ex := floorLog2 a e
    let z := a * 2 ^ (fxBits + 1 - bitlen a)
    if z = fxOne then encodeVal 0 rm u (.fin ex 0) else
    let w := (z - fxOne) * fxOne / (z + fxOne)
    let l := 2 * atanhSeries 100 0 w (w * w / fxOne) * fxOne / fxLn2
    if 0 ≤ ex then roundFP 0 rm u false ((ex.toNat * fxOne + l) / 2 ^ 16) (16 - (fxBits : Int)) true
    else roundFP 0 rm u true (((-ex).toNat * fxOne - l) / 2 ^ 16) (16 - (fxBits : Int)) true

/-- Integer square root by bits: the largest r below 2^n with r² ≤ x. -/
def isqrt : Nat → Nat → Nat → Nat
  | 0, _, r => r
  | n + 1, x, r => if (r + 2 ^ n) * (r + 2 ^ n) ≤ x then isqrt n x (r + 2 ^ n) else isqrt n x r

/-- 1 / √x (R237). -/
def fnRsqrt (rm u : Nat) : FVal → Nat
  | .nan => fpNaN 0
  | .inf neg => if neg then fpNaN 0 else 0
  | .fin m e =>
    if m = 0 then 0x7F800000 else if m < 0 then fpNaN 0 else
    let a := if e % 2 = 0 then m.natAbs else 2 * m.natAbs
    let e' := if e % 2 = 0 then e else e - 1
    let x := 2 ^ 200 / a
    let r := isqrt 101 x 0
    roundFP 0 rm u false r (-100 - e' / 2) (decide (r * r * a ≠ 2 ^ 200))

/-- 1 / x (R237). -/
def fnRcp (rm u : Nat) : FVal → Nat
  | .nan => fpNaN 0
  | .inf _ => 0
  | .fin m e =>
    if m = 0 then 0x7F800000 else
    let a := m.natAbs
    roundFP 0 rm u (decide (m < 0)) (2 ^ 120 / a) (-120 - e) (decide (2 ^ 120 % a ≠ 0))

/-- tanh x (R237). -/
def fnTanh (rm u : Nat) : FVal → Nat
  | .nan => fpNaN 0
  | .inf neg => if neg then 0xBF800000 else 0x3F800000
  | .fin m e =>
    if m = 0 then 0 else
    let neg := decide (m < 0)
    let a := m.natAbs
    let ex := floorLog2 a e
    if ex < -40 then roundFP 0 rm u neg (a * 2 ^ 100 - 1) (e - 100) true
    else if ex ≥ 6 then roundFP 0 rm u neg (2 ^ 100 - 1) (-100) true
    else
      let (v, k) := fxExpNeg (2 * toFx a e)
      let w := v / 2 ^ k
      roundFP 0 rm u neg ((fxOne - w) * fxOne / (fxOne + w) / 2 ^ 16) (16 - (fxBits : Int)) true

/-- The logistic sigmoid (R237). -/
def fnSigm (rm u : Nat) : FVal → Nat
  | .nan => fpNaN 0
  | .inf neg => if neg then 0 else 0x3F800000
  | .fin m e =>
    if m = 0 then 0x3F000000 else
    let a := m.natAbs
    let ex := floorLog2 a e
    if ex ≥ 7 then
      (if m < 0 then (let (v, k) := fxExpNeg (min (toFx a e) (400 * fxOne))
                      roundFP 0 rm u false v (-(fxBits : Int) - k) true)
       else roundFP 0 rm u false (2 ^ 100 - 1) (-100) true)
    else
      let (v, k) := fxExpNeg (toFx a e)
      let den := fxOne * 2 ^ k + v
      if m < 0 then roundFP 0 rm u false (v * fxOne / den) (-(fxBits : Int)) true
      else roundFP 0 rm u false (fxOne * 2 ^ k * fxOne / den) (-(fxBits : Int)) true

end Sys2Proof.Machine
end

