-- ==== Sys2Proof/Machine/Operands.lean ====
section
/-!
DEFINITION. The fields of an instruction word (R51–R57), its operands as ranges of panes (R55, R56), byte positions of strips
(R98–R105, R221), and each opcode's operand forms (Tables 5.4, 6.2, 6.5, 10.1, 17.7).
-/

namespace Sys2Proof.Machine

/-- Fields of Table 2.7. -/
def wOp (w : BitVec 128) : Nat := (fld w 120 8).toNat
def wD (w : BitVec 128) : Nat := (fld w 96 24).toNat
def wS1 (w : BitVec 128) : Nat := (fld w 72 24).toNat
def wS2 (w : BitVec 128) : Nat := (fld w 48 24).toNat
def wCount (w : BitVec 128) : Nat := (fld w 32 16).toNat
def wFlags (w : BitVec 128) : Nat := (fld w 24 8).toNat
def wEng (w : BitVec 128) : Nat := (fld w 0 24).toNat
def wSeal (w : BitVec 128) : Bool := w.getLsbD 31
def wRelease (w : BitVec 128) : Bool := w.getLsbD 30
def wDrydown (w : BitVec 128) : Bool := w.getLsbD 29
def wOpen (w : BitVec 128) : Bool := w.getLsbD 28
def wProv (w : BitVec 128) : Bool := w.getLsbD 27
def wChain (w : BitVec 128) : Bool := w.getLsbD 26
/-- Bits [lo + n − 1 : lo] of ENG. -/
def wE (w : BitVec 128) (lo n : Nat) : Nat := nbits (wEng w) lo n
/-- SFMT and DFMT (R226). -/
def wSfmt (w : BitVec 128) : Nat := wE w 20 4
def wDfmt (w : BitVec 128) : Nat := wE w 16 4

/-- Access mode of an operand field (Table 2.8): 0 ROW, 1 COL, 2 LINEAR, 3 IMMEDIATE. -/
def oMode (v : Nat) : Nat := v / 2 ^ 22
/-- Scratchpad address of an operand field and its parts (R52, R98). -/
def oAddr (v : Nat) : Nat := v % 2 ^ 22
def aOctant (a : Nat) : Nat := a / 2 ^ 19
def aPane (a : Nat) : Nat := a / 2 ^ 12 % 128
def aRow (a : Nat) : Nat := a / 2 ^ 7 % 32
def aCol (a : Nat) : Nat := a / 4 % 32
/-- Global pane number of an address. -/
def gPane (a : Nat) : Nat := a / 2 ^ 12
/-- Scratchpad address of a pane. -/
def paneAddr (g : Nat) : Nat := g * 2 ^ 12
/-- Whether an IMMEDIATE field is a constant reference, and its index (R53). -/
def isConstRef (v : Nat) : Bool := oMode v == 3 && nbit v 21
def constIx (v : Nat) : Nat := v % 512
/-- The literal of an IMMEDIATE field (R53). -/
def oLiteral (v : Nat) : Int := signedNat 21 (v % 2 ^ 21)

/-- An operand range: mode, start address, and strips (ROW, COL) or bytes (LINEAR). -/
structure Ext where
  mode : Nat
  addr : Nat
  units : Nat
  deriving DecidableEq, Repr

/-- Position of an operand's first strip in its octant, in strips. -/
def extStart (x : Ext) : Nat := 32 * aPane x.addr + (if x.mode = 1 then aCol x.addr else aRow x.addr)

/-- The panes of a range in order (R103–R105); the Bool says that it passes its octant or the 4 MiB (R56). -/
def extPanes (x : Ext) : List Nat × Bool :=
  if x.units = 0 then ([], false)
  else if x.mode = 2 then
    let lo := x.addr / 4096
    let hi := (x.addr + x.units - 1) / 4096
    ((List.range (min hi 1023 + 1 - lo)).map (· + lo), decide (2 ^ 22 < x.addr + x.units))
  else
    let last := (extStart x + x.units - 1) / 32
    ((List.range (min last 127 + 1 - aPane x.addr)).map (· + gPane x.addr), decide (127 < last))

/-- The address of the first pane beyond a range's octant or the 4 MiB (Table 2.19; DEDUCED, log 9). -/
def extBeyond (x : Ext) : Nat := if x.mode = 2 then 0 else (aOctant x.addr + 1) % 8 * 2 ^ 19

/-- Address of byte i of a range (R98, R101, R103–R105). -/
def extByte (x : Ext) (i : Nat) : Nat :=
  if x.mode = 1 then
    let s := extStart x + i / 128
    aOctant x.addr * 2 ^ 19 + s / 32 * 4096 + (i % 128 / 4) * 128 + s % 32 * 4 + i % 4
  else if x.mode = 0 then x.addr / 128 * 128 + i
  else x.addr + i

/-- Octant of the strip that holds byte i of a range. -/
def extOctant (x : Ext) (i : Nat) : Nat := aOctant (extByte x i)

/-- The n bytes of a range as addresses. -/
def extBytes (x : Ext) (n : Nat) : List Nat := (List.range n).map (extByte x)

/-- Units of a range of nb bytes in a mode: strips, or bytes in LINEAR (R105, R222). -/
def unitsOf (mode nb : Nat) : Nat := if mode = 2 then nb else cdiv nb 128

/-- The range of an operand field with nb bytes. -/
def extOf (v nb : Nat) : Ext := ⟨oMode v, oAddr v, unitsOf (oMode v) nb⟩

/-- Bytes of n elements of width w. -/
def bytesOf (n w : Nat) : Nat := cdiv (n * w) 8

/-- What an opcode's fields may hold: unit (none: sequencing), the modes of OPD, OPS1, OPS2 (no mode: unused; mode 4: a
constant reference), whether COUNT is used, the assigned ENG bits, and the allowed flags (Tables 2.9, 2.11, 5.4, 5.5, 6.2, 6.3,
6.5, 6.8, 10.1, 17.7, R362, R585). -/
structure OpInfo where
  unit : Option Engine
  d : List Nat
  s1 : List Nat
  s2 : List Nat
  count : Bool
  eng : Nat
  flags : Nat
  deriving DecidableEq, Repr

/-- Flag bits: SEAL 0x80, RELEASE 0x40, DRYDOWN 0x20, OPEN 0x10, PROV 0x08, CHAIN 0x04. -/
def vecInfo (d s1 s2 : List Nat) (eng : Nat) : OpInfo := ⟨some .vector, d, s1, s2, true, 0xFF0000 + eng, 0xCC⟩
def redInfo (d s1 : List Nat) (eng : Nat) : OpInfo := ⟨some .reduction, d, s1, [], true, 0xFF0000 + eng, 0xC8⟩

/-- Elementwise sources, and destinations. -/
def srcModes : List Nat := [0, 1, 2, 3]
def dstModes : List Nat := [0, 1, 2]

/-- Opcodes 0x00–0x1F (Table 2.11). Table 2.9 forbids SEAL, RELEASE and PROV on none of them; they have no source or destination range,
so that SEAL and RELEASE do nothing there (DEDUCED, log 93). -/
def seqInfo (op : Nat) : Option OpInfo :=
  match op with
  | 0x00 => some ⟨none, [], [], [], true, 0xFF00FF, 0xF8⟩
  | 0x01 => some ⟨none, [], [], [], true, 0, 0xC8⟩
  | 0x02 => some ⟨none, [], [], [], false, 0, 0xC8⟩
  | 0x03 => some ⟨none, [], [], [], true, 0, 0xE8⟩
  | 0x04 => some ⟨none, [], [], [], true, 0x3F, 0xE8⟩
  | 0x05 => some ⟨none, [0], [], [], true, 0, 0xE8⟩
  | 0x06 => some ⟨none, [0], [], [], true, 0, 0xE8⟩
  | 0x07 => some ⟨none, [], [], [], false, 0xF, 0xE8⟩
  | 0x08 => some ⟨none, [], [], [], false, 0, 0xE8⟩
  | 0x09 => some ⟨none, [], [], [], false, 0, 0xC8⟩
  | _ => none

/-- Opcodes 0x20–0x3F (Tables 5.3–5.5). -/
def matInfo (op : Nat) : Option OpInfo :=
  match op with
  | 0x20 => some ⟨some .matrix, [], [], [], false, 0x1FF, 0⟩
  | 0x21 => some ⟨some .matrix, [], [1], [], false, 1, 0x48⟩
  | 0x22 => some ⟨some .matrix, [], [1], [], false, 1, 0x48⟩
  | 0x23 => some ⟨some .matrix, [], [1], [0], false, 1, 0x48⟩
  | 0x24 => some ⟨some .matrix, [], [1], [0], false, 1, 0x48⟩
  | 0x25 => some ⟨some .matrix, [], [1], [0], false, 1, 0x48⟩
  | 0x28 => some ⟨some .matrix, [], [0], [], true, 0xF, 0x48⟩
  | 0x29 => some ⟨some .matrix, [], [0], [], true, 0xF, 0x48⟩
  | 0x2A => some ⟨some .matrix, [], [0], [0], true, 0xF, 0x48⟩
  | 0x2B => some ⟨some .matrix, [], [0], [0], true, 0xF, 0x48⟩
  | 0x2C => some ⟨some .matrix, [], [0], [0], true, 0xFF, 0x48⟩
  | 0x30 => some ⟨some .matrix, [0], [], [], false, 0xF7, 0x8C⟩
  | _ => none

/-- Opcodes 0x40–0x8F (Tables 6.2, 6.3, 6.5, 6.8). D of VDEQ takes every mode, as a plain vector (Table 6.7), and D of VMXI ROW only (R233)
(DESIGN CHOICE, log 92). -/
def vecRedInfo (op : Nat) : Option OpInfo :=
  match op with
  | 0x40 => some (vecInfo dstModes srcModes srcModes 0)
  | 0x41 => some (vecInfo dstModes srcModes srcModes 0)
  | 0x42 => some (vecInfo dstModes srcModes srcModes 0)
  | 0x43 => some (vecInfo dstModes srcModes srcModes 0)
  | 0x44 => some (vecInfo dstModes srcModes srcModes 0)
  | 0x45 => some (vecInfo dstModes srcModes [] 0)
  | 0x46 => some (vecInfo dstModes srcModes [] 0)
  | 0x48 => some (vecInfo dstModes srcModes srcModes 0)
  | 0x49 => some (vecInfo dstModes srcModes srcModes 0x1FF)
  | 0x50 => some (vecInfo dstModes srcModes srcModes 0x7000)
  | 0x51 => some (vecInfo dstModes srcModes srcModes 0xF1FF)
  | 0x52 => some (vecInfo dstModes srcModes srcModes 0)
  | 0x58 => some (vecInfo dstModes srcModes [] 0)
  | 0x59 => some (vecInfo [0] srcModes [0] 0x1000)
  | 0x5A => some (vecInfo dstModes [0] [0] 0x1000)
  | 0x5B => some (vecInfo [0] [0] [0] 0)
  | 0x5C => some (vecInfo [0] [0] [0] 0)
  | 0x5D => some (vecInfo [0] srcModes [0] 0x1F00)
  | 0x60 => some (vecInfo dstModes srcModes [] 0xFF)
  | 0x61 => some (vecInfo dstModes srcModes [] 0)
  | 0x68 => some (vecInfo dstModes srcModes [] 0)
  | 0x69 => some (vecInfo dstModes srcModes [] 0)
  | 0x6A => some (vecInfo dstModes srcModes [] 0)
  | 0x6B => some (vecInfo dstModes srcModes [] 0)
  | 0x6C => some (vecInfo dstModes srcModes [] 0)
  | 0x6D => some (vecInfo dstModes srcModes [] 0)
  | 0x70 => some (vecInfo dstModes srcModes srcModes 0)
  | 0x71 => some (vecInfo dstModes srcModes srcModes 0)
  | 0x78 => some (vecInfo dstModes [2] [2] 0)
  | 0x80 => some (redInfo [0, 2] srcModes 0x8000)
  | 0x81 => some (redInfo [0, 2] srcModes 0x8000)
  | 0x82 => some (redInfo [0, 2] srcModes 0x8000)
  | 0x83 => some (redInfo [0, 2] srcModes 0x8000)
  | 0x84 => some (redInfo [0, 2] srcModes 0x8000)
  | 0x85 => some (redInfo [0, 2] srcModes 0xC000)
  | 0x88 => some (redInfo [0] srcModes 0xFFFF)
  | 0x89 => some (redInfo [0] [0] 0x7E00)
  | _ => none

/-- Opcodes 0x90–0xBF (Tables 10.1, 17.7). -/
def moveInfo (op : Nat) : Option OpInfo :=
  match op with
  | 0x90 => some ⟨some .moveSend, dstModes, dstModes, [], true, 0, 0xC8⟩
  | 0x91 => some ⟨some .moveSend, [], [0, 1], [], true, 0xF7, 0x48⟩
  | 0x92 => some ⟨some .moveSend, [0, 1], [], [], true, 0xF7, 0x88⟩
  | 0x93 => some ⟨some .moveSend, [4], [0], [], true, 0x3FF7, 0x48⟩
  | 0x98 => some ⟨some .moveSend, [], [2], [], false, 0xF, 0x48⟩
  | 0x99 => some ⟨some .moveSend, [2], [], [], false, 0xFF, 0x88⟩
  | 0x9A => some ⟨some .moveSend, [2], [], [], false, 0, 0x88⟩
  | 0x9C => some ⟨some .moveSend, [], [4], [], false, 0, 8⟩
  | 0x9D => some ⟨some .moveSend, [], [4], [], true, 0x73F, 8⟩
  | 0xB0 => some ⟨some .counter, [2], [], [], false, 0xFF, 0x88⟩
  | 0xB1 => some ⟨some .counter, [], [], [], false, 0xFF, 0⟩
  | 0xB2 => some ⟨some .counter, [2], [], [], false, 0, 0x88⟩
  | _ => none

/-- The operand forms of an opcode; none for a reserved or unassigned one. ZCTL but for GRANT uses neither S1 nor COUNT. -/
def opInfo (w : BitVec 128) : Option OpInfo :=
  let op := wOp w
  if op < 0x20 then seqInfo op
  else if op < 0x40 then matInfo op
  else if op < 0x90 then vecRedInfo op
  else if op = 0x9D ∧ wE w 8 3 ≠ 1 then some ⟨some .moveSend, [], [], [], false, 0x73F, 8⟩
  else moveInfo op

/-- Whether an opcode takes its element count n from COUNT as R222 does (vector and reduction). -/
def isVecRed (op : Nat) : Bool := 0x40 ≤ op && op < 0x90

/-- Side strips per element pane of a format code (Table 4.4). -/
def sideStrips (f : Fmt) : Nat := if f = 10 ∨ f = 12 then 2 else 1

/-- The ranges of an instruction: sources (S1 first unless chained or IMMEDIATE), and destinations; n is its count. -/
structure Ranges where
  srcs : List Ext
  dsts : List Ext
  deriving DecidableEq, Repr

/-- A source operand of nb bytes: nothing when IMMEDIATE. -/
def srcExt (v nb : Nat) : List Ext := if oMode v = 3 then [] else [extOf v nb]

/-- Number of element panes that a range touches. -/
def panesIn (x : Ext) : Nat := (extPanes x).1.length

/-- The element range of a COL-blocked column group: the whole pane of its address (R233). -/
def groupExt (v : Nat) : Ext := ⟨0, oAddr v / 4096 * 4096, 32⟩

/-- Result strips or bytes of a reduction (R241). -/
def redUnits (op s d : Nat) (axis : Bool) : Nat :=
  if axis then
    let v := cdiv (1024 / fmtWidth s * fmtWidth d) 1024
    if op = 0x83 ∨ op = 0x84 ∨ op = 0x85 then 2 * v else v
  else if op = 0x83 ∨ op = 0x84 ∨ op = 0x85 then 8 else fmtWidth d / 8

/-- The ranges of a vector instruction (R221–R238, R151); with CHAIN neither D nor its side strips are written (R59). -/
def vecRanges (w : BitVec 128) (n : Nat) (chainedIn : Bool) : Ranges :=
  let op := wOp w
  let s := wSfmt w
  let d := wDfmt w
  let axis := wE w 12 1 == 1
  let s1 := if chainedIn then [] else srcExt (wS1 w) (bytesOf n (fmtWidth s))
  let dst := extOf (wD w) (bytesOf n (if op = 0x70 ∨ op = 0x71 then 64 else fmtWidth d))
  let out := fun (l : List Ext) => if wChain w then [] else l
  let side := fun (x : Ext) (f : Fmt) => (⟨0, oAddr (wS2 w), sideStrips f * panesIn x⟩ : Ext)
  if op = 0x48 ∨ op = 0x52 then
    ⟨s1 ++ srcExt (wS2 w) (bytesOf n (fmtWidth s)) ++ [dst], out [dst]⟩
  else if op = 0x59 then
    let x := if axis then groupExt (wD w) else dst
    ⟨s1, out [x, side x d]⟩
  else if op = 0x5D then
    let x := if axis then groupExt (wD w) else dst
    if wE w 8 1 = 1 then ⟨s1, out [x, side x 12]⟩ else ⟨s1 ++ [side x 12], out [x]⟩
  else if op = 0x5A then
    let x := if axis then groupExt (wS1 w) else extOf (wS1 w) (bytesOf n (fmtWidth s))
    ⟨(if chainedIn then [] else [x]) ++ [side x s], out [dst]⟩
  else if op = 0x5B then
    let x := extOf (wS1 w) n
    if d = 9 then ⟨s1 ++ [side x 9], out [dst, side x 9]⟩ else ⟨s1 ++ [side x 9], out [dst]⟩
  else if op = 0x5C then
    let x := extOf (wS1 w) n
    ⟨s1 ++ [side x 9], out [dst, side x 9]⟩
  else if op = 0x78 then ⟨[extOf (wS1 w) 8, extOf (wS2 w) 16], out [dst]⟩
  else
    let s2 := match vecRedInfo op with
      | some i => if i.s2.isEmpty then [] else srcExt (wS2 w) (bytesOf n (fmtWidth s))
      | none => []
    ⟨s1 ++ s2, out [dst]⟩

/-- The ranges of a reduction (R240–R245). -/
def redRanges (w : BitVec 128) (n : Nat) (chainedIn : Bool) : Ranges :=
  let op := wOp w
  let v := cdiv (wE w 9 6 + 1) 32
  let s1 :=
    if chainedIn then [] else if op = 0x89 then [⟨0, oAddr (wS1 w), 2 * n / 32⟩]
    else srcExt (wS1 w) (bytesOf n (fmtWidth (wSfmt w)))
  let d :=
    if op = 0x88 ∨ op = 0x89 then (⟨0, oAddr (wD w), 2 * v⟩ : Ext)
    else ⟨oMode (wD w), oAddr (wD w), redUnits op (wSfmt w) (wDfmt w) (wE w 15 1 == 1)⟩
  ⟨s1, [d]⟩

/-- The ranges of a matrix instruction (R197–R202). -/
def matRanges (w : BitVec 128) (n : Nat) : Ranges :=
  let op := wOp w
  if op = 0x20 then ⟨[], []⟩
  else if op ≤ 0x25 then
    let x : Ext := ⟨1, oAddr (wS1 w), 8⟩
    ⟨x :: (if op ≤ 0x22 then [] else [⟨0, oAddr (wS2 w), if op = 0x23 then 1 else 2⟩]), []⟩
  else if op ≤ 0x2C then
    let x : Ext := ⟨0, oAddr (wS1 w), cdiv n 4⟩
    ⟨x :: (if op ≤ 0x29 then [] else [⟨0, oAddr (wS2 w), (if op = 0x2A then 1 else 2) * panesIn x⟩]), []⟩
  else ⟨[], if wChain w then [] else [⟨0, oAddr (wD w), if wE w 4 2 = 2 then 16 else 32⟩]⟩

/-- The ranges of a move/send or counter instruction (R361, R585). -/
def moveRanges (w : BitVec 128) (n : Nat) (chainedIn : Bool) : Ranges :=
  let op := wOp w
  let ex := fun (v k : Nat) => (⟨oMode v, oAddr v, k⟩ : Ext)
  let s1 := fun (k : Nat) => if chainedIn then [] else [ex (wS1 w) k]
  if op = 0x90 then ⟨s1 n, [ex (wD w) n]⟩
  else if op = 0x91 ∨ op = 0x93 then ⟨s1 n, []⟩
  else if op = 0x92 then ⟨[], [ex (wD w) n]⟩
  else if op = 0x98 then ⟨s1 32, []⟩
  else if op = 0x99 ∨ op = 0x9A then ⟨[], [ex (wD w) 32]⟩
  else if op = 0xB0 then ⟨[], [ex (wD w) (8 * ((List.range 8).filter (fun i => nbit (wEng w) i)).length)]⟩
  else if op = 0xB2 then ⟨[], [ex (wD w) 40]⟩
  else ⟨[], []⟩

/-- The ranges of an instruction (R55). SEAL and RELEASE (opcodes) name their panes apart. -/
def rangesOf (w : BitVec 128) (n : Nat) (chainedIn : Bool) : Ranges :=
  let op := wOp w
  if op < 0x20 then ⟨[], []⟩
  else if op < 0x40 then matRanges w n
  else if op < 0x80 then vecRanges w n chainedIn
  else if op < 0x90 then redRanges w n chainedIn
  else moveRanges w n chainedIn

end Sys2Proof.Machine
end

