-- ==== Sys2Proof/Machine/Flags.lean ====
section
/-!
DEFINITION. What the flags and fields of an instruction mean for it: its count (R57), the cases of an illegal opcode (R61) with
the per-opcode limits, the chain rules (R59, R250), the pane tag transitions of SEAL and RELEASE (Table 3.2), and the issue
check outcomes (Table 2.12).
-/

namespace Sys2Proof.Machine

/-! ### Tags -/

/-- The tag after a SEAL (Table 3.2): prov says the seal carries PROV, inplace that the pane lies in a source range too, zone
that it lies in a valid landing zone; none is a tag protocol fault. -/
def sealTag (t : Tag) (prov inplace zone : Bool) : Option Tag :=
  match t with
  | .empty => if prov then (if zone then some .provisional else none) else some .full
  | .full => if inplace then (if prov then (if zone then some .provisional else none) else some .full) else none
  | .provisional => if inplace && prov then some .provisional else none
  | .poisoned => none

/-- The tag after a RELEASE (Table 3.2). -/
def releaseTag (t : Tag) (prov : Bool) : Option Tag :=
  match t with
  | .full => some .empty
  | .provisional => if prov then some .empty else none
  | _ => none

/-- The tag after a WAIT's seal (Table 3.2): prov says the threshold was met partly from PROV_LANDED. -/
def waitTag (t : Tag) (prov : Bool) : Tag :=
  match t with
  | .empty => if prov then .provisional else .full
  | t => t

/-- The tag after a commit or a void of the pane's zone (Table 3.2). -/
def noticeTag (t : Tag) (commit : Bool) : Tag :=
  match t with
  | .provisional => if commit then .full else .empty
  | t => t

/-- Outcome of the issue check for one pane or WAIT (Table 2.12). -/
inductive CheckOut where
  | pass
  | late
  | fault (cause detail : Nat)
  deriving DecidableEq, Repr

/-- A source pane. -/
def srcCheck (t : Tag) (prov : Bool) : CheckOut :=
  match t with
  | .full => .pass
  | .empty => .late
  | .provisional => if prov then .pass else .late
  | .poisoned => .fault 2 1

/-- A destination pane that lies in no source range. -/
def dstCheck (t : Tag) : CheckOut :=
  match t with
  | .empty => .pass
  | .full => .late
  | _ => .fault 3 1

/-- A destination pane that lies in a source range too. -/
def inPlaceCheck (t : Tag) (withSeal prov : Bool) : CheckOut :=
  match t with
  | .poisoned => .fault 2 1
  | .empty => .fault 3 2
  | .full => if withSeal then .pass else .fault 3 2
  | .provisional => if withSeal then (if prov then .pass else .late) else .fault 3 2

/-! ### Counts -/

/-- Opcodes whose COUNT with bit 15 set indexes a constant word: NOP, LOOP, SETVL, WAIT (R57). -/
def constCount (op : Nat) : Bool := op == 0 || op == 1 || op == 3 || op == 4

/-- The constant word that COUNT reads, if any. -/
def countConst (w : BitVec 128) : Option Nat :=
  if constCount (wOp w) && nbit (wCount w) 15 then some (wCount w % 512) else none

/-- The count of an instruction (R57): vl is the context's VL, const the constant words. -/
def countOf (w : BitVec 128) (vl : Nat) (const : Nat → Nat) : Nat :=
  match countConst w with
  | some k => const k
  | none => if nbit (wCount w) 15 then vl else wCount w

/-! ### Illegal opcodes -/

/-- DETAIL d when the condition holds. -/
def det (c : Bool) (d : Nat) : List Nat := if c then [d] else []

/-- An operand field against the modes its opcode allows (R53, R54, R61, Table 2.8); wide: R233 lets a ROW start at a word
column. -/
def operandDetail (v : Nat) (modes : List Nat) (wide : Bool) : List Nat :=
  if modes.isEmpty then det (v != 0) 2
  else if modes == [4] then det (!isConstRef v || v / 512 % 2 ^ 12 != 0 || constIx v > 383) 9
  else if !modes.contains (oMode v) then [9]
  else
    det (isConstRef v && (v / 512 % 2 ^ 12 != 0 || constIx v > 383)) 9
    ++ det (oMode v == 0 && (v % 4 != 0 || (if wide then aRow v != 0 else aCol v != 0))) 9
    ++ det (oMode v == 1 && (v % 4 != 0 || aRow v != 0)) 9

/-- COUNT as a field (R57). -/
def countDetail (w : BitVec 128) (used : Bool) : List Nat :=
  let c := wCount w
  if !used then det (c != 0) 2
  else if nbit c 15 then
    (if constCount (wOp w) then det (c / 512 % 64 != 0) 2 ++ det (c % 512 > 383) 9 else det (c % 2 ^ 15 != 0) 2)
  else []

/-- Whether formats s and d are in the roles that an opcode gives them (R227, R229, R239, Table 4.6). VCVT between equal integer formats is no
row of Table 4.7; it is taken as legal, and copies (DESIGN CHOICE, log 92). -/
def formatsOk (op s d : Nat) : Bool :=
  let arith := fun f => isFloat f || isInt f
  let same := (isFloat s && isFloat d) || (isInt s && isInt d)
  if op ≤ 0x46 then same
  else if op = 0x48 ∨ op = 0x49 then isFloat s && isFloat d
  else if op = 0x50 then arith s && arith d
  else if op = 0x51 ∨ op = 0x52 then arith s && s == d
  else if op = 0x58 then s ≤ 8 && d ≤ 8
  else if op = 0x59 then s ≤ 1 && (d == 9 || d == 10)
  else if op = 0x5A then (s == 9 || s == 10) && d ≤ 1
  else if op = 0x5B then s == 11 && (d ≤ 1 || d == 9)
  else if op = 0x5C then s == 9 && d == 11
  else if op = 0x5D then s == 0 && d == 12
  else if op = 0x60 ∨ op = 0x61 then s == 6 && d == 6
  else if op ≤ 0x78 then s == 0 && d == 0
  else if op = 0x80 then (isInt s && d == 8) || (isFloat s && (d == 0 || d == s))
  else if op = 0x81 ∨ op = 0x82 then arith s && s == d
  else if op = 0x83 ∨ op = 0x84 then (isInt s && d == 8) || (isFloat s && d == 0)
  else if op = 0x88 then isFloat s && d == 0
  else s == 0 && d == 0

/-- Formats of vector and reduction opcodes (R226): a reserved code; a field that no value of the other makes legal, when that other is
reserved (or is VRAND's, which reads none), or a pair out of its roles. -/
def formatDetail (w : BitVec 128) : List Nat :=
  let op := wOp w
  let s := wSfmt w
  let d := wDfmt w
  let bad : Bool :=
    if op = 0x78 then d ≤ 12 && !formatsOk op 0 d
    else if s > 12 then d ≤ 12 && !(List.range 13).any (fun k => formatsOk op k d)
    else if d > 12 then !(List.range 13).any (fun k => formatsOk op s k)
    else !formatsOk op s d
  det (s > 12 || d > 12 || (op == 0x78 && s != 0)) 2 ++ det bad 1

/-- Field values of vector opcodes (Table 6.3, R222, R233, R235, R236). -/
def vecDetail (w : BitVec 128) (n : Nat) : List Nat :=
  let op := wOp w
  let axis := wE w 12 1 == 1
  let blocked := op = 0x59 || op = 0x5A || op = 0x5D
  let fmt := if op = 0x5A then wSfmt w else wDfmt w
  let v := if op = 0x5A then wS1 w else wD w
  let e0 := aCol v * (32 / fmtWidth fmt)
  let q := n / 32
  det (n == 0 || n > 2048) 5
  ++ det ((op == 0x50 || op == 0x51) && wE w 12 3 > 5) 5
  ++ det ((op == 0x49 || op == 0x51) && wE w 0 9 > 383) 5
  ++ det (op == 0x60 && n % 4 != 0) 5 ++ det (op == 0x61 && n % 16 != 0) 5
  ++ det ((op == 0x5B || op == 0x5C) && n % 32 != 0) 5
  ++ det (blocked && !axis && n % 32 != 0) 5
  ++ det (blocked && axis && (n % 1024 != 0 || e0 + q > (if fmt = 10 then 256 else 128))) 5
  ++ det (op == 0x5D && (wE w 9 2 == 3 || (wE w 9 2 == 2 && wE w 11 1 == 1))) 5

/-- Field values of reduction opcodes (R222, R239–R245). -/
def redDetail (w : BitVec 128) (n : Nat) : List Nat :=
  let op := wOp w
  let axis := wE w 15 1 == 1
  let m := 1024 / fmtWidth (wSfmt w)
  let v := cdiv (wE w 9 6 + 1) 32
  det (n == 0 || n > 2048) 5
  ++ det (op ≤ 0x85 && axis && n % m != 0) 5
  ++ det (op == 0x85 && wE w 14 1 == 1 && n % 2 != 0) 5
  ++ det (op == 0x89 && n % (32 * v) != 0) 5
  ++ det (op == 0x88 && wE w 15 1 == 1 && wE w 0 9 > 383) 5
  ++ det (op ≤ 0x85 && oMode (wD w) != (if axis then 0 else 2)) 9

/-- Number code of a buffer's FORMAT (Table 5.2). -/
def wfmtCode : WFmt → Nat
  | .none => 0
  | .int8 => 1
  | .int4 => 2
  | .mb8 => 3
  | .mb4 => 4
  | .slice => 5

/-- The FORMAT that an MLOAD sets or an MMAC needs (R194, R203). -/
def opFmt (op : Nat) : WFmt :=
  if op = 0x21 ∨ op = 0x28 then .int8 else if op = 0x22 ∨ op = 0x29 then .int4
  else if op = 0x23 ∨ op = 0x2A then .mb8 else if op = 0x24 ∨ op = 0x2B then .mb4 else .slice

/-- Matrix limits (R197–R203) under the tracked formats and kinds. -/
def matDetail (w : BitVec 128) (n : Nat) (m : MatMarks) : List Nat :=
  let op := wOp w
  let a0 := wE w 0 3
  let used := (List.range 8).filter (fun a => a0 ≤ a && a < a0 + cdiv n 32)
  let ext := fun a => m.kinds.getLsbD a
  if op = 0x20 then []
  else if op ≤ 0x25 then det (aCol (wS1 w) % 8 != 0) 9
  else if op ≤ 0x2C then
    det ((if wE w 3 1 = 1 then m.fmt1 else m.fmt0) != opFmt op) 1
    ++ det (used.any (fun a => ext a != (0x2A ≤ op))) 1
    ++ det (n == 0 || n > 256 || a0 + cdiv n 32 > 8) 5
    ++ det (op == 0x2C && (wE w 4 2 == 3 || wE w 6 2 == 3)) 5
  else
    let f := wE w 4 2
    det (f == 3) 2
    ++ det (f != 3 && ext a0 != (f != 0)) 1
    ++ det (aRow (wD w) != 0 && !(f == 2 && aRow (wD w) == 16)) 9

/-- Move/send and counter limits (R361, R364, R369, R370, R585). -/
def moveDetail (w : BitVec 128) (n : Nat) (handler : Bool) (const : Nat → Nat) (bound : Nat → Bool) : List Nat :=
  let op := wOp w
  let c := constIx (wD w)
  let z := constIx (wS1 w)
  det (op == 0x90 && oMode (wD w) != oMode (wS1 w)) 9
  ++ det (op == 0x90 && oMode (wS1 w) == 2 && n % 4 != 0) 5
  ++ det (op == 0x93 && !isConstRef (wD w)) 5
  ++ det (op == 0x93 && isConstRef (wD w)
      && (c > 382 || const c % 128 != 0 || const c / 2 ^ 22 != 0 || const (c + 1) / 2 ^ 12 != 0)) 9
  ++ det (op == 0x93 && isConstRef (wD w) && wD w / 512 % 2 ^ 12 != 0) 9
  ++ det (op == 0x92 && bound (wE w 0 3)) 5
  ++ det (op == 0x98 && wE w 3 1 == 1 && wE w 0 3 != 0) 2
  ++ det (op == 0x98 && wS1 w % 32 != 0) 9
  ++ det ((op == 0x99 || op == 0x9A) && wD w % 32 != 0) 9
  ++ det (op == 0x9A && !handler) 5
  ++ det (op == 0x9D && (wE w 8 3 == 0 || wE w 8 3 > 5)) 5
  ++ det (op == 0x9D && wE w 8 3 == 1 && (nbit (wCount w) 15 == false && n == 0)) 5
  ++ det (op == 0x9D && wE w 8 3 == 1 && const z / 2 ^ 26 != 0) 9
  ++ det ((op == 0xB0 || op == 0xB2) && wD w % 8 != 0) 9

/-- Sequencing limits (R60, R70, R73, R75, R77, R122): depth is the open loops, body the opcode of the next instruction, zone
whether the WAIT's zone is valid. -/
def seqDetail (w : BitVec 128) (n : Nat) (handler : Bool) (depth : Nat) (body : Nat) (zone : Nat → Bool) : List Nat :=
  let op := wOp w
  det (op == 0 && !wOpen w && wEng w != 0) 2
  ++ det (op == 1 && (n == 0 || n > 16777215)) 5
  ++ det (!handler && op == 1 && (depth == 4 || body == 2)) 4
  ++ det (!handler && op == 2 && depth == 0) 4
  ++ det (op == 3 && (n == 0 || n > 2048)) 5
  ++ det (op == 4 && !zone (wE w 0 6)) 5
  ++ det ((op == 5 || op == 6) && (n == 0 || n > 128)) 5
  ++ det ((op == 5 || op == 6) && wD w % 4096 != 0) 9
  ++ det (op == 7 && wE w 0 2 == 3) 9
  ++ det (!handler && depth != 0 && (wDrydown w || op == 8 || op == 9)) 4

/-- Everything that R61's cases depend on beside the word. -/
structure LegalCtx where
  handler : Bool
  vl : Nat
  const : Nat → Nat
  depth : Nat
  nextOp : Nat
  zone : Nat → Bool
  bound : Nat → Bool
  mat : MatMarks

/-- Whether an opcode may stand in the handler context (R82). -/
def handlerLegal (w : BitVec 128) : Bool :=
  let op := wOp w
  (op == 0 && wFlags w == 0) || op == 5 || op == 6 || op == 9 || (0x90 ≤ op && op < 0xC0)

/-- All DETAIL codes that an instruction meets (R61). -/
def details (w : BitVec 128) (x : LegalCtx) : List Nat :=
  match opInfo w with
  | none => [1]
  | some i =>
    let op := wOp w
    let n := countOf w x.vl x.const
    let allowed := if x.handler then i.flags &&& 0xC8 else i.flags
    let wideD := (op == 0x59 || op == 0x5D) && wE w 12 1 == 1
    let wideS := op == 0x5A && wE w 12 1 == 1
    det (x.handler && !handlerLegal w) 6
    ++ det (wFlags w % 4 != 0) 2
    ++ det (wFlags w / 4 * 4 ||| allowed != allowed || (wSeal w && wChain w)) 3
    ++ det (wEng w ||| i.eng != i.eng) 2
    ++ countDetail w i.count
    ++ (if op = 0x93 then [] else operandDetail (wD w) i.d wideD)
    ++ operandDetail (wS1 w) i.s1 wideS ++ operandDetail (wS2 w) i.s2 false
    ++ (if op < 0x20 then seqDetail w n x.handler x.depth x.nextOp x.zone
        else if op < 0x40 then matDetail w n x.mat
        else if op < 0x80 then formatDetail w ++ vecDetail w n
        else if op < 0x90 then formatDetail w ++ redDetail w n
        else moveDetail w n x.handler x.const x.bound)

/-- The DETAIL recorded for an illegal instruction: the lowest (R61). -/
def illegal (w : BitVec 128) (x : LegalCtx) : Option Nat := (details w x).min?

/-! ### Chains -/

/-- Whether an opcode's S2 is a source of elements in SFMT, as S1 is: not a side base, a counter or an unused field. -/
def elemS2 (op : Nat) : Bool :=
  match vecRedInfo op with
  | some i => i.s2.contains 3
  | none => false

/-- Elements per step of a vector instruction (R224): the widths of D, and of S1 and S2 where they are not IMMEDIATE. -/
def vecStep (w : BitVec 128) : Nat :=
  let op := wOp w
  let pair := op = 0x70 ∨ op = 0x71
  let dw := if pair then 64 else fmtWidth (wDfmt w)
  let sw := if op ≠ 0x78 ∧ (oMode (wS1 w) ≠ 3 ∨ (elemS2 op ∧ oMode (wS2 w) ≠ 3)) then fmtWidth (wSfmt w) else 0
  min 128 (1024 / max dw sw)

/-- Cycles per step (R224). -/
def vecPace (op : Nat) : Nat := if op = 0x48 ∨ op = 0x52 then 2 else 1

/-- A producer's cycles per delivered strip and number of strips (R250). -/
def chainOut (w : BitVec 128) (n : Nat) : Nat × Nat :=
  let op := wOp w
  if op = 0x30 then (1, if wE w 4 2 = 2 then 16 else 32)
  else
    let pair := op = 0x70 ∨ op = 0x71
    let dw := if pair then 64 else fmtWidth (wDfmt w)
    let m := 1024 / dw
    let blocked := (op = 0x59 ∨ op = 0x5D ∨ op = 0x5A) ∧ wE w 12 1 = 1
    if (op = 0x59 ∨ op = 0x5D) ∧ wE w 12 1 = 1 then (1, 32)
    else if blocked then (1, cdiv n m)
    else (m / vecStep w * vecPace op, cdiv n m)

/-- A consumer's cycles per strip of S1 (R240, R250, R361). -/
def chainIn (w : BitVec 128) : Nat :=
  let op := wOp w
  if op < 0x80 then 1024 / fmtWidth (wSfmt w) / vecStep w * vecPace op
  else if op = 0x91 ∨ op = 0x93 then wE w 4 4 + 1
  else 1

/-- Whether a chaining instruction and the next one break R59 or the rate rule of R250. nxt: the next word, none at the end of
the program store or of the context. -/
def chainBroken (w : BitVec 128) (n : Nat) (nxt : Option (BitVec 128)) : Bool :=
  match nxt with
  | none => true
  | some v =>
    let op := wOp w
    let o := wOp v
    let takes := match opInfo v with
      | some i => !i.s1.isEmpty && i.s1 != [4]
      | none => false
    let pairOk :=
      if op = 0x30 then 0x40 ≤ o && o < 0x80 && o != 0x78
      else (0x80 ≤ o && o < 0x90) || o == 0x90 || o == 0x91 || o == 0x93 || o == 0x98
    let (cp, k) := chainOut w n
    let cc := chainIn v
    !takes || !pairOk || wS1 v != wD w || cc < cp || k - 1 - (k - 1) * cp / cc > 8

end Sys2Proof.Machine
end

