-- ==== Sys2Proof/Machine/Ops.lean ====
section
/-!
DEFINITION. The named operations over the state that every family uses: access to the parts of State, free values, records and
logs (R556, R557, R638), interrupts (Table 14.14), cell faults (R94) and what they report, counters (R577–R579), the passing of
time, scratchpad words with their code (R135–R139, R636), pane tags (Table 3.2), landing zones (R128–R132) and the hub path.
-/

namespace Sys2Proof.Machine

/-! ### Parts of State -/

def State.cell (s : State) (c : Nat) : Cell := sget {} s.cells c
def State.setCell (s : State) (c : Nat) (x : Cell) : State := { s with cells := sset s.cells c x }
def State.updCell (s : State) (c : Nat) (f : Cell → Cell) : State := s.setCell c (f (s.cell c))
def State.bay (s : State) (b : Nat) : Bay := sget {} s.bays b
def State.setBay (s : State) (b : Nat) (x : Bay) : State := { s with bays := sset s.bays b x }
def State.updBay (s : State) (b : Nat) (f : Bay → Bay) : State := s.setBay b (f (s.bay b))
def State.suite (s : State) (i : Nat) : Suite := sget {} s.suites i
def State.setSuite (s : State) (i : Nat) (x : Suite) : State := { s with suites := sset s.suites i x }
def State.updSuite (s : State) (i : Nat) (f : Suite → Suite) : State := s.setSuite i (f (s.suite i))
def State.port (s : State) (p : Nat) : MemPort := sget {} s.ports p
def State.setPort (s : State) (p : Nat) (x : MemPort) : State := { s with ports := sset s.ports p x }
def State.updPort (s : State) (p : Nat) (f : MemPort → MemPort) : State := s.setPort p (f (s.port p))
def State.gport (s : State) (g : Nat) : GaconPort := sget {} s.gacon g
def State.setGport (s : State) (g : Nat) (x : GaconPort) : State := { s with gacon := sset s.gacon g x }
def State.updGport (s : State) (g : Nat) (f : GaconPort → GaconPort) : State := s.setGport g (f (s.gport g))
def State.barrier (s : State) (n : Nat) : Barrier := sget {} s.barriers n
def State.setBarrier (s : State) (n : Nat) (x : Barrier) : State := { s with barriers := sset s.barriers n x }
def State.seqEntry (s : State) (n : Nat) : SeqEntry := sget {} s.seqs n
def State.setSeqEntry (s : State) (n : Nat) (x : SeqEntry) : State := { s with seqs := sset s.seqs n x }

/-- Number of a stream context in State.streams: 16 × engine + context, Gacon contexts after the stream engines'. -/
def ctxIx : StreamCtx → Nat
  | .se e c => 16 * e.val + c.val
  | .gacon g c => 2048 + 16 * g.val + c.val

def State.stream (s : State) (x : StreamCtx) : StreamState := sget {} s.streams (ctxIx x)
def State.setStream (s : State) (x : StreamCtx) (v : StreamState) : State := { s with streams := sset s.streams (ctxIx x) v }
def State.updStream (s : State) (x : StreamCtx) (f : StreamState → StreamState) : State := s.setStream x (f (s.stream x))

/-- The next free value, and the state with it used (log 1). -/
def State.fresh (s : State) : W64 × State := (Config.freeValue s.free, { s with free := s.free + 1 })

/-- The logical cells of a suite's bays (R19). -/
def suiteBays (s : State) (i : Nat) : List Nat :=
  (List.range 32).filter (fun b => (s.bay b).owner.any (fun o => o.val == i))
def suiteCells (s : State) (i : Nat) : List Nat := (suiteBays s i).flatMap bayCells

/-- The suite of a cell as a number. -/
def cellSuite (x : Cell) : Option Nat := x.suite.map (·.val)

/-! ### Interrupts, records and logs -/

/-- Number of a function: the PF 0, the VF of suite s 1 + s. -/
def fnIx : HostFn → Nat
  | .pf => 0
  | .vf s => 1 + s.val

/-- A vector of a function's MSI-X table. -/
def State.vector (s : State) (f : HostFn) (v : Nat) : MsixVector := sget {} s.pcie.vectors (8 * fnIx f + v)

/-- An MSI-X message on vector v of a function (Table 14.14): a masked vector keeps it as its pending bit; without a link none is sent. -/
def State.msix (s : State) (f : HostFn) (v : Nat) : State :=
  let x := s.vector f v
  { s with
    out := { s.out with msix := if s.power.linkUp && !x.masked then s.out.msix ++ [(f, v)] else s.out.msix }
    pcie := if x.masked then { s.pcie with vectors := sset s.pcie.vectors (8 * fnIx f + v) { x with pending := true } } else s.pcie }

/-- Whether a function answers on the bus (R489, R491, R525): the link is trained, and the host has enabled its VF. -/
def State.answers (s : State) (f : HostFn) : Bool :=
  s.power.linkUp && (match f with
    | .pf => true
    | .vf i => decide (i.val < s.pcie.vfs))

/-- The value of a host read. -/
def State.giveRead (s : State) (v : W64) : State := { s with out := { s.out with readData := v } }

/-- The VF of a suite. -/
def vfOf (i : Nat) : HostFn := .vf (BitVec.ofNat 5 i).toFin

/-- UNIT of an error record (Table 16.3). -/
def unitCode : UnitRef → Nat
  | .cell c => c.val
  | .bay b => 0x10000 + b.val
  | .stream e c => 0x20000 + 256 * c.val + e.val
  | .memPort p pc => 0x30000 + 16 * (pc.map (fun n => n.val)).getD 0 + p.val
  | .gaconPort g l => 0x40000 + 16 * l.val + g.val
  | .hub => 0x50000
  | .core n => 0x60000 + n.val
  | .none => 0xFFFFF

/-- A 32-byte record laid out as Table 16.3; SEQ is filled in by the ring that takes it. -/
def errRecord (s : State) (ty code cls addr info unit : Nat) (suite : Option Nat) : W256 :=
  let b15 := 1 + (if suite.isNone then 4 else 0) + 8 * cls
  BitVec.ofNat 256
    (addr % 2 ^ 54 + info % 2 ^ 32 * 2 ^ 64 + 15 * 2 ^ 96 + 3 * 2 ^ 104 + (suite.getD 0) * 2 ^ 112 + b15 * 2 ^ 120
     + code % 256 * 2 ^ 128 + ty % 256 * 2 ^ 136 + s.part.toNat * 2 ^ 144 + s.part.toNat * 2 ^ 152
     + unit % 2 ^ 20 * 2 ^ 160 + s.tick.toNat % 2 ^ 32 * 2 ^ 224)

/-- A record with bytes 24–27 replaced by a sequence number (R556). -/
def withSeq (r : W256) (seq : W32) : W256 :=
  (r &&& ~~~ (BitVec.ofNat 256 ((2 ^ 32 - 1) * 2 ^ 192))) ||| (seq.setWidth 256 <<< 192)

/-- A ring of a given size takes a record; the oldest is overwritten when it is full (R557). size 0: no bound. -/
def ringPush (q : RecordRing) (size : Nat) (r : W256) : RecordRing :=
  let recs := q.records ++ [(q.next.toNat, withSeq r q.next)]
  if size ≠ 0 ∧ recs.length > size then
    let lost := match q.records.head? with
      | some x => decide (q.copied ≤ x.1)
      | none => false
    { q with next := q.next + 1, records := recs.drop 1, overwritten := if lost then satAdd q.overwritten 1 else q.overwritten }
  else { q with next := q.next + 1, records := recs }

/-- Bits set in a record that a ring still holds. -/
def ringMark (q : RecordRing) (seq : Nat) (m : W256) : RecordRing := { q with records := q.records.map (fun e => if e.1 = seq then (e.1, e.2 ||| m) else e) }

/-- A record of TYPE 0x01 to 0x09 enters the device error log, and but for TYPE 0x09 the error queue of its suite, which
raises VF vector 2 (R557). The device error log's size is not in the spec: it is unbounded (DESIGN CHOICE, log 10). -/
def State.addRecord (s : State) (ty : Nat) (suite : Option Nat) (r : W256) : State :=
  let s := { s with errLog := ringPush s.errLog 0 r }
  match suite with
  | some i =>
    if ty = 9 then s else
    (s.updSuite i (fun u => { u with errq := ringPush u.errq 512 r })).msix (vfOf i) 2
  | none => s

/-- An error record (Tables 16.3, 16.4). -/
def State.report (s : State) (ty code cls addr info : Nat) (unit : UnitRef) (suite : Option Nat) : State :=
  s.addRecord ty suite (errRecord s ty code cls addr info (unitCode unit) suite)

/-- A suite error: TYPE 0x05, class 0 (R552). -/
def State.suiteError (s : State) (code addr info : Nat) (unit : UnitRef) (suite : Option Nat) : State :=
  s.report 5 code 0 addr info unit suite

/-- An event of the device event log, which raises PF vector 1 (R638, Table 16.4b). -/
def State.logEvent (s : State) (code addr info : Nat) (suite : Option Nat) : State :=
  { s with devLog := ringPush s.devLog 4096 (errRecord s 0 code 0 addr info 0xFFFFF suite) }.msix .pf 1

/-- INFO of a discarded write (Table 16.4b, code 0x01): through the PF, through a VF, or by an agent of the device. -/
def fnInfo : Option HostFn → Nat
  | some .pf => 0
  | some (.vf s) => 1 + 256 * s.val
  | none => 2

/-- A discarded write is logged (Table 16.4b, code 0x01). -/
def State.logDiscard (s : State) (f : Option HostFn) (addr : Nat) : State := s.logEvent 1 addr (fnInfo f) none

/-- A corrected error (TYPE 0x09) of a unit (R137, R256, Table 9.3). -/
def State.corrected (s : State) (code addr : Nat) (unit : UnitRef) (suite : Option Nat) : State :=
  s.report 9 code 0 addr 0 unit suite

/-! ### Counters -/

/-- Quanta (1/15 ns) of a cell cycle at a frequency step: 0.75, 1.0, 1.25 and 1.5 GHz (R513). -/
def cycleLen (step : BitVec 2) : Nat :=
  if step = 0 then 20 else if step = 1 then 15 else if step = 2 then 12 else 10

/-- The cell cycle length of a bay: by its suite's frequency step (R529), 1 GHz in a bay of no suite. -/
def State.bayCycle (s : State) (b : Nat) : Nat :=
  match (s.bay b).owner with
  | some i => cycleLen (s.suite i.val).freq.current
  | none => 15

/-- Addition of v to counter i: a wrap carries into the chained high half (R578), or waits for its overflow event (R579). -/
def bumpCounter (k : Counters) (i v : Nat) : Counters :=
  let x := (sget 0 k.ctr i).toNat + v
  let k' := { k with ctr := sset k.ctr i (BitVec.ofNat 48 x) }
  if x < 2 ^ 48 then k' else
  let hi := sget ⟨false, false, false, false, 0, 0⟩ k.sel (i + 1)
  if i % 2 = 0 ∧ hi.chain ∧ hi.enable then
    let y := (sget 0 k.ctr (i + 1)).toNat + x / 2 ^ 48
    { k' with ctr := sset k'.ctr (i + 1) (BitVec.ofNat 48 y)
              wrapped := if y < 2 ^ 48 then k'.wrapped else k'.wrapped ++ [i + 1] }
  else { k' with wrapped := k'.wrapped ++ [i] }

/-- Event ev with value v in each of some cycles of length len from now on: the counters that select it count (R577). EDGE counts a
value that is not 0 once, unless it was not 0 in the cycle before. unit is matched in the device block (R582). -/
def countEvent (k : Counters) (n ev unit v cycles now len : Nat) : Counters :=
  if k.frozen ∨ v = 0 ∨ cycles = 0 then k else
  (List.range n).foldl (fun k i =>
    match k.sel.find? (fun e => e.1 == i) with
    | none => k
    | some (_, q) =>
      if !q.enable || q.event.toNat != ev || q.unit.toNat != unit || (q.chain && i % 2 == 1) then k
      else if q.edge then
        let past := sget 0 k.prev i
        let k' := { k with prev := sset k.prev i (max past (now + cycles * len)) }
        if past ≠ 0 ∧ now ≤ past then k' else bumpCounter k' i 1
      else bumpCounter k i (v * cycles)) k

/-- An event of a cell's counters in some cycles from the present one on (Table 17.1, codes below 0x100). -/
def Cell.countFor (x : Cell) (ev v cycles : Nat) : Cell := { x with ctrs := countEvent x.ctrs 8 ev 0 v cycles (x.obs.wall + 1) 1 }
/-- An event of a cell's counters in the present cycle. -/
def Cell.count (x : Cell) (ev v : Nat) : Cell := x.countFor ev v 1
/-- Whether a bay's counters stop: a cell of the bay is LOADING (R581). -/
def State.bayStopped (s : State) (b : Nat) : Bool := (bayCells b).any (fun c => (s.cell c).state == .loading)
/-- An event of a bay's counters (codes 0x100–0x107). -/
def State.countBay (s : State) (b ev v : Nat) : State :=
  if s.bayStopped b then s
  else s.updBay b (fun x => { x with ctrs := countEvent x.ctrs 8 ev 0 v 1 (s.now / s.bayCycle b * s.bayCycle b + 1) (s.bayCycle b) })
/-- An event of the device counters (codes 0x200–0x213), which sample once a slot (R577). -/
def State.countDev (s : State) (ev unit v : Nat) : State :=
  { s with devCtrs := countEvent s.devCtrs 16 ev unit v 1 (s.now / 25 + 1) 1 }

/-! ### Sections and suites -/

/-- SECT_STATUS.RECOV: the current section is recoverable and R321 is met (Table 8.4, R322). -/
def sectRecov (u : Suite) : Bool :=
  match u.sections[u.feeder.current]? with
  | some x => x.recoverable && decide (u.freq.rfloor ≤ u.freq.current) && decide (u.freq.rfloor ≤ u.freq.ceiling)
  | none => false

/-- Whether the effects of a suite are staged, and its messages retained: a recoverable section is open (R317, R318). -/
def staging (u : Suite) : Bool := sectRecov u && u.feeder.isOpen

/-- How a suite answers a fault or a unit error (R553–R555): cls 1 asks for a recovery, or joins the one whose detect phase has not ended; 2 is
suite-fatal. A unit that was checked, and a cell whose fault is recovered from, waits for its quick test. -/
def State.suiteFault (s : State) (i : Nat) (cls : Nat) (job : Bool) (fault : Option (Nat × Nat × Nat × Nat)) (check : Option UnitTest) : State :=
  s.updSuite i (fun u =>
    let r := { u.recov with tests := u.recov.tests ++ check.toList }
    if cls = 2 ∨ (r.active ∧ r.phase ≠ 1) then { u with recov := { r with fatal := true, job := r.job || job } } else
    let r := { r with tests := r.tests ++ (fault.map (fun f => (⟨.datapath (BitVec.ofNat 12 f.1).toFin, none⟩ : UnitTest))).toList }
    if r.active ∨ r.requested then { u with recov := r }
    else { u with recov := { r with requested := true, fault := fault, unit := check.map (fun t => t.unit), started := s.now } })

/-- Class of a cell fault (R553, R554) and whether it is a job fault. -/
def faultClass (u : Suite) (c cause detail pc : Nat) : Nat × Bool :=
  let repeated := u.recov.redo && u.recov.fault == some (c, cause, detail, pc)
  if sectRecov u && !repeated then (1, false) else (2, cause != 2 && cause != 5)

/-- Domain address of a scratchpad address of a cell (Table 1.5, R38). -/
def spadAddr (s : State) (c a : Nat) : Nat := s.part.toNat * 2 ^ 48 + 0x010000000000 + c * 2 ^ 22 + a

/-- The cell number as an operand type. -/
def cellId (c : Nat) : CellId := (BitVec.ofNat 12 c).toFin
def bayId (b : Nat) : BayId := (BitVec.ofNat 5 b).toFin

/-- What a fault record says of the instruction it is recorded on. -/
structure FaultAt where
  handler : Bool
  op : Nat
  pc : Nat
  loops : List Nat
  depth : Nat
  mode : BitVec 4
  cycle : Nat

/-- Taking a cell fault (R94): the record is completed (R95, R96) and VALID set, the cell enters FAULTED and no later
instruction issues in either context (R89), and the bay is signalled: an error record of TYPE 0x02 and the suite's answer. -/
def State.takeFault (s : State) (c cause detail addr : Nat) (exec : Bool) (f : FaultAt) : State :=
  let x := s.cell c
  if x.state == .faulted then s else
  let r : FaultRec :=
    { valid := true, handler := f.handler, cause := BitVec.ofNat 3 cause, exec := exec, detail := BitVec.ofNat 8 detail
      opcode := BitVec.ofNat 8 f.op, pc := BitVec.ofNat 9 f.pc
      depth := if f.handler then 0 else BitVec.ofNat 3 f.depth, mode := f.mode
      loops := if f.handler then [0, 0, 0, 0] else (List.range 4).map (fun i => BitVec.ofNat 24 (nth f.loops i 0))
      cycle := BitVec.ofNat 4 (f.cycle % 16), beat := BitVec.ofNat 32 (f.cycle / 16), addr := BitVec.ofNat 48 addr }
  let s := s.setCell c { x with fault := r, state := .faulted }
  match cellSuite x with
  | none => s
  | some i =>
    let (cls, job) := faultClass (s.suite i) c cause detail f.pc
    let info := detail + 256 * (f.op % 256) + 2 ^ 16 * (f.pc % 512) + 2 ^ 25 * b2n f.handler + 2 ^ 26 * b2n exec
    (s.report 2 cause cls (if cause = 5 then 0 else addr) info (.cell (cellId c)) (some i)).suiteFault i cls job
      (some (c, cause, detail, f.pc)) none

/-- The schedule cycle that CELL_BEAT shows (R62). -/
def Seq.schedCycle (q : Seq) : Nat := q.cyc - q.stood

/-- The loop counters in order of depth, outermost first. -/
def loopCounters (q : Seq) : List Nat := q.loops.map (·.counter)

/-- Fault data of a main-context instruction at pc. -/
def mainAt (q : Seq) (op pc : Nat) : FaultAt := ⟨false, op, pc, loopCounters q, q.loops.length, q.mode, q.schedCycle⟩
/-- Fault data of a handler instruction (R96). -/
def handlerAt (q : Seq) (op pc : Nat) : FaultAt := ⟨true, op, pc, [], 0, q.mode, q.schedCycle⟩
/-- Fault data of an issued instruction (R95). -/
def issuedAt (i : Issued) : FaultAt := ⟨i.ctx == .handler, wOp i.word, i.pc, i.loops, i.depth, i.mode, i.cycle⟩

/-! ### Configuration words -/

/-- Word k of the configuration store. -/
def Cell.cfgWord (x : Cell) (k : Nat) : W32 := sget 0 x.cfg.store k
/-- Whether a word of the configuration store fails its parity (R46). -/
def Cell.parityBad (x : Cell) (k : Nat) : Bool := sget false x.cfg.parity k != parityOf 32 (x.cfgWord k).toNat
/-- A configuration word written, with its parity bit (R46). -/
def Cell.putCfg (x : Cell) (k : Nat) (v : W32) : Cell :=
  { x with cfg := { x.cfg with store := sset x.cfg.store k v, parity := sset x.cfg.parity k (parityOf 32 v.toNat) } }
/-- Constant word k (Table 2.2). -/
def Cell.const (x : Cell) (k : Nat) : Nat := (x.cfgWord (0xE80 + k)).toNat
/-- Instruction i of the program store (R45). -/
def Cell.instr (x : Cell) (i : Nat) : BitVec 128 :=
  BitVec.ofNat 128 ((x.cfgWord (4 * i)).toNat + 2 ^ 32 * (x.cfgWord (4 * i + 1)).toNat + 2 ^ 64 * (x.cfgWord (4 * i + 2)).toNat
    + 2 ^ 96 * (x.cfgWord (4 * i + 3)).toNat)
/-- The first word of instruction i that fails its parity. -/
def Cell.instrBad (x : Cell) (i : Nat) : Option Nat := ([4 * i, 4 * i + 1, 4 * i + 2, 4 * i + 3]).find? x.parityBad
/-- Byte b of queue q's descriptor (Table 10.3). While a cell is LOADING its valid queues keep the descriptors of the last commit, though the
next section's are on their way into the store (R386, R393). -/
def Cell.qdesc (x : Cell) (q b : Nat) : Nat :=
  let stored := nbits (x.cfgWord (0xA00 + 4 * q + b / 4)).toNat (8 * (b % 4)) 8
  if x.state == .loading then (match x.cfg.qdescs.find? (fun (e : Nat × List Nat) => e.1 == q) with
    | some e => nth e.2 b 0
    | none => stored)
  else stored
/-- Whether queue q is valid: its descriptor's VALID, kept at commit (R385). -/
def Cell.qValid (x : Cell) (q : Nat) : Bool := x.cfg.queueValid.contains q
/-- Whether a receive channel is bound to a valid queue (R369). -/
def Cell.bound (x : Cell) (ch : Nat) : Option Nat :=
  x.cfg.queueValid.find? (fun q => nbit (x.qdesc q 2) 3 && x.qdesc q 2 % 8 == ch)

/-- Output entry i of the route table (Table 7.2) and input entry i (Table 7.3), i = 64 × port + 16 × track + phase. -/
def Cell.outEntry (x : Cell) (i : Nat) : Nat := nbits (x.cfgWord (0x800 + i / 2)).toNat (16 * (i % 2)) 16
def Cell.inEntry (x : Cell) (i : Nat) : Nat := nbits (x.cfgWord (0x8A0 + i / 2)).toNat (16 * (i % 2)) 16
/-- Whether output or input track j = 4 × port + track is a landing track (R261). -/
def Cell.outLanding (x : Cell) (j : Nat) : Bool := nbit (x.cfgWord 0x940).toNat j
def Cell.inLanding (x : Cell) (j : Nat) : Bool := nbit (x.cfgWord 0x941).toNat j

/-- Whether a cell has an output (spine outlet) or input (spine inlet) track j = 4 × port + track (R254). -/
def hasTrack (out : Bool) (c j : Nat) : Bool :=
  decide (j < 16) || (decide (j < 20) && (if out then cellLx c == 15 else cellLx c == 0))

/-- The port of the first output entry that names a send channel, or of the first input entry that names a receive channel (R367), of the
entries that act: on a track that the cell has (R262), and for input not on a landing track (R261) nor to the router (R374). -/
def Cell.channelPort (x : Cell) (c : Nat) (send : Bool) (ch : Nat) : Option Nat :=
  (findBelow 320 (fun i =>
    let j := i / 16
    hasTrack send c j &&
      (if send then (let e := x.outEntry i; decide (nbits e 15 1 = 1 ∧ nbits e 13 2 = 1 ∧ nbits e 5 3 = ch))
       else (let e := x.inEntry i; decide (nbits e 14 2 = 1 ∧ nbits e 6 3 = ch) && !x.inLanding j && !(j % 4 == 2 && ch == 7))))).map (· / 64)

/-- A bit of a port mask set. -/
def setPortBit (m : BitVec 5) (p : Nat) : BitVec 5 := m ||| BitVec.ofNat 5 (2 ^ p)

/-! ### Pane tags, poisoning and zones -/

/-- The tag of a pane. -/
def Cell.tag (x : Cell) (g : Nat) : Tag := sget .empty x.tags g
/-- Panes that the section touches (R563). -/
def Cell.touch (x : Cell) (gs : List Nat) : Cell :=
  { x with touched := gs.foldl (fun l g => if l.contains g then l else g :: l) x.touched }
/-- A pane's tag set; the pane is touched. -/
def Cell.setTag (x : Cell) (g : Nat) (t : Tag) : Cell :=
  Cell.touch { x with tags := if t = .empty then sdel x.tags g else sset x.tags g t } [g]

/-- The write-backs that wait for some words are dropped, for an agent has written them (R138). -/
def Cell.dropBacks (x : Cell) (written : Nat → Bool) : Cell :=
  { x with scrub := x.scrub.map (fun (e : Nat × Scrub) => (e.1, { e.2 with backs := e.2.backs.filter (fun b => !written b.1) })) }

/-- A pane cleared: zeros with valid check bits, tag EMPTY (R112). -/
def Cell.clearPane (x : Cell) (g : Nat) : Cell :=
  Cell.dropBacks { x with mem := mclear x.mem (g * 4096) (g * 4096 + 4096), check := mclear x.check (g * 1024) (g * 1024 + 1024)
                          tags := sdel x.tags g } (fun a => gPane a == g)

/-- The panes of a zone as global pane numbers. -/
def zonePanes (z : Zone) : List Nat := (List.range z.count.toNat).map (fun i => z.octant.toNat * 128 + z.pane.toNat + i)
/-- Zone z of a cell. -/
def Cell.zone (x : Cell) (z : Nat) : Zone := sget {} x.zones z
def Cell.setZone (x : Cell) (z : Nat) (v : Zone) : Cell := { x with zones := sset x.zones z v }
/-- Whether a pane lies in a valid landing zone. -/
def Cell.inZone (x : Cell) (g : Nat) : Bool := x.zones.any (fun e => e.2.valid && (zonePanes e.2).contains g)
/-- The lowest-numbered valid zone that holds a pane (R118). -/
def Cell.zoneOf (x : Cell) (g : Nat) : Option Nat := (x.zones.find? (fun e => e.2.valid && (zonePanes e.2).contains g)).map (·.1)

/-- The tag POISONED: the pane is not touched (R563); a pane that a scrubber poisons first is noted (R571). -/
def Cell.poison (x : Cell) (g : Nat) (scrub : Bool) : Cell :=
  if x.tag g == .poisoned then x else
  { x with tags := sset x.tags g .poisoned, scrubbed := if scrub then g :: x.scrubbed.filter (· != g) else x.scrubbed.filter (· != g) }

/-- A pane is poisoned (R139, Table 3.2): POISONED in a cell of a suite, cleared in a cell of none; logged as TYPE 0x04. -/
def State.poisonPane (s : State) (c g code : Nat) : State :=
  let x := s.cell c
  match cellSuite x with
  | none => (s.setCell c (x.clearPane g)).report 4 code 0 (spadAddr s c (paneAddr g)) 1 (.cell (cellId c)) none
  | some i => (s.setCell c (x.poison g (code == 1))).report 4 code 0 (spadAddr s c (paneAddr g)) 1 (.cell (cellId c)) (some i)

/-! ### Scratchpad words -/

/-- The stored data word at a word-aligned address, with its check bits. -/
def Cell.word (x : Cell) (a : Nat) : W32 × Byte := (BitVec.ofNat 32 (leNat (mreadN x.mem a 4)), mread x.check (a / 4))
/-- A word as the code reads it (R136). -/
def Cell.readWord (x : Cell) (a : Nat) : Decoded := decodeWord (x.word a).1 (x.word a).2
/-- A data word written with new check bits (R135). -/
def Cell.putWord (x : Cell) (a : Nat) (d : W32) : Cell :=
  { x with mem := mwriteN x.mem a (leBytes 4 d.toNat), check := mwrite x.check (a / 4) (checkOf d) }

/-- What a read of some words shows: the data by word address, the corrected words, and the uncorrectable ones. -/
structure WordsRead where
  words : SMap W32
  fixed : List (Nat × W32)
  bad : List Nat
  deriving DecidableEq, Repr

/-- The words at some word-aligned addresses (R136, R636). An uncorrectable word reads as it is stored. -/
def Cell.readWords (x : Cell) (as : List Nat) : WordsRead :=
  as.foldl (fun r a =>
    match x.readWord a with
    | .good d => { r with words := sset r.words a d }
    | .corrected d => { r with words := sset r.words a d, fixed := r.fixed ++ [(a, d)] }
    | .uncorrectable => { r with words := sset r.words a (x.word a).1, bad := r.bad ++ [a] }) ⟨[], [], []⟩

/-- Adjacent repeats dropped. -/
def dedup : List Nat → List Nat
  | [] => []
  | [a] => [a]
  | a :: b :: r => if a = b then dedup (b :: r) else a :: dedup (b :: r)

/-- The word addresses that hold some bytes. -/
def wordsOf (bytes : List Nat) : List Nat := dedup (bytes.map (fun a => a / 4 * 4))

/-- A byte from read words. -/
def WordsRead.byte (r : WordsRead) (a : Nat) : Byte := fld (sget 0 r.words (a / 4 * 4)) (a % 4 * 8) 8

/-- Corrected words are queued for write-back to the octant's scrubber, which holds 8, counted and logged (R137). -/
def State.fixWords (s : State) (c : Nat) (fixed : List (Nat × W32)) : State :=
  fixed.foldl (fun s e =>
    let s := s.updCell c (fun x =>
      let o := aOctant e.1
      let q := sget {} x.scrub o
      ({ x with scrub := if q.backs.length < 8 then sset x.scrub o { q with backs := q.backs ++ [e] } else x.scrub }).count 0x033 1)
    s.corrected 1 (spadAddr s c e.1) (.cell (cellId c)) (cellSuite (s.cell c))) s

/-- The scrub period of a tick count (R140). -/
def scrubPeriod (tick : W64) : Nat := tick.toNat / 50000000

/-- Uncorrectable words that a read gave are kept for their scrub period (R559). -/
def State.noteBad (s : State) (c : Nat) (bad : List Nat) : State :=
  let k := scrubPeriod s.tick
  if bad.isEmpty then s else s.updCell c (fun x => { x with uncorr := (k, (if x.uncorr.1 = k then x.uncorr.2 else []) ++ bad) })

/-- Whether a cell gave uncorrectable words at two distinct bank addresses of one subarray within a scrub period (R99, R100, R559). -/
def Cell.macroBad (x : Cell) (period : Nat) : Bool :=
  decide (x.uncorr.1 = period) && x.uncorr.2.any (fun a => x.uncorr.2.any (fun b =>
    a / 2 ^ 19 == b / 2 ^ 19 && (a / 128 + a / 4) % 32 == (b / 128 + b / 4) % 32 && a % 2 ^ 19 / 2 ^ 14 == b % 2 ^ 19 / 2 ^ 14 && a / 128 != b / 128))

/-- Bits written to bytes: address, mask of the bits, value. Whole words are stored with new check bits, a word written in part is
merged into its corrected old value (R106, R225); a write-back that waits for a written word is dropped (R138). -/
def Cell.putBits (x : Cell) (bs : List (Nat × Byte × Byte)) : Cell :=
  let as := wordsOf (bs.map (·.1))
  let x' := as.foldl (fun y a =>
    let old := match x.readWord a with
      | .good d => d
      | .corrected d => d
      | .uncorrectable => (x.word a).1
    let mine := bs.filter (fun e => e.1 / 4 == a / 4)
    let d := mine.foldl (fun (d : W32) (e : Nat × Byte × Byte) =>
      let k := e.1 % 4 * 8
      (d &&& ~~~ (e.2.1.setWidth 32 <<< k)) ||| ((e.2.2 &&& e.2.1).setWidth 32 <<< k)) old
    y.putWord a d) x
  x'.dropBacks as.contains

/-- Whole bytes written. -/
def Cell.putBytes (x : Cell) (bs : List (Nat × Byte)) : Cell := x.putBits (bs.map (fun e => (e.1, 0xFF, e.2)))

/-! ### Zones -/

/-- An increase of LANDED or PROV_LANDED; a counter already saturated sets OVF (R125). The Bool reports it. -/
def zoneCount (z : Zone) (prov : Bool) : Zone × Bool :=
  if prov then
    (if z.provLanded = 0xFFFFFF then ({ z with ovf := true }, true) else ({ z with provLanded := z.provLanded + 1 }, false))
  else (if z.landed = 0xFFFFFF then ({ z with ovf := true }, true) else ({ z with landed := z.landed + 1 }, false))

/-- Commit of zone z (R128) or void (R129); a zone whose VALID is 0 is unchanged and the notice logged (R130). -/
def State.zoneNotice (s : State) (c z : Nat) (commit : Bool) : State :=
  let x := s.cell c
  let v := x.zone z
  if !v.valid then s.logEvent 5 (spadAddr s c 0) z (cellSuite x) else
  let x := (zonePanes v).foldl (fun x g => if x.tag g = .provisional then x.setTag g (noticeTag .provisional commit) else x) x
  let sum := v.landed.toNat + v.provLanded.toNat
  let excess := commit && decide (0xFFFFFF < sum)
  let v := { v with provLanded := 0, pgen := v.pgen + 1, ovf := v.ovf || excess
                    landed := if commit then BitVec.ofNat 24 (min sum 0xFFFFFF) else v.landed }
  let s := s.setCell c (x.setZone z v)
  if excess then s.suiteError 7 (spadAddr s c 0) z (.cell (cellId c)) (cellSuite x) else s

/-- A mode change of a zone takes effect (R132): naming the mode in force changes nothing. -/
def zoneMode (v : Zone) (credit : Bool) : Zone :=
  if v.mode = credit then v else { v with mode := credit, credits := 0, partner := none }

/-- Whether CELL_STATUS.STATE reads HELD (Table 2.5, R275, R312): the suite's hold is in force, and the cell runs, has halted or has
faulted. -/
def Cell.frozen (x : Cell) : Bool := x.held && (x.state == .running || x.state == .halted || x.state == .faulted)

/-- Whether a cell is RUNNING or HELD: it keeps to schedule time (R130, R132) and accepts landing strips (R123). -/
def Cell.onSchedule (x : Cell) : Bool := x.state == .running || x.frozen

/-- Number of a cell's present clock cycle, whatever its schedule does. -/
def State.wallCycle (s : State) (c : Nat) : Nat := s.now / s.bayCycle (cellBay c)

/-- The next schedule beat's number: a request takes effect in its cycle 0. In a hold it is the held beat, which has not begun (R130, R132). -/
def Cell.nextBeat (x : Cell) : Nat := if x.frozen then cdiv x.seq.cyc 16 else x.seq.cyc / 16 + 1

/-- A commit or void request on a zone (R130): it waits for cycle 0 of the beat it names or of the next beat; in a cell that is neither
RUNNING nor HELD, for the cycle after its arrival. -/
def State.requestNotice (s : State) (c z : Nat) (commit : Bool) (beat : Option Nat) : State :=
  let x := s.cell c
  let n : ZoneNotice :=
    if x.onSchedule then
      ⟨commit, false, 16 * (match beat with
        | some b => if x.seq.cyc ≤ 16 * b then b else x.nextBeat
        | none => x.nextBeat)⟩
    else ⟨commit, true, (s.wallCycle c + 1) * s.bayCycle (cellBay c)⟩
  s.setCell c (x.setZone z { x.zone z with notices := (x.zone z).notices ++ [n] })

/-- The notices of a zone that some test finds due take effect: voids, or where there is none commits; a commit that meets a void of its
cycle is discarded (R130). -/
def State.applyNotices (s : State) (c z : Nat) (due : ZoneNotice → Bool) : State :=
  let v := (s.cell c).zone z
  let (now, later) := v.notices.partition due
  if now.isEmpty then s else
  let s := s.setCell c ((s.cell c).setZone z { v with notices := later })
  let voids := now.filter (fun n => !n.commit)
  (if voids.isEmpty then now else voids).foldl (fun s n => s.zoneNotice c z n.commit) s

/-- A mode request on a zone (R132). A request that comes before an earlier one has taken effect takes its place (DESIGN CHOICE, log 92:
the spec names no rule for two). -/
def State.requestMode (s : State) (c z : Nat) (credit : Bool) : State :=
  s.updCell c (fun x =>
    let v := x.zone z
    if x.onSchedule then x.setZone z { v with modeReq := some (credit, x.nextBeat) } else x.setZone z (zoneMode v credit))

/-- A grant of credits: nothing in normal service; otherwise CREDITS rises, saturating (R131). -/
def grantZone (v : Zone) (n : Nat) : Zone := if v.mode then { v with credits := satAdd v.credits n } else v

/-! ### Messages -/

/-- A message laid out as Table 10.2. -/
def message (addr len format kind suite flags tag srcPart dstPart srcQ dstQ user : Nat) : W256 :=
  BitVec.ofNat 256
    (addr % 2 ^ 54 + len % 2 ^ 32 * 2 ^ 64 + format * 2 ^ 96 + kind * 2 ^ 104 + suite * 2 ^ 112 + flags * 2 ^ 120
     + tag % 2 ^ 16 * 2 ^ 128 + srcPart * 2 ^ 144 + dstPart * 2 ^ 152 + srcQ % 2 ^ 20 * 2 ^ 160 + dstQ % 2 ^ 20 * 2 ^ 192
     + user % 2 ^ 32 * 2 ^ 224)
def mAddr (m : W256) : Nat := (fld m 0 54).toNat
def mKind (m : W256) : Nat := (fld m 104 8).toNat
def mSuite (m : W256) : Nat := (fld m 112 5).toNat
def mRemote (m : W256) : Bool := m.getLsbD 121
def mTag (m : W256) : Nat := (fld m 128 16).toNat
def mSrcPart (m : W256) : Nat := (fld m 144 6).toNat
def mDstPart (m : W256) : Nat := (fld m 152 6).toNat
def mFormat (m : W256) : Nat := (fld m 96 4).toNat
def mSrcQueue (m : W256) : Nat := (fld m 160 20).toNat
def mDstQueue (m : W256) : Nat := (fld m 192 20).toNat
def mUser (m : W256) : Nat := (fld m 224 32).toNat
/-- SUITE, SRC_PART and REMOTE as the sending cell or hub fills them in (R371). -/
def stampMessage (m : W256) (suite part : Nat) : W256 :=
  let clear := BitVec.ofNat 256 (31 * 2 ^ 112 + 2 * 2 ^ 120 + 63 * 2 ^ 144)
  (m &&& ~~~ clear) ||| BitVec.ofNat 256 (suite * 2 ^ 112 + part * 2 ^ 144)

/-- A cell places an item in its outbound buffer, to go by the hub path (R377). -/
def State.toHub (s : State) (c : Nat) (i : HubItem) : State :=
  s.updCell c (fun x => { x with trk := { x.trk with outbound := x.trk.outbound ++ [i] } })

/-- The CREDIT message of a grant, which makes its queue the zone's credit partner (R380). -/
def State.sendCredit (s : State) (c z n part queue : Nat) : State :=
  let x := s.cell c
  let v := x.zone z
  let m := message (spadAddr s c (v.octant.toNat * 2 ^ 19 + v.pane.toNat * 4096)) n 15 1 ((cellSuite x).getD 0) 0 0 s.part.toNat part 0xFFFFF queue z
  (s.setCell c (x.setZone z { v with partner := some (BitVec.ofNat 6 part, BitVec.ofNat 20 queue) })).toHub c (.msg m)

/-! ### Sampling (R591) -/

/-- The record of a completion (Table 17.9). -/
def sampleRecord (s : State) (c : Nat) (i : Issued) : W256 :=
  let x := s.cell c
  BitVec.ofNat 256
    (s.tick.toNat + i.cycle / 16 % 2 ^ 32 * 2 ^ 64 + i.cycle % 16 * 2 ^ 96 + b2n (i.ctx == .handler) * 2 ^ 100 + wOp i.word * 2 ^ 104
     + c * 2 ^ 112 + i.pc * 2 ^ 128 + x.cfg.sect.toNat * 2 ^ 144 + (x.obs.wall - i.wall) % 2 ^ 32 * 2 ^ 160
     + (x.obs.heldCycles - i.heldAt) % 2 ^ 32 * 2 ^ 192 + x.epoch.toNat * 2 ^ 224)

/-- The countdown of a bay (R591): N with its six low bits random (log 1). -/
def State.seedCountdown (s : State) (b n : Nat) : State :=
  let (r, s) := s.fresh
  s.updBay b (fun y => { y with countdown := n / 64 * 64 + r.toNat % 64 })

/-- An eligible completion in a cell's bay (R576, R591): counted, and while sampling is on the one at which the countdown reaches 0 waits in the
bay as a sample. -/
def State.eligible (s : State) (c : Nat) (i : Issued) : State :=
  match cellSuite (s.cell c) with
  | none => s
  | some k =>
    let o := (s.suite k).obs
    let b := cellBay c
    let s := s.countBay b 0x103 1
    if !o.sampleEn then s else
    let s := if (s.bay b).countdown = 0 then s.seedCountdown b o.n.toNat else s
    if (s.bay b).countdown ≤ 1 then
      (s.updBay b (fun y => { y with eligible := y.eligible ++ [sampleRecord s c i] })).seedCountdown b o.n.toNat
    else s.updBay b (fun y => { y with countdown := y.countdown - 1 })

/-! ### Channels of the move/send unit -/

/-- A flit enters a send channel, or a full channel drops it (R365, R367). -/
def State.pushSend (s : State) (c ch : Nat) (f : Flit) : State :=
  let x := s.cell c
  let l := sget [] x.trk.sendCh ch
  if l.length < 20 then s.setCell c { x with trk := { x.trk with sendCh := sset x.trk.sendCh ch (l ++ [f]) } }
  else
    let excess := match x.channelPort c true ch with
      | some p => setPortBit x.trk.overrun p
      | none => x.trk.overrun
    (s.setCell c { x with trk := { x.trk with overrun := excess, sendBad := if x.trk.sendBad.contains ch then x.trk.sendBad else ch :: x.trk.sendBad } }).suiteError
      2 (spadAddr s c 0) ch (.cell (cellId c)) (cellSuite x)

/-- The header of a landing frame with the current PGEN of the sender's zone (R370). -/
def stampGen (x : Cell) (z : Nat) (f : Flit) : Flit :=
  { f with data := f.data ||| (((x.zone z).pgen.setWidth 256) <<< 40) }

/-- The bytes of a flit in address order (R365). -/
def flitBytes (f : Flit) : List Byte := leBytes 32 f.data.toNat

/-- A VALID, VOID flit that the hardware makes where none came: its data is open (log 1). -/
def State.voidFlit (s : State) : Flit × State :=
  let (a, s) := s.fresh
  let (b, s) := s.fresh
  let (c, s) := s.fresh
  let (d, s) := s.fresh
  (⟨(a.setWidth 256) ||| (b.setWidth 256 <<< 64) ||| (c.setWidth 256 <<< 128) ||| (d.setWidth 256 <<< 192), true, false, true, none⟩, s)

/-- n flits made where none came. -/
def State.voidFlits (s : State) : Nat → List Flit × State
  | 0 => ([], s)
  | n + 1 =>
    let (f, s) := s.voidFlit
    let (r, s) := s.voidFlits n
    (f :: r, s)

/-- A RECV takes the flits of a strip from its channel (R361, R368): missing flits are VOID, their data open (log 1). The bytes, and
whether a flit carries VOID. -/
def State.takeStrip (s : State) (c ch : Nat) : List Byte × Bool × State :=
  let x := s.cell c
  let l := sget [] x.trk.recvCh ch
  let bad := x.trk.recvBad.contains ch
  let got := (l.take 4).map (fun f => { f with void := f.void || bad })
  let short := 4 - got.length
  let s := s.setCell c { x with trk := { x.trk with recvCh := sset x.trk.recvCh ch (l.drop 4) } }
  let s := if short = 0 then s else s.suiteError 1 (spadAddr s c 0) ch (.cell (cellId c)) (cellSuite x)
  let (made, s) := s.voidFlits short
  let flits := got ++ made
  (flits.flatMap flitBytes, flits.any (·.void), s)

/-! ### Served sequences (R403, R428, R429) -/

/-- The sequence-table entries of a suite's blocks that are not FREE, by index. -/
def suiteSeqs (s : State) (u : Suite) : SMap SeqEntry := s.seqs.filter (fun e => u.seqBlocks.contains (e.1 / 1024))

/-- Whether a sequence is served (R429). -/
def isLive (e : SeqEntry) : Bool := e.state == .queued || e.state == .prefill || e.state == .decode

/-- SB_STATUS.X_OVER (R429). -/
def xOver (s : State) (u : Suite) : Bool := decide (u.sb.xSlots < ((suiteSeqs s u).filter (fun e => e.2.cls == 0 && isLive e.2)).length)

/-- Whether the conditions of R428 hold now that the part can see. -/
def r428Holds (s : State) (u : Suite) : Bool := sectRecov u && !xOver s u && !u.hold.overBudget && !u.hold.mgmtHold && !u.freq.protect

/-- A condition of R428 has failed in a suite's step. -/
def State.spoil (s : State) (i : Nat) : State := s.updSuite i (fun u => { u with sb := { u.sb with spoiled := true } })

end Sys2Proof.Machine
end

