-- ==== Sys2Proof/Machine/Exec.lean ====
section
/-!
DEFINITION. What the engines share (R58, R69, R91, R106, R225, R250): the strips of a range, and the plan of a started instruction, from
which Cycle carries it out cycle by cycle.
-/

namespace Sys2Proof.Machine

/-- A strip access of a range: offset of its first byte in the operand, and its byte addresses (R101–R105). -/
def extStripsGo (x : Ext) (nb : Nat) : Nat → Nat → List (Nat × List Nat)
  | 0, _ => []
  | fuel + 1, off =>
    if nb ≤ off then [] else
    let room := if x.mode = 2 then 128 - (x.addr + off) % 128 else 128
    let k := min room (nb - off)
    (off, (List.range k).map (fun j => extByte x (off + j))) :: extStripsGo x nb fuel (off + k)

/-- The strips that nb bytes of a range touch, in order. -/
def extStrips (x : Ext) (nb : Nat) : List (Nat × List Nat) := extStripsGo x nb (nb / 128 + 2) 0

/-- What an instruction does once started: its strip reads with their cycles, its last read and its last access, its strip writes, the
bytes of those writes in order from the strips read, what it delivers on its chain path (cycle, bytes; R212, R250), and the cycles in
which strips are sent and taken, with the flits of strip k (R361). -/
structure Plan where
  reads : List (Nat × List Nat)
  lastRead : Nat
  done : Nat
  slots : List WriteSlot := []
  bytes : List (List Byte) → List Byte := fun _ => []
  chain : List (Nat × Nat) := []
  sends : List Nat := []
  flits : List (List Byte) → Nat → List Flit := fun _ _ => []
  takes : List Nat := []

/-- A plan of no access that ends in cycle t. -/
def idlePlan (t : Nat) : Plan := { reads := [], lastRead := t, done := t }

/-- The word addresses that a slot writes only in part (R106, R225). -/
def mergingWords (w : WriteSlot) : List Nat :=
  (wordsOf w.addrs).filter (fun a => decide ((w.addrs.filter (fun b => b / 4 == a / 4)).length < 4)
    || (w.nib && (w.addrs.getLast?.map (· / 4) == some (a / 4))))

/-- Whether a slot is a merging write (R106). -/
def merging (w : WriteSlot) : Bool := !(mergingWords w).isEmpty

/-- The cycle in which a slot's bytes are stored: the second of a merging write (R106). -/
def storeCycle (w : WriteSlot) : Nat := if merging w then w.cycle + 1 else w.cycle

/-- A slot's bytes from the bytes of the result, at offset o. -/
def slotBits (w : WriteSlot) (o : Nat) (bs : List Byte) : List (Nat × Byte × Byte) :=
  let n := w.addrs.length
  let part := (bs.drop o).take n
  (w.addrs.zip (part ++ List.replicate (n - part.length) 0)).mapIdx (fun k e =>
    (e.1, if w.nib && k + 1 == n then 0x0F else 0xFF, e.2))

/-- Offsets of some slots in the result. -/
def slotOffsets : Nat → List WriteSlot → List (Nat × WriteSlot)
  | _, [] => []
  | o, w :: r => (o, w) :: slotOffsets (o + w.addrs.length) r

/-- Offsets of the strips that a chain path delivers. -/
def chainOffsets : Nat → List (Nat × Nat) → List (Nat × Nat × Nat)
  | _, [] => []
  | o, k :: r => (k.1, o, k.2) :: chainOffsets (o + k.2) r

/-- The last cycle in which some slots use their octants. -/
def slotsEnd (t : Nat) (ws : List WriteSlot) : Nat := ws.foldl (fun m w => max m (storeCycle w)) t

/-- Bytes split into n groups of k. -/
def groups (k : Nat) : Nat → List Byte → List (List Byte)
  | 0, _ => []
  | n + 1, l => l.take k :: groups k n (l.drop k)

/-- The strips of a chain path that come from one producer, delivered or due. -/
def chainOf (path : List (Nat × Nat × Option (List Byte))) (producer : Nat) : List (Nat × Option (List Byte)) :=
  (path.filter (fun k => k.1 == producer)).map (·.2)

/-- The bytes of the chained strips delivered so far, in order. -/
def chainBytes (ks : List (Nat × Option (List Byte))) : List Byte := ks.flatMap (fun k => k.2.getD [])

/-- The chain path that an engine takes S1 from (R250). -/
def Engines.pathTo (e : Engines) (g : Engine) : List (Nat × Nat × Option (List Byte)) := if g = .vector then e.chainMV else e.chainVR

/-- The chained bytes that an instruction in flight has been given. -/
def chainedBytes (x : Cell) (f : InFlight) : Option (List Byte) :=
  f.instr.chainedIn.map (fun p => chainBytes (chainOf (x.eng.pathTo f.engine) p))

/-- The first n elements of width w of a byte string (R107). -/
def elems (w n : Nat) (bs : List Byte) : List Nat :=
  if w = 4 then
    (let ns := bs.flatMap (fun b => [b.toNat % 16, b.toNat / 16])
     ns.take n ++ List.replicate (n - ns.length) 0)
  else (groups (w / 8) n bs).map leNat

/-- Two nibbles a byte. -/
def packNibbles : List Nat → List Byte
  | [] => []
  | [a] => [BitVec.ofNat 8 (a % 16)]
  | a :: b :: r => BitVec.ofNat 8 (a % 16 + 16 * (b % 16)) :: packNibbles r

/-- The bytes of elements of width w (R107). -/
def packElems (w : Nat) (es : List Nat) : List Byte :=
  if w = 4 then packNibbles es else es.flatMap (leBytes (w / 8))

/-- The draw's u for element e of an issued instruction (R167, R168). -/
def drawOf (x : Cell) (i : Issued) (e : Nat) : Nat :=
  philox (e / 4) (i.cycle / 16 % 2 ^ 32) (i.cycle % 16 * 2 ^ 28 + x.vcell.toNat) x.epoch.toNat (nth i.consts 3 0) (nth i.consts 4 0) (e % 4) / 256

/-- MODE.ROUND of an issued instruction (R77). -/
def roundOf (i : Issued) : Nat := (fld i.mode 0 2).toNat

/-- The bits of an IMMEDIATE source in a format (R223): a literal converted to nearest even, or the low bits of a constant word. -/
def immBits (f : Fmt) (v const : Nat) : Nat :=
  if isConstRef v then const % 2 ^ fmtWidth f else encodeVal f 0 0 (.fin (oLiteral v) 0)

end Sys2Proof.Machine
end

