-- ==== Sys2Proof/Machine/VectorUnit.lean ====
section
/-!
DEFINITION. What the vector engine computes and when (R221–R238, R246, R247, R250): element operations, block formats, and the plan
of a started vector instruction.
-/

namespace Sys2Proof.Machine

/-- Latency after the last producing step (Table 6.7). -/
def vecLat (op : Nat) : Nat :=
  if op = 0x42 ∨ op = 0x49 ∨ op = 0x70 ∨ op = 0x71 then 5
  else if op = 0x48 then 6
  else if op = 0x52 then 4
  else if 0x59 ≤ op ∧ op ≤ 0x5D then 6
  else if 0x68 ≤ op ∧ op ≤ 0x6D then 12
  else if op = 0x78 then 14
  else 3

/-- Whether an encoding is neither +0 nor −0 (R231). -/
def nonZero (f : Fmt) (b : Nat) : Bool := if isFP f then b % 2 ^ (fmtWidth f - 1) != 0 else b != 0

/-- One element of an elementwise operation (R227, R229–R231, R237): a, b, d are the encodings of S1, S2 and D, c of the constant. VFMA reads its
addend D in DFMT, the format it is stored in (DESIGN CHOICE, log 92). -/
def vecElem (w : BitVec 128) (rm u : Nat) (a b d c : Nat) : Nat :=
  let op := wOp w
  let sf := wSfmt w
  let df := wDfmt w
  let va := decodeVal sf a
  let vb := decodeVal sf b
  let out := encodeVal df rm u
  if op = 0x40 then out (fAdd va vb)
  else if op = 0x41 then out (fAdd va (fNeg vb))
  else if op = 0x42 then out (fMul va vb)
  else if op = 0x43 then out (fMax va vb)
  else if op = 0x44 then out (fMin va vb)
  else if op = 0x45 then out (fAbs va)
  else if op = 0x46 then out (fNeg va)
  else if op = 0x48 then out (fAdd (fMul va vb) (decodeVal df d))
  else if op = 0x49 then out (fAdd (fMul va vb) (decodeVal sf c))
  else if op = 0x50 then (if fCond (wE w 12 3) va vb then encodeVal df 0 0 (.fin 1 0) else 0)
  else if op = 0x51 then out (if xor (fCond (wE w 12 3) va vb) (wE w 15 1 == 1) then va else decodeVal sf c)
  else if op = 0x52 then out (if nonZero df d then va else vb)
  else if op = 0x58 then out va
  else if op = 0x68 then fnExp2 rm u va
  else if op = 0x69 then fnLog2 rm u va
  else if op = 0x6A then fnRsqrt rm u va
  else if op = 0x6B then fnRcp rm u va
  else if op = 0x6C then fnTanh rm u va
  else fnSigm rm u va

/-- VBSHUF of one word's bytes (Table 6.3). -/
def shufWord (sel : Nat) (b : List Nat) : List Nat := (List.range 4).map (fun k => nth b (nbits sel (2 * k) 2) 0)

/-- VXP4 of 16 bytes (R236): byte j of word i comes from byte i of word j. -/
def transpose4 (b : List Nat) : List Nat := (List.range 16).map (fun k => nth b (4 * (k % 4) + k / 4) 0)

/-- Numbers split into n groups of k. -/
def groupsN (k : Nat) : Nat → List Nat → List (List Nat)
  | 0, _ => []
  | n + 1, l => l.take k :: groupsN k n (l.drop k)

/-- A block operation's result: the code or exponent of each block, and the elements in source order. -/
structure Blocks where
  side : List Nat
  elems : List Nat
  deriving DecidableEq, Repr

/-- The element numbers of block b (R233): 32 in a row, or position b of each of 32 rows of Q. -/
def blockIx (axis : Bool) (q b : Nat) : List Nat :=
  (List.range 32).map (fun k => if axis then k * q + b else 32 * b + k)

/-- Element values put back in source order from their blocks. -/
def unblock (axis : Bool) (n : Nat) (bs : List (List Nat)) : List Nat :=
  let q := n / 32
  (List.range n).map (fun e => if axis then nth (nth bs (e % q) []) (e / q) 0 else nth (nth bs (e / 32) []) (e % 32) 0)

/-- Per-block work over the element encodings of the source: codes and element encodings of width ew. -/
def blockMap (axis : Bool) (n ew : Nat) (f : Nat → List Nat → Nat × List Int) : Blocks :=
  let rs := (List.range (n / 32)).map (fun b => f b (blockIx axis (n / 32) b))
  ⟨rs.map (·.1), unblock axis n (rs.map (fun r => r.2.map (encInt ew)))⟩

/-- Address of the side byte or half-word of element e (R149, R150, R191): base, side strips per pane, bytes per side element,
elements per row, start row. AXIS 1 places block b at position e0 + b of one pane. -/
def sideAddr (base strips size m r0 : Nat) (e : Nat) : Nat :=
  let row := r0 + e / m
  base / 128 * 128 + 128 * strips * (row / 32) + (row % 32 * (m / 32) + e % m / 32) * size

/-- Grouping of some addresses by 128-byte strip, kept in order. -/
def byStrip (as : List (Nat × Nat)) : List (Nat × List Nat) :=
  as.foldl (fun l a =>
    match l.reverse with
    | (e, g) :: r =>
      (match g with
       | h :: _ => if h / 128 = a.2 / 128 then (r.reverse ++ [(e, g ++ [a.2])]) else l ++ [(a.1, [a.2])]
       | [] => l ++ [(a.1, [a.2])])
    | [] => [(a.1, [a.2])]) []

/-- Writes of nb bytes to a range: a strip is written in the cycle that its last byte gives (R247). nib: the last byte holds one
4-bit element (R225). -/
def writeStrips (x : Ext) (nb : Nat) (nib : Bool) (cycleOf : Nat → Nat) : List WriteSlot :=
  (extStrips x nb).map (fun s => ⟨cycleOf (s.1 + s.2.length - 1), s.2, nib && s.1 + s.2.length == nb⟩)

/-- The strips of nb bytes on a chain path: cycle and bytes of each (R250). -/
def chainStrips (nb : Nat) (cycleOf : Nat → Nat) : List (Nat × Nat) :=
  (List.range (cdiv nb 128)).map (fun k => (cycleOf (min (128 * k + 127) (nb - 1)), min 128 (nb - 128 * k)))

/-- The cycle of the last of some strip reads (R247), or t when there is none. -/
def readsEnd (t : Nat) (reads : List (Nat × List Nat)) : Nat := reads.foldl (fun m r => max m r.1) t

/-- The plan of an elementwise, shuffle, function, pair or draw instruction that starts in cycle t; ch: the chained bytes of S1. A VRAND takes
its key and counter in the first step; each 128-byte row that they touch is an access (R105). -/
def vecPlain (x : Cell) (i : Issued) (t : Nat) (ch : Option (List Byte)) : Plan :=
  let w := i.word
  let op := wOp w
  let n := i.n
  let sw := fmtWidth (wSfmt w)
  let pair := op = 0x70 ∨ op = 0x71
  let dw := if pair then 64 else fmtWidth (wDfmt w)
  let lanes := vecStep w
  let pace := vecPace op
  let at_ := fun e => t + e / lanes * pace
  let rd := fun (v nb ew late : Nat) =>
    if oMode v = 3 then [] else (extStrips (extOf v nb) nb).map (fun s => (at_ (s.1 * 8 / ew) + late, s.2))
  let inplace := op = 0x48 ∨ op = 0x52
  let two := elemS2 op
  let draw := fun (v nb : Nat) => (extStrips (extOf v nb) nb).map (fun s => (t, s.2))
  let r1 := if op = 0x78 then draw (wS1 w) 8 else if ch.isSome then [] else rd (wS1 w) (bytesOf n sw) sw 0
  let r2 := if op = 0x78 then draw (wS2 w) 16 else if two then rd (wS2 w) (bytesOf n sw) sw 0 else []
  let rD := if inplace then rd (wD w) (bytesOf n dw) dw 1 else []
  let rm := roundOf i
  let u := fun e => if rm = 2 then drawOf x i e else 0
  let src := fun (v k : Nat) (bs : List Byte) (chained : Bool) =>
    if oMode v = 3 ∧ !chained then List.replicate n (immBits (wSfmt w) v (nth i.consts k 0)) else elems sw n bs
  let values := fun (data : List (List Byte)) =>
    let b1 := (data.take r1.length).flatten
    let b2 := ((data.drop r1.length).take r2.length).flatten
    let bD := (data.drop (r1.length + r2.length)).flatten
    if op = 0x78 then
      let c := fun k => leAt b2 (4 * k) 4
      (List.range n).map (fun e =>
        let p := philox ((c 0 + e / 4) % 2 ^ 32) (c 1) (c 2) (c 3) (leAt b1 0 4) (leAt b1 4 4) (e % 4)
        encodeVal 0 0 0 (.fin (p / 256 : Nat) (-24)))
    else
      let s1 := src (wS1 w) 0 (ch.getD b1) ch.isSome
      if op = 0x60 then ((groupsN 4 (n / 4) s1).map (shufWord (wE w 0 8))).flatten
      else if op = 0x61 then ((groupsN 16 (n / 16) s1).map transpose4).flatten
      else
        let s2 := if two then src (wS2 w) 1 b2 false else List.replicate n 0
        let dd := if inplace then elems dw n bD else List.replicate n 0
        let k := nth i.consts 2 0 % 2 ^ sw
        if pair then ((s1.zip s2).map (fun p =>
          let r := if op = 0x70 then twoSum p.1 p.2 else fastTwoSum p.1 p.2
          r.1 + 2 ^ 32 * r.2))
        else ((s1.zip (s2.zip dd)).mapIdx (fun e p => vecElem w rm (u e) p.1 p.2.1 p.2.2 k))
  let nb := bytesOf n dw
  let cyc := fun off => at_ (min (n - 1) (off * 8 / dw)) + vecLat op
  let slots := if wChain w then [] else writeStrips (extOf (wD w) nb) nb (dw = 4 && n % 2 = 1) cyc
  { reads := r1 ++ r2 ++ rD
    lastRead := readsEnd t (r1 ++ r2 ++ rD)
    done := slotsEnd (at_ (n - 1) + vecLat op) slots
    slots := slots
    bytes := fun data => packElems dw (values data)
    chain := if wChain w then chainStrips nb cyc else [] }

/-- The plan of VQUANT, VDEQ, VMXI, VMXE or VSLICE (R152–R155, R177–R180, R233–R235). A VSLICE with SIDE 0 reads its side strips as sources
(R234) and takes G from the group itself (DESIGN CHOICE, log 92). -/
def vecBlock (x : Cell) (i : Issued) (t : Nat) (ch : Option (List Byte)) : Plan :=
  let w := i.word
  let op := wOp w
  let n := i.n
  let sf := wSfmt w
  let df := wDfmt w
  let sw := fmtWidth sf
  let dw := fmtWidth df
  let lanes := vecStep w
  let axis := (op = 0x59 ∨ op = 0x5A ∨ op = 0x5D) ∧ wE w 12 1 = 1
  let q := n / 32
  let at_ := fun e => t + e / lanes
  -- the blocked side: S1 for VDEQ, VMXI, VMXE, else D
  let srcBlocked := op = 0x5A ∨ op = 0x5B ∨ op = 0x5C
  let bv := if srcBlocked then wS1 w else wD w
  let bf := if srcBlocked then sf else df
  let bw := fmtWidth bf
  let m := 1024 / bw
  let e0 := aCol (oAddr bv) * (32 / bw)
  let strips := sideStrips bf
  let size := if bf = 12 then 2 else 1
  let sAddr := fun b => if axis then oAddr (wS2 w) / 128 * 128 + (e0 + b) * size
    else sideAddr (oAddr (wS2 w)) strips size m (aRow (oAddr bv)) (32 * b)
  let firstElem := fun b => if axis then b else 32 * b
  let sideBytes := byStrip ((List.range q).flatMap (fun b => (List.range size).map (fun k => (firstElem b, sAddr b + k))))
  let rowAddr := fun r => oAddr bv / 4096 * 4096 + r * 128 + e0 * bw / 8
  let rowLen := q * bw / 8
  let sideRead := srcBlocked ∨ (op = 0x5D ∧ wE w 8 1 = 0)
  let sideWrite := op = 0x59 ∨ (op = 0x5D ∧ wE w 8 1 = 1) ∨ (op = 0x5B ∧ df = 9) ∨ op = 0x5C
  let nb := bytesOf n sw
  let r1 : List (Nat × List Nat) :=
    if ch.isSome then []
    else if srcBlocked ∧ axis then (List.range 32).map (fun r => (at_ (r * q), (List.range rowLen).map (· + rowAddr r)))
    else if oMode (wS1 w) = 3 then []
    else (extStrips (extOf (wS1 w) nb) nb).map (fun s => (at_ (s.1 * 8 / sw), s.2))
  let rS := if sideRead then sideBytes.map (fun s => (at_ s.1, s.2)) else []
  let rm := roundOf i
  let u := fun e => if rm = 2 then drawOf x i e else 0
  let compute := fun (data : List (List Byte)) =>
    let b1 := ch.getD (data.take r1.length).flatten
    let bS := (data.drop r1.length).flatten
    let s1 := if oMode (wS1 w) = 3 ∧ ch.isNone then List.replicate n (immBits sf (wS1 w) (nth i.consts 0 0)) else elems sw n b1
    let code := fun b => (nth bS b 0).toNat
    let val := fun e => decodeVal sf (nth s1 e 0)
    let int := fun e => signedNat sw (nth s1 e 0)
    if op = 0x59 then
      blockMap axis n dw (fun _ ix => quantise (if df = 9 then 127 else 7) rm (fun k => u (nth ix k 0)) (ix.map val))
    else if op = 0x5D then
      blockMap axis n 8 (fun _ ix =>
        let vs := ix.map val
        let g := groupExp vs
        (g, vs.map (sliceDigit (wE w 11 1 == 1) (wE w 9 2) g)))
    else if op = 0x5A then
      ⟨[], (List.range n).map (fun e => encodeVal df rm (u e) (dequant (code (if axis then e % q else e / 32)) (int e)))⟩
    else if op = 0x5B ∧ df = 9 then
      blockMap false n 8 (fun b ix => mxToMb8 rm (fun k => u (nth ix k 0)) (code b) (ix.map int))
    else if op = 0x5B then
      ⟨[], (List.range n).map (fun e => encodeVal df rm (u e) (mxVal (code (e / 32)) (int e)))⟩
    else blockMap false n 8 (fun b ix => mb8ToMx rm (fun k => u (nth ix k 0)) (code b) (ix.map int))
  let lastStep := at_ (n - 1)
  let dstRows := axis ∧ !srcBlocked
  let nd := bytesOf n dw
  let dx := extOf (wD w) nd
  let cyc := fun off => at_ (min (n - 1) (off * 8 / dw)) + 6
  let elemSlots : List WriteSlot :=
    if dstRows then (List.range 32).map (fun j => ⟨lastStep + 6 + j, (List.range rowLen).map (· + rowAddr j), false⟩)
    else if axis then (extStrips dx nd).mapIdx (fun j s => ⟨lastStep + 6 + j, s.2, false⟩)
    else writeStrips dx nd false cyc
  let sideSlots : List WriteSlot :=
    if !sideWrite then [] else
    (byStrip ((List.range q).flatMap (fun b => (List.range size).map (fun k => (b * size + k, sAddr b + k))))).map (fun s =>
      let lastB := (s.1 + s.2.length - 1) / size
      ⟨if axis then lastStep + 6 + 31 else at_ (min (n - 1) (32 * lastB + 31)) + 6, s.2, false⟩)
  let slots := if wChain w then [] else elemSlots ++ sideSlots
  { reads := r1 ++ rS
    lastRead := readsEnd t (r1 ++ rS)
    done := slotsEnd (lastStep + 6 + (if axis then (if dstRows then 31 else cdiv nd 128 - 1) else 0)) slots
    slots := slots
    bytes := fun data =>
      let r := compute data
      packElems dw r.elems ++ r.side.flatMap (leBytes size)
    chain := if !wChain w then []
      else if dstRows then (List.range 32).map (fun j => (lastStep + 6 + j, rowLen))
      else if axis then (chainStrips nd id).mapIdx (fun j k => (lastStep + 6 + j, k.2))
      else chainStrips nd cyc }

/-- The plan of a vector instruction. -/
def vecPlan (x : Cell) (i : Issued) (t : Nat) (ch : Option (List Byte)) : Plan :=
  if 0x59 ≤ wOp i.word ∧ wOp i.word ≤ 0x5D then vecBlock x i t ch else vecPlain x i t ch

end Sys2Proof.Machine
end

