-- ==== Sys2Proof/Machine/MatrixUnit.lean ====
section
/-!
DEFINITION. What the matrix engine computes and when (R189–R220): operand layouts, the plan of a started instruction, its effect on
buffers and accumulator panes, and the interlocks of Table 5.6.
-/

namespace Sys2Proof.Machine

/-- The weight elements of an MLOAD from its 8 COL strips (R190): element (k, n) at 32 × k + n. -/
def weightElems (op : Nat) (strips : List (List Byte)) : SMap Int :=
  let byte := fun c i => (nth (nth strips c []) i 0).toNat
  if op = 0x22 ∨ op = 0x24 then
    (List.range 2048).map (fun e =>
      let k := e / 32
      let n := e % 32
      let b := byte (4 * (k / 32) + n / 8) (4 * (k % 32) + n / 2 % 4)
      (e, signedNat 4 (if n % 2 = 0 then b % 16 else b / 16)))
  else
    (List.range 1024).map (fun e => (e, signedNat 8 (byte (e % 32 / 4) (4 * (e / 32) + e % 4))))

/-- Side data of an MLOAD's block j (Table 5.1): column n, K half h at 2 × n + h. -/
def weightSide (op j : Nat) (side : List Byte) : SMap Nat :=
  (List.range 64).map (fun e =>
    let n := e / 2
    let h := e % 2
    (e, if op = 0x24 then leAt side (64 * j + 32 * h + n) 1
        else if op = 0x25 then leAt side (2 * (32 * j + n)) 2
        else leAt side (32 * j + n) 1))

/-- Clearing an accumulator pane with a KIND (R170, R196). -/
def clearAcc (m : Matrix) (a : Nat) (ext : Bool) : Matrix := { m with acc := sset m.acc a { ext := ext } }

/-- Elements of an activation row from its 32 bytes (R189). -/
def actRow (int4 : Bool) (bs : List Byte) : List Int :=
  if int4 then (bs.flatMap (fun b => [b.toNat % 16, b.toNat / 16])).map (signedNat 4) else bs.map (fun b => b.toInt)

/-- Exact products of some row elements, the first being K element k0, with weight column n. -/
def dotFrom (w : WeightBuf) (n : Nat) : Nat → List Int → Int
  | _, [] => 0
  | k, a :: r => a * sget 0 w.elems (32 * k + n) + dotFrom w n (k + 1) r

/-- The value added with one INT32 saturation (R169). -/
def addInt32 (p : AccPane) (row col : Nat) (v : Int) : AccPane :=
  let ix := accIx row col
  let x := sget {} p.elems ix
  { p with elems := sset p.elems ix { x with a := satInt 32 (x.a + v) } }

/-- A block mode's term (R171): none when a code is 0xFF. -/
def blockTerm (ca cb : Nat) (p : Int) : Option Term :=
  if ca = 0xFF ∨ cb = 0xFF then none
  else some ⟨p * ((4 + ca % 4) * (4 + cb % 4) : Nat), (ca / 4 : Nat) + (cb / 4 : Nat) - 66, false⟩

/-- A split-precision pass's term (R181, R217): flagged, discarded, or T = P. -/
def sliceTerm (ga gb p q : Nat) (t : Int) : Option Term :=
  if ga = 0x7FFF ∨ gb = 0x7FFF then some ⟨t, 0, true⟩
  else if ga = 0x8000 ∨ gb = 0x8000 then none
  else some ⟨t, signedNat 16 ga + signedNat 16 gb - 10 - 8 * ((p + q : Nat) : Int), false⟩

/-- A term, if any, reaches an element. -/
def addTerm (p : AccPane) (row col : Nat) (t : Option Term) : AccPane :=
  match t with
  | some t => accTerm p row col t
  | none => p

/-- One activation row of an MMAC against one weight column (R214–R217). side: the row's codes, one per K half. -/
def macElem (w : BitVec 128) (b : WeightBuf) (row col : Nat) (act : List Int) (side : Nat → Nat) (p : AccPane) : AccPane :=
  let op := wOp w
  if op ≤ 0x29 then addInt32 p row col (dotFrom b col 0 act)
  else if op = 0x2A then
    addTerm p row col (blockTerm (side 0) (sget 0 b.side (2 * col)) (dotFrom b col 0 act))
  else if op = 0x2B then
    addTerm (addTerm p row col (blockTerm (side 0) (sget 0 b.side (2 * col)) (dotFrom b col 0 (act.take 32))))
      row col (blockTerm (side 1) (sget 0 b.side (2 * col + 1)) (dotFrom b col 32 (act.drop 32)))
  else addTerm p row col (sliceTerm (side 0) (sget 0 b.side (2 * col)) (wE w 4 2) (wE w 6 2) (dotFrom b col 0 act))

/-- Side data of activation row t of an MMAC whose operand starts at pane row r0 (R191, R199): side holds the side strips. -/
def actSide (op r0 t : Nat) (side : List Byte) (h : Nat) : Nat :=
  let r := r0 + t / 4
  let j := t % 4
  if op = 0x2B then leAt side (256 * (r / 32) + 8 * (r % 32) + 2 * j + h) 1
  else if op = 0x2C then leAt side (256 * (r / 32) + 2 * (4 * (r % 32) + j)) 2
  else leAt side (128 * (r / 32) + 4 * (r % 32) + j) 1

/-- One activation row of an MMAC with a weight buffer (R200). -/
def macRow (w : BitVec 128) (b : WeightBuf) (m : Matrix) (acts side : List Byte) (t : Nat) : Matrix :=
  let op := wOp w
  let a := wE w 0 3 + t / 32
  let p := sget {} m.acc a
  let act := actRow (op = 0x29 || op = 0x2B) (slice acts (32 * t) 32)
  let p := (List.range 32).foldl (fun p col =>
    macElem w b (t % 32) col act (actSide op (aRow (oAddr (wS1 w))) t side) p) p
  { m with acc := sset m.acc a { p with prov := p.prov || wProv w || b.prov } }

/-- Cycles from a row's entry to its update (Table 5.7). -/
def macLat (op : Nat) : Nat := if op ≤ 0x29 then 6 else 9

/-- Cycles of an MMOV's last read after its start (R219). -/
def moveSpan (w : BitVec 128) : Nat := if wE w 4 2 = 2 then 16 else 32

/-- What a matrix instruction in flight does to buffers and panes in schedule cycle t, from its strip reads (R200, R207, R219, Table
5.7): MCLR clears at the end of its cycle, an MLOAD's buffer is whole after its eighth strip, an MMAC updates one row, and an MMOV clears
after its last read. -/
def matEffect (m : Matrix) (f : InFlight) (data : List (List Byte)) (t : Nat) : Matrix :=
  let w := f.instr.word
  let op := wOp w
  if op = 0x20 then
    (if t = f.start then (List.range 8).foldl (fun m a => if nbit (wEng w) a then clearAcc m a (nbit (wEng w) 8) else m) m else m)
  else if op ≤ 0x25 then
    (if t ≠ f.done then m else
     let b : WeightBuf :=
      { fmt := opFmt op, prov := wProv w, elems := weightElems op (data.take 8)
        side := if op ≤ 0x22 then [] else weightSide op (aCol (oAddr (wS1 w)) / 8) (data.drop 8).flatten }
     if wE w 0 1 = 1 then { m with buf1 := b } else { m with buf0 := b })
  else if op ≤ 0x2C then
    let k := cdiv f.instr.n 4
    let r := t - f.start - macLat op
    if f.start + macLat op ≤ t ∧ r < f.instr.n then
      macRow w (f.weights.getD {}) m (data.take k).flatten (data.drop k).flatten r
    else m
  else if wE w 6 1 = 1 ∧ t = f.start + moveSpan w - 1 then clearAcc m (wE w 0 3) (wE w 7 1 == 1)
  else m

/-- The bytes of an accumulator pane moved out (R218). -/
def moveOut (x : Cell) (i : Issued) : List Byte :=
  let w := i.word
  let p := sget {} x.mat.acc (wE w 0 3)
  let rm := roundOf i
  let f := wE w 4 2
  (List.range 1024).flatMap (fun e =>
    let u := if rm = 2 then drawOf x i e else 0
    if f = 0 then leBytes 4 (encInt 32 (sget {} p.elems e).a)
    else if f = 1 then leBytes 4 (extOut 0 rm u p (e / 32) (e % 32))
    else leBytes 2 (extOut 1 rm u p (e / 32) (e % 32)))

/-- The reads of MLOAD and MMAC (Table 5.7). -/
def matReads (i : Issued) (t : Nat) : List (Nat × List Nat) :=
  let w := i.word
  let op := wOp w
  let side := fun (n : Nat) => (extStrips ⟨0, oAddr (wS2 w), n⟩ (128 * n))
  if op = 0x20 ∨ op = 0x30 then []
  else if op ≤ 0x25 then
    (extStrips ⟨1, oAddr (wS1 w), 8⟩ 1024).mapIdx (fun k s => (t + k, s.2))
    ++ (if op ≤ 0x22 then [] else (side (if op = 0x23 then 1 else 2)).mapIdx (fun k s => (t + k, s.2)))
  else
    let k := cdiv i.n 4
    let x : Ext := ⟨0, oAddr (wS1 w), k⟩
    let per := if op = 0x2A then 1 else 2
    let r0 := aRow (oAddr (wS1 w))
    (extStrips x (128 * k)).mapIdx (fun k s => (t + 4 * k, s.2))
    ++ (if op ≤ 0x29 then [] else (side (per * panesIn x)).mapIdx (fun q s =>
      let p := q / per
      (t + 4 * (if p = 0 then 0 else 32 * p - r0) + q % per, s.2)))

/-- The plan of a matrix instruction that starts in cycle t. An MMOV's pane is read as its first datum when it starts: Table 5.6 lets no
instruction change the pane before its last read. -/
def matPlan (i : Issued) (t : Nat) : Plan :=
  let w := i.word
  let op := wOp w
  if op = 0x20 then idlePlan t
  else if op ≤ 0x25 then { reads := matReads i t, lastRead := t + 7, done := t + 7 }
  else if op ≤ 0x2C then
    { reads := matReads i t, lastRead := (matReads i t).foldl (fun m r => max m r.1) t, done := t + i.n - 1 + macLat op }
  else
    let n := moveSpan w
    let lat := if wE w 4 2 = 0 then 2 else 4
    let base := oAddr (wD w) / 128 * 128
    { reads := [], lastRead := t + n - 1, done := t + lat + n - 1
      slots := if wChain w then [] else
        (List.range n).map (fun k => ⟨t + lat + k, (List.range 128).map (· + (base + 128 * k)), false⟩)
      bytes := fun data => data.flatten
      chain := if wChain w then (List.range n).map (fun k => (t + lat + k, 128)) else [] }

/-- The accumulator panes that an MMAC writes (R200). -/
def accUsed (w : BitVec 128) (n : Nat) : List Nat := (List.range 8).filter (fun a => wE w 0 3 ≤ a && a < wE w 0 3 + cdiv n 32)

/-- Bit a of a mask set to v. -/
def setBit8 (m : BitVec 8) (a : Nat) (v : Bool) : BitVec 8 :=
  let b := BitVec.ofNat 8 (2 ^ a)
  if v then m ||| b else m &&& ~~~ b

/-- FORMAT, KIND and PROV marks after a matrix instruction (R194, R195, R205). An MLOAD without PROV clears the PROV mark of the buffer that
it fills (DESIGN CHOICE, log 92: R205 says what sets that mark, and not what clears it). -/
def trackMatrix (m : MatMarks) (w : BitVec 128) (n : Nat) : MatMarks :=
  let op := wOp w
  if op = 0x20 then
    (List.range 8).foldl (fun m a => if nbit (wEng w) a then
      { m with kinds := setBit8 m.kinds a (nbit (wEng w) 8), provs := setBit8 m.provs a false } else m) m
  else if op ≤ 0x25 then
    (if wE w 0 1 = 1 then { m with fmt1 := opFmt op, bprov1 := wProv w } else { m with fmt0 := opFmt op, bprov0 := wProv w })
  else if op ≤ 0x2C then
    let p := wProv w || (if wE w 3 1 = 1 then m.bprov1 else m.bprov0)
    if p then (accUsed w n).foldl (fun m a => { m with provs := setBit8 m.provs a true }) m else m
  else if wE w 6 1 = 1 then
    { m with kinds := setBit8 m.kinds (wE w 0 3) (wE w 7 1 == 1), provs := setBit8 m.provs (wE w 0 3) false }
  else m

/-- The first cycle in which Table 5.6 and the pipes let a matrix instruction start (R207). -/
def matStart (m : Matrix) (i : Issued) : Nat :=
  let w := i.word
  let op := wOp w
  let b := if op ≤ 0x25 then wE w 0 1 else wE w 3 1
  let latest := fun (l : SMap Nat) (as : List Nat) => as.foldl (fun c a => max c (sget 0 l a)) 0
  if op = 0x20 then
    let as := (List.range 8).filter (nbit (wEng w))
    max m.arrayFree (max (latest m.readEnd as) (latest m.updated as))
  else if op ≤ 0x25 then max m.loadFree (if b = 1 then m.used1 else m.used0)
  else if op ≤ 0x2C then max m.arrayFree (max (if b = 1 then m.ready1 else m.ready0) (latest m.readEnd (accUsed w i.n)))
  else max m.drainFree (sget 0 m.updated (wE w 0 3))

/-- The pipe and interlock times after an instruction starts in cycle t (Tables 5.6, 5.7). -/
def matTimes (m : Matrix) (i : Issued) (t : Nat) : Matrix :=
  let w := i.word
  let op := wOp w
  if op = 0x20 then
    { m with arrayFree := t + 1
             updated := ((List.range 8).filter (nbit (wEng w))).foldl (fun l a => sset l a (t + 1)) m.updated }
  else if op ≤ 0x25 then
    (if wE w 0 1 = 1 then { m with loadFree := t + 8, ready1 := t + 9 } else { m with loadFree := t + 8, ready0 := t + 9 })
  else if op ≤ 0x2C then
    let m := { m with
      arrayFree := t + i.n
      updated := (accUsed w i.n).foldl (fun l a =>
        sset l a (t + min (32 * (a - wE w 0 3) + 31) (i.n - 1) + macLat op + 1)) m.updated }
    if wE w 3 1 = 1 then { m with used1 := t + i.n } else { m with used0 := t + i.n }
  else
    let n := moveSpan w
    { m with drainFree := t + n, readEnd := sset m.readEnd (wE w 0 3) (t + n) }

/-- MATRIX_STATUS (Table 5.2): the marks left by the last instruction that the engine has started (R195). -/
def matrixStatus (m : MatMarks) : W64 :=
  (m.provs.setWidth 64 <<< 32) ||| (m.kinds.setWidth 64 <<< 24) ||| (BitVec.ofNat 64 (wfmtCode m.fmt1) <<< 4) ||| BitVec.ofNat 64 (wfmtCode m.fmt0)

end Sys2Proof.Machine
end

