-- ==== Sys2Proof/Machine/ReductionUnit.lean ====
section
/-!
DEFINITION. What the reduction unit computes and when (R239–R249).
-/

namespace Sys2Proof.Machine

/-- One addition of a sum (R242): FP32 under MODE.ROUND, or saturating INT32. u is its draw. -/
def sumAdd (fl : Bool) (rm u : Nat) (a b : FVal) : FVal :=
  if fl then decodeVal 0 (encodeVal 0 rm u (fAdd a b)) else decodeVal 8 (encodeVal 8 0 0 (fAdd a b))

/-- The tree of R242 over lanes: for each distance d, lane j takes lane j + d; f gets d and j. -/
def treeOf {V : Type} (f : Nat → Nat → V → V → V) (z : V) (lanes : List V) : V :=
  let go := fun (l : List V) d => (List.range d).map (fun j => f d j (nth l j z) (nth l (j + d) z))
  nth ([16, 8, 4, 2, 1].foldl go lanes) 0 z

/-- Elements, with their indices, dealt to 32 lanes. -/
def lanesOf {V : Type} (xs : List (Nat × V)) : List (List (Nat × V)) :=
  (List.range 32).map (fun j => xs.filter (fun e => e.1 % 32 == j))

/-- RSUM of some elements (R242): tree says AXIS 0; draw gives u by element number, fin the draw of the final rounding. -/
def redSum (sf df : Fmt) (rm n : Nat) (draw : Nat → Nat) (fin : Nat) (tree : Bool) (xs : List (Nat × FVal)) : Nat :=
  let fl := isFloat sf
  let lane := fun (l : List (Nat × FVal)) => l.foldl (fun a e => sumAdd fl rm (draw e.1) a e.2) (.fin 0 0)
  let r := if tree then treeOf (fun d j a b => sumAdd fl rm (draw (n + 32 - 2 * d + j)) a b) (.fin 0 0) ((lanesOf xs).map lane) else lane xs
  encodeVal df (if fl then rm else 0) (if fl then draw fin else 0) r

/-- RPSUM of some pairs (R243). -/
def redPair (tree : Bool) (xs : List (Nat × (Nat × Nat))) : Nat × Nat :=
  let add := fun (a : Nat × Nat) (x : Nat × Nat) =>
    let r := twoSum a.1 x.1
    (r.1, addRne (addRne a.2 r.2) x.2)
  let join := fun (a b : Nat × Nat) =>
    let r := twoSum a.1 b.1
    (r.1, addRne (addRne a.2 b.2) r.2)
  let lane := fun (l : List (Nat × (Nat × Nat))) => l.foldl (fun a e => add a e.2) (0, 0)
  let r := if tree then treeOf (fun _ _ a b => join a b) (0, 0) ((lanesOf xs).map lane) else lane xs
  twoSum r.1 r.2

/-- The element that RARGMAX or RARGMIN chooses (R164): NaN elements are skipped and the lowest index wins a tie. -/
def redArg (max : Bool) (xs : List (Nat × FVal)) : Nat × FVal :=
  (xs.foldl (fun (b : Option (Nat × FVal)) e =>
    if fIsNaN e.2 then b else match b with
      | none => some e
      | some y => if (if max then fLt y.2 e.2 else fLt e.2 y.2) then some e else b) none).getD (0, .nan)

/-- One reduction (R241): its DFMT value and the index or lo word that goes with it. -/
def redOne (x : Cell) (i : Issued) (tree : Bool) (fin : Nat) (xs : List (Nat × FVal)) : Nat × Nat :=
  let op := wOp i.word
  let sf := wSfmt i.word
  let df := wDfmt i.word
  let rm := roundOf i
  if op = 0x80 then (redSum sf df rm i.n (fun e => if rm = 2 then drawOf x i e else 0) fin tree xs, 0)
  else if op = 0x81 ∨ op = 0x82 then
    let f := if op = 0x81 then fMax else fMin
    (match xs with
     | [] => 0
     | e :: r => encodeVal df 0 0 (r.foldl (fun a y => f a y.2) e.2), 0)
  else
    let b := redArg (op == 0x83) xs
    (encodeVal df 0 0 b.2, b.1)

/-- Whether a candidate comes before another (R244): descending value, then ascending index. -/
def candBefore (a b : FVal × Nat) : Bool := fLt b.1 a.1 || (fEq a.1 b.1 && decide (a.2 < b.2))

/-- Insertion of a candidate into an ordered list that keeps k. -/
def candInsert (k : Nat) (l : List (FVal × Nat)) (a : FVal × Nat) : List (FVal × Nat) :=
  (l.filter (fun b => !candBefore a b) ++ a :: l.filter (candBefore a)).take k

/-- The record of Table 6.6. -/
def topkRecord (k : Nat) (cs : List (FVal × Nat)) : List Byte :=
  let v := cdiv k 32
  let l := cs.foldl (candInsert k) []
  let pad := 32 * v - l.length
  let vals : List Nat := l.map (fun (c : FVal × Nat) => encodeVal 0 0 0 c.1)
  let ixs : List Nat := l.map (fun (c : FVal × Nat) => c.2)
  (vals ++ List.replicate pad 0xFF800000 ++ ixs ++ List.replicate pad 0xFFFFFFFF).flatMap (leBytes 4)

/-- The candidates of RTOPK and RTOPKM (R244, R245). -/
def candidates (i : Issued) (bs : List Byte) : List (FVal × Nat) :=
  let w := i.word
  if wOp w = 0x88 then
    let ib := if wE w 15 1 = 1 then nth i.consts 2 0 else 0
    ((elems (fmtWidth (wSfmt w)) i.n bs).mapIdx (fun e b => (decodeVal (wSfmt w) b, (e + ib) % 2 ^ 32))).filter (fun (c : FVal × Nat) => !fIsNaN c.1)
  else
    let v := cdiv (wE w 9 6 + 1) 32
    ((List.range i.n).map (fun p =>
      let base := 256 * v * (p / (32 * v)) + 4 * (p % (32 * v))
      (decodeVal 0 (leAt bs base 4), leAt bs (base + 128 * v) 4))).filter (fun (c : FVal × Nat) => c.2 != 0xFFFFFFFF && !fIsNaN c.1)

/-- The result bytes of a reduction over its source bytes. -/
def redBytes (x : Cell) (i : Issued) (bs : List Byte) : List Byte :=
  let w := i.word
  let op := wOp w
  let sf := wSfmt w
  let df := wDfmt w
  let axis := wE w 15 1 == 1
  let m := 1024 / fmtWidth sf
  let es := if oMode (wS1 w) = 3 ∧ i.chainedIn.isNone then List.replicate i.n (immBits sf (wS1 w) (nth i.consts 0 0))
    else elems (fmtWidth sf) i.n bs
  if op = 0x88 ∨ op = 0x89 then
    topkRecord (wE w 9 6 + 1) (candidates i (if op = 0x88 then es.flatMap (leBytes (fmtWidth sf / 8)) else bs))
  else if op = 0x85 then
    let pairin := wE w 14 1 = 1
    let cnt := if pairin then 16 else 32
    let ps : List (Nat × (Nat × Nat)) := if pairin then (groupsN 2 (i.n / 2) es).mapIdx (fun k g => (k, (nth g 0 0, nth g 1 0)))
      else es.mapIdx (fun k e => (k, (e, 0)))
    if axis then
      let rs := (List.range cnt).map (fun j => redPair false (ps.filter (fun e => e.1 % cnt == j)))
      let pad := List.replicate (32 - cnt) 0
      (rs.map (·.1) ++ pad ++ rs.map (·.2) ++ pad).flatMap (leBytes 4)
    else
      let r := redPair true ps
      leBytes 4 r.1 ++ leBytes 4 r.2
  else
    let vs := es.mapIdx (fun k e => (k, decodeVal sf e))
    let arg := op = 0x83 ∨ op = 0x84
    if axis then
      let rs := (List.range m).map (fun j => redOne x i false (i.n + j) (vs.filter (fun e => e.1 % m == j)))
      packElems (fmtWidth df) (rs.map (·.1)) ++ (if arg then rs.flatMap (fun r => leBytes 4 r.2) else [])
    else
      let r := redOne x i true (i.n + 31) vs
      packElems (fmtWidth df) [r.1] ++ (if arg then leBytes 4 r.2 else [])

/-- Steps of a reduction (R240, R245). -/
def redSteps (w : BitVec 128) (n : Nat) : Nat := if wOp w = 0x89 then 2 * n / 32 else cdiv n (1024 / fmtWidth (wSfmt w))

/-- The plan of a reduction that starts in cycle t; ch: the chained bytes of S1. -/
def redPlan (x : Cell) (i : Issued) (t : Nat) (ch : Option (List Byte)) : Plan :=
  let w := i.word
  let op := wOp w
  let steps := redSteps w i.n
  let axis := wE w 15 1 == 1
  let nb := if op = 0x89 then 128 * steps else bytesOf i.n (fmtWidth (wSfmt w))
  let reads : List (Nat × List Nat) := if ch.isSome ∨ oMode (wS1 w) = 3 then []
    else (extStrips (extOf (wS1 w) nb) nb).map (fun s => (t + s.1 / 128, s.2))
  let topk := op = 0x88 ∨ op = 0x89
  let first := if topk then t + steps + 16 else if axis then t + steps + 4 else if op = 0x85 then t + steps + 12 else t + steps + 8
  let linear := oMode (wD w) = 2
  let d : Ext := match (redRanges w i.n ch.isSome).dsts with
    | d :: _ => d
    | [] => ⟨0, 0, 0⟩
  let nd := if linear then d.units else 128 * d.units
  let slots : List WriteSlot := (extStrips d nd).mapIdx (fun k s => ⟨first + (if linear then 0 else k), s.2, false⟩)
  { reads := reads
    lastRead := t + steps - 1
    done := slotsEnd (first + (if linear then 0 else d.units - 1)) slots
    slots := slots
    bytes := fun data => redBytes x i (ch.getD data.flatten) }

end Sys2Proof.Machine
end

