-- ==== Sys2Proof/Machine/MoveUnit.lean ====
section
/-!
DEFINITION. What the move/send unit and the counter unit do and when (R361–R373, R380, R390, R391, R400, R585).
-/

namespace Sys2Proof.Machine

/-- PACE (R361). -/
def paceOf (w : BitVec 128) : Nat := wE w 4 4 + 1

/-- Bytes of a MOVE, SEND, RECV or LSEND of count n whose operand has a mode: LINEAR counts bytes (R361). -/
def moveBytes (mode n : Nat) : Nat := if mode = 2 then n else 128 * n

/-- The strips of an operand field v of such an instruction, as byte addresses. -/
def moveStrips (v n : Nat) : List (Nat × List Nat) :=
  let nb := moveBytes (oMode v) n
  extStrips ⟨oMode v, oAddr v, n⟩ nb

/-- Index of the strip, in a list of strips, that holds byte b of a range. -/
def stripOf (l : List (Nat × List Nat)) (b : Nat) : Nat := (l.takeWhile (fun s => decide (s.1 + s.2.length ≤ b))).length

/-- The strips in which a chained S1 of nb bytes comes (R250). -/
def chainedStrips (nb : Nat) : List (Nat × List Nat) :=
  (List.range (cdiv nb 128)).map (fun k => (128 * k, List.replicate (min 128 (nb - 128 * k)) 0))

/-- The writes of a MOVE (R361): a destination strip two cycles after its own step, or after the last source strip it needs. -/
def moveSlots (w : BitVec 128) (n t : Nat) (chained : Bool) : List WriteSlot :=
  let src := if chained then chainedStrips (moveBytes (oMode (wD w)) n) else moveStrips (wS1 w) n
  (moveStrips (wD w) n).mapIdx (fun k d =>
    let need := min (stripOf src (d.1 + d.2.length - 1)) (src.length - 1)
    ⟨t + 2 + max k need, d.2, false⟩)

/-- The four flits of a strip (R365). -/
def stripFlits (prov : Bool) (bs : List Byte) : List Flit :=
  (groups 32 4 bs).map (fun b => ⟨BitVec.ofNat 256 (leNat b), true, prov, false, none⟩)

/-- The header flit of a landing frame (Table 9.8), but for PGEN. -/
def landHeader (addr cell suite prov sender seqNo : Nat) : W256 :=
  BitVec.ofNat 256 (addr % 2 ^ 22 + cell % 2 ^ 12 * 2 ^ 22 + suite % 32 * 2 ^ 34 + prov % 2 * 2 ^ 39 + sender % 256 * 2 ^ 44 + seqNo % 2 ^ 32 * 2 ^ 64)

/-- Cycles that an instruction of the unit occupies it (Table 10.1): a MOVE its source strips. -/
def moveOcc (w : BitVec 128) (n : Nat) (chained : Bool) : Nat :=
  let op := wOp w
  if op = 0x90 then
    (if chained then cdiv (moveBytes (oMode (wD w)) n) 128 else (moveStrips (wS1 w) n).length)
  else if op = 0x91 ∨ op = 0x92 ∨ op = 0x93 then n * paceOf w
  else 1

/-- Chained strips that a move/send instruction takes (R250, R361). -/
def moveNeed (w : BitVec 128) (n : Nat) : Nat :=
  if wOp w = 0x98 then 1 else if wOp w = 0x90 then cdiv (moveBytes (oMode (wD w)) n) 128 else n

/-- The plan of a move/send instruction that starts in cycle t. part, suite and pgen: what its frames and messages carry; ch: the bytes
of its chained S1; msg: what QPOP or HTAKE writes. -/
def movePlan (i : Issued) (t part suite : Nat) (pgen : BitVec 4) (ch : Option (List Byte)) (msg : Option W256) : Plan :=
  let w := i.word
  let op := wOp w
  let n := i.n
  let pace := paceOf w
  let strips := if ch.isSome then [] else moveStrips (wS1 w) n
  let bytes := fun (data : List (List Byte)) => ch.getD data.flatten
  let strip := fun (data : List (List Byte)) (k : Nat) => slice (bytes data) (128 * k) 128
  let paced := (List.range n).map (fun k => t + k * pace)
  let last := t + (n - 1) * pace
  if op = 0x90 then
    let slots := moveSlots w n t ch.isSome
    { reads := strips.mapIdx (fun k s => (t + k, s.2)), lastRead := t + strips.length - 1, done := slotsEnd t slots, slots := slots, bytes := bytes }
  else if op = 0x91 then
    { reads := strips.mapIdx (fun k s => (t + k * pace, s.2)), lastRead := last, done := last, sends := paced
      flits := fun data k => stripFlits i.prov (strip data k) }
  else if op = 0x92 then
    { reads := [], lastRead := t, done := last + 1, takes := paced, bytes := fun data => data.flatten
      slots := (moveStrips (wD w) n).mapIdx (fun k d => ⟨t + k * pace + 1, d.2, false⟩) }
  else if op = 0x93 then
    { reads := strips.mapIdx (fun k s => (t + k * pace, s.2)), lastRead := last, done := last, sends := paced
      flits := fun data k =>
        ⟨landHeader (nth i.consts 5 0 % 2 ^ 22 + 128 * k) (nth i.consts 6 0) suite (b2n i.prov) 0xC0 0 ||| (pgen.setWidth 256 <<< 40), true, i.prov, false, none⟩
          :: stripFlits i.prov (strip data k) }
  else if op = 0x98 then
    { reads := if ch.isSome then [] else [(t, (List.range 32).map (· + oAddr (wS1 w)))], lastRead := t, done := t + 1
      sends := if wE w 3 1 = 0 then [t + 1] else []
      flits := fun data _ => [⟨stampMessage (BitVec.ofNat 256 (leNat (slice (bytes data) 0 32))) suite part, true, i.prov, false, none⟩] }
  else if op = 0x99 ∨ op = 0x9A then
    { reads := [], lastRead := t, done := t + 2
      slots := if msg.isSome then [⟨t + 2, (List.range 32).map (· + oAddr (wD w)), false⟩] else []
      bytes := fun _ => leBytes 32 ((msg.getD 0).toNat) }
  else { reads := [], lastRead := t, done := if op = 0x9C then t + 1 else t }

/-- The plan of a counter instruction that starts in cycle t: its bytes, which it reads at its start, are its first datum (R585). -/
def counterPlan (i : Issued) (t : Nat) : Plan :=
  let n := match (moveRanges i.word i.n false).dsts with
    | d :: _ => d.units
    | [] => 0
  if wOp i.word = 0xB1 ∨ n = 0 then idlePlan t else
  let slots : List WriteSlot := (extStrips ⟨2, oAddr (wD i.word), n⟩ n).map (fun s => ⟨t + 2, s.2, false⟩)
  { reads := [], lastRead := t, done := slotsEnd (t + 2) slots, slots := slots, bytes := fun data => data.flatten }

/-- BAR_CMD of a BARR's constant word (R400): the barrier and the command. -/
def barrCmd (k : Nat) : Nat × W64 :=
  (k % 2 ^ 14, BitVec.ofNat 64 (2 ^ 61 + nbits k 14 1 * 2 ^ 60 + nbits k 15 1 * 2 ^ 59 + nbits k 16 16 * 2 ^ 32))

/-- Local address of a suite's commit address (R415, R430). -/
def commitAddr (i : Nat) : Nat := 0x024000800000 + i * 2 ^ 16 + 0xF00

/-- The suite whose commit address a message names, for a message that is a token record (R415). -/
def tokenTarget (s : State) (m : W256) : Option Nat :=
  if mKind m = 0 ∧ mFormat m = 15 ∧ mSrcQueue m = 0xFFFFF ∧ mDstQueue m = 0 then findBelow 32 (fun i => mAddr m == s.part.toNat * 2 ^ 48 + commitAddr i) else none

/-- Whether a message goes by the router (R373): its part is this one and its cell belongs to the sender's suite; a token record
goes to its commit queue by the hub (R415). -/
def byRouter (s : State) (c : Nat) (m : W256) : Bool :=
  (tokenTarget s m).isNone && decide (mDstPart m = s.part.toNat) && (s.cell c).suite.isSome && decide ((s.cell (mDstQueue m / 256)).suite = (s.cell c).suite)

/-- The local input of the router is the fifth. -/
def routerIn (x : Cell) (k : Nat) : List W256 := sget [] x.trk.router k

/-- The message that a started MSG reads, as it is sent (R371). -/
def msgOf (s : State) (c : Nat) (bs : List Byte) : W256 :=
  stampMessage (BitVec.ofNat 256 (leNat (slice bs 0 32))) ((cellSuite (s.cell c)).getD 0) s.part.toNat

/-- What a MSG by the router or the hub, or a BARR, places in a buffer in the cycle after its start (R361, R373, R377, R400); bs: the bytes
of S1. -/
def State.hubEffect (s : State) (c : Nat) (i : Issued) (bs : List Byte) : State :=
  let op := wOp i.word
  if op = 0x98 ∧ wE i.word 3 1 = 1 then
    let m := msgOf s c bs
    if byRouter s c m then
      s.updCell c (fun x => { x with trk := { x.trk with router := sset x.trk.router 4 (routerIn x 4 ++ [m]) } })
    else s.toHub c (.msg m)
  else if op = 0x9C then
    let k := barrCmd (nth i.consts 0 0)
    s.toHub c (.bar k.1 k.2)
  else s

/-- A ZCTL acts as a write to LZ_CFG of its zone in the cycle of its start (R364, R380). -/
def State.zctlEffect (s : State) (c : Nat) (i : Issued) : State :=
  let z := wE i.word 0 6
  let k := wE i.word 8 3
  if wOp i.word ≠ 0x9D then s
  else if k = 1 then
    let v := (s.cell c).zone z
    if v.mode then
      (s.updCell c (fun x => x.setZone z (grantZone v i.n))).sendCredit c z i.n (nbits (nth i.consts 0 0) 20 6) (nbits (nth i.consts 0 0) 0 20)
    else s
  else if k = 2 then s.requestNotice c z true none
  else if k = 3 then s.requestNotice c z false none
  else s.requestMode c z (k = 5)

/-- Whether an instruction that starts must wait for room in a buffer (R373, R377); the items of instructions in flight that have not
entered it count. bs: the bytes of its S1. -/
def mustWait (s : State) (c : Nat) (i : Issued) (bs : List Byte) : Bool :=
  let x := s.cell c
  let op := wOp i.word
  let routed := fun (j : Issued) (bs : List Byte) => wOp j.word == 0x98 && byRouter s c (msgOf s c bs)
  let coming := x.eng.inflight.filter (fun f =>
    decide (x.seq.cyc ≤ f.done) && (wOp f.instr.word == 0x9C || (wOp f.instr.word == 0x98 && wE f.instr.word 3 1 == 1)))
  let toRouter := coming.filter (fun f => routed f.instr ((chainedBytes x f).getD (sget [] f.got 0)))
  let full := decide (4 ≤ x.trk.outbound.length + (coming.length - toRouter.length))
  if op = 0x98 ∧ wE i.word 3 1 = 1 then
    (if routed i bs then decide (2 ≤ (routerIn x 4).length + toRouter.length) else full)
  else if op = 0x9C then full
  else if op = 0x9D ∧ wE i.word 8 3 = 1 then (x.zone (wE i.word 0 6)).mode && full
  else false

/-- Counter i of a cell as CRD writes it (R585): zero-extended to 8 bytes. -/
def counterBytes (x : Cell) (i : Nat) : List Byte := leBytes 8 (sget 0 x.ctrs.ctr i).toNat

/-- The counters that a mask selects. -/
def maskCounters (m : Nat) : List Nat := (List.range 8).filter (nbit m)

/-- A tally of the cell as the spec shows it: the closed and the open part (R587, R588). -/
def Cell.tally (x : Cell) (k : Nat) : BitVec 48 := nth x.obs.tdClosed k 0 + nth x.obs.tdOpen k 0

/-- The bytes that a counter instruction writes: zeros without CTR_USER (R585, R586). -/
def counterData (x : Cell) (w : BitVec 128) (user : Bool) : List Byte :=
  if wOp w = 0xB0 then (maskCounters (wE w 0 8)).flatMap (fun k => if user then counterBytes x k else leBytes 8 0)
  else (List.range 5).flatMap (fun k => if user then leBytes 8 (x.tally k).toNat else leBytes 8 0)

end Sys2Proof.Machine
end

