-- ==== Sys2Proof/Machine/Check.lean ====
section
/-!
DEFINITION. What the sequencer checks of an instruction: the cases it is judged by (R61), the issue check with effective tags (R63–R67), the
sample at issue (R68), the run ahead of a check point, and the faults that an instruction meets at its issue (R88–R93).
-/

namespace Sys2Proof.Machine

/-- The panes of SEAL and RELEASE opcodes; the Bool says that they pass the octant. -/
def opcodePanes (w : BitVec 128) (n : Nat) : List Nat × Bool :=
  let p := aPane (oAddr (wD w))
  ((List.range (min n (128 - p))).map (· + gPane (oAddr (wD w))), decide (p + n > 128))

/-- The VL register of the current loop depth (R74). -/
def Seq.vlNow (q : Seq) : Nat := nth q.vl q.loops.length 32

/-! ### What an instruction needs to know of the cell -/

/-- Whether every value of format s is one of format d, so that a conversion is exact (Table 4.7): a float of fewer bits; an integer whose
values have no more bits than d's significand. -/
def exactCvt (s d : Fmt) : Bool :=
  s == d || (isFP s && d == 0) || (s == 3 && (d == 1 || d == 2)) || (s == 4 && (d == 1 || d == 2))
    || ((s == 5 || s == 6) && isFloat d) || (s == 5 && isFP d) || (s == 7 && d == 0)

/-- The context of R61's cases for the main context or the handler. -/
def legalCtx (x : Cell) (q : Seq) (m : MatMarks) (handler : Bool) (pc : Nat) : LegalCtx :=
  { handler := handler
    vl := if handler then (q.handler.map (·.vl)).getD 32 else q.vlNow
    const := x.const, depth := if handler then 0 else q.loops.length, nextOp := if pc < 511 then wOp (x.instr (pc + 1)) else 0xFF
    zone := fun z => (x.zone z).valid, bound := fun ch => (x.bound ch).isSome, mat := m }

/-- Whether MODE.ROUND rounds results of an instruction (R160, R229–R235, R242): not a selection, a byte move, an exact conversion (Table 4.7,
R153, R154), an integer result of integers, or what a rule rounds to nearest. -/
def roundsResult (w : BitVec 128) : Bool :=
  let op := wOp w
  let s := wSfmt w
  let d := wDfmt w
  let ints := isInt s && isInt d
  if op = 0x30 then wE w 4 2 != 0
  else if op = 0x40 ∨ op = 0x41 ∨ op = 0x42 then !ints
  else if op = 0x48 ∨ op = 0x49 then true
  else if op ≤ 0x46 ∨ op = 0x51 ∨ op = 0x52 ∨ op = 0x58 then !exactCvt s d && !ints
  else if op = 0x50 then false
  else if op = 0x5A ∨ op = 0x5B then d != 0
  else if op ≤ 0x5C then true
  else if 0x68 ≤ op ∧ op ≤ 0x6D then true
  else op == 0x80 && isFloat s

/-- The constant words that an instruction reads at issue (R92), S1, S2 and OPD references first. -/
def constsUsed (w : BitVec 128) (mode : BitVec 4) : List Nat :=
  let op := wOp w
  let ref := fun v => if isConstRef v then [constIx v] else []
  let cnt := match countConst w with
    | some k => [k]
    | none => []
  let eng := if op = 0x49 ∨ op = 0x51 ∨ (op = 0x88 ∧ wE w 15 1 = 1) then [wE w 0 9] else []
  let rounds := fld mode 0 2 = 2 ∧ (isVecRed op || op = 0x30) ∧ roundsResult w
  let keys := if rounds then [2 * (fld mode 2 2).toNat, 2 * (fld mode 2 2).toNat + 1] else []
  let two := if op = 0x93 ∧ isConstRef (wD w) then [constIx (wD w) + 1] else []
  (if (opInfo w).isNone then [] else ref (wS1 w) ++ ref (wS2 w) ++ ref (wD w)) ++ two ++ cnt ++ eng ++ keys

/-- The first failing constant word's configuration offset (Table 2.19). -/
def constBad (x : Cell) (ks : List Nat) : Option Nat := (ks.find? (fun k => k < 384 && x.parityBad (0xE80 + k))).map (fun k => 0x3A00 + 4 * k)

/-- Whether an instruction acts under PROV: its flag, the PROV mark of an MMOV's pane (R206), or its chain's producer (R206, R250). -/
def actsProv (w : BitVec 128) (m : MatMarks) (chain : Option (Nat × Bool)) : Bool :=
  wProv w || (wOp w == 0x30 && m.provs.getLsbD (wE w 0 3)) || (match chain with
    | some c => c.2
    | none => false)

/-! ### Effective tags (R64) -/

/-- The tags after an instruction's SEALs and RELEASEs, as far as Table 3.2 allows them; rel says that a RELEASE by flag is still to come. -/
def tagEffects (x : Cell) (w : BitVec 128) (prov rel : Bool) (srcs dsts : List Nat) (t : SMap Tag) : SMap Tag :=
  let upd := fun (t : SMap Tag) (gs : List Nat) (f : Nat → Tag → Option Tag) => gs.foldl (fun t g => match f g (sget Tag.empty t g) with
    | some v => sset t g v
    | none => t) t
  let op := wOp w
  let t := if rel && wRelease w then upd t (srcs.filter (fun g => !dsts.contains g)) (fun _ t => releaseTag t prov) else t
  if op = 0x06 then upd t dsts (fun _ t => releaseTag t prov)
  else if op = 0x05 ∨ wSeal w then upd t dsts (fun g t => sealTag t prov (srcs.contains g) (x.inZone g))
  else t

/-- Insertion by issue number. -/
def insIssued (i : Issued × Bool) : List (Issued × Bool) → List (Issued × Bool)
  | [] => [i]
  | j :: r => if i.1.seqNo < j.1.seqNo then i :: j :: r else j :: insIssued i r

/-- Every instruction that has issued and not completed, in issue order, and whether its last read is still to come. -/
def pendingIssued (e : Engines) (cyc : Nat) : List (Issued × Bool) :=
  let queued := (e.matrixQ ++ e.vectorQ ++ e.reductionQ ++ e.moveQ ++ e.counterQ ++ e.tagOps).map (fun i => (i, true))
  (queued ++ e.inflight.map (fun f => (f.instr, decide (cyc ≤ f.lastRead)))).foldl (fun l i => insIssued i l) []

/-- Effective tags (R64), with the LANDED strips of each zone that earlier WAITs will have taken (R127). -/
structure Sight where
  tags : SMap Tag
  taken : SMap Nat := []
  deriving DecidableEq, Repr

/-- What the seal of a WAIT with threshold n on zone k will do (R126, R127, R113): a WAIT without PROV takes T from LANDED alone; one with
PROV takes what LANDED does not hold, after earlier WAITs, from PROV_LANDED. -/
def Sight.wait (v : Sight) (x : Cell) (k n : Nat) (prov : Bool) : Sight :=
  let z := x.zone k
  let used := sget 0 v.taken k
  { tags := (zonePanes z).foldl (fun t g =>
      let old := sget Tag.empty t g
      if old = .empty then sset t g (waitTag old (prov && decide (z.landed.toNat - used < n))) else t) v.tags
    taken := sset v.taken k (used + min n (z.landed.toNat - used)) }

/-- What an instruction that has issued, or that will, does to the tags; rel: a RELEASE by flag is still to come. -/
def Sight.after (v : Sight) (x : Cell) (w : BitVec 128) (n : Nat) (prov rel : Bool) (srcs dsts : List Nat) : Sight :=
  if wOp w = 4 then v.wait x (wE w 0 6) n prov else { v with tags := tagEffects x w prov rel srcs dsts v.tags }

/-- What the cell's issued instructions will still do. -/
def sightOf (x : Cell) : Sight :=
  (pendingIssued x.eng x.seq.cyc).foldl (fun v i => v.after x i.1.word i.1.n i.1.prov i.2 i.1.srcs i.1.dsts) ⟨x.tags, []⟩

/-- The effective tags at present (R64): tags updated by what issued instructions will still do. -/
def effTags (x : Cell) : SMap Tag := (sightOf x).tags

/-! ### The issue check (R65) -/

/-- What the check of one instruction gives: the hold causes of its late entries, and its fault. -/
structure CheckRes where
  late : List Nat
  fault : Option (Nat × Nat × Nat)
  deriving DecidableEq, Repr

/-- The lower of two faults by CAUSE (R93). -/
def lowerFault (a b : Option (Nat × Nat × Nat)) : Option (Nat × Nat × Nat) :=
  match a, b with
  | none, b => b
  | a, none => a
  | some p, some q => if q.1 < p.1 then some q else some p

/-- One more entry of a check. -/
def CheckRes.add (r : CheckRes) (cause : Nat) (g : Nat) (o : CheckOut) : CheckRes :=
  match o with
  | .pass => r
  | .late => { r with late := if r.late.contains cause then r.late else r.late ++ [cause] }
  | .fault c d => { r with fault := lowerFault r.fault (some (c, d, paneAddr g)) }

/-- Table 3.2 as a check of a SEAL or RELEASE on one pane: a forbidden transition is a tag protocol fault, DETAIL 0x03. -/
def tagCheck (o : Option Tag) : CheckOut := if o.isNone then .fault 3 3 else .pass

/-- The check of an instruction with count n by effective tags t (Table 2.12, R113). An EMPTY in-place pane is late by its source row and a
fault by its destination row: both are noted, so that the suite is held and the fault deferred (DESIGN CHOICE, log 92). -/
def checkInstr (x : Cell) (t : SMap Tag) (w : BitVec 128) (n : Nat) (prov chainedIn : Bool) : CheckRes :=
  let op := wOp w
  let get := fun g => sget Tag.empty t g
  if op = 0x04 then
    let z := x.zone (wE w 0 6)
    let have_ := z.landed.toNat + (if prov then z.provLanded.toNat else 0)
    ⟨if n ≤ have_ then [] else [2], none⟩
  else if op = 0x05 ∨ op = 0x06 then
    let (ps, excess) := opcodePanes w n
    let r := ps.foldl (fun (r : CheckRes) g =>
      r.add 0 g (tagCheck (if op = 0x05 then sealTag (get g) prov false (x.inZone g) else releaseTag (get g) prov))) ⟨[], none⟩
    if excess then { r with fault := some (1, 3, (aOctant (oAddr (wD w)) + 1) % 8 * 2 ^ 19) } else r
  else if op < 0x20 then ⟨[], none⟩
  else
    let rg := rangesOf w n chainedIn
    let srcs := rg.srcs.flatMap (fun e => (extPanes e).1)
    let dsts := rg.dsts.flatMap (fun e => (extPanes e).1)
    let r := srcs.foldl (fun (r : CheckRes) g => r.add 0 g (srcCheck (get g) prov)) ⟨[], none⟩
    let r := dsts.foldl (fun (r : CheckRes) g =>
      if srcs.contains g then r.add 1 g (inPlaceCheck (get g) (wSeal w) prov) else r.add 1 g (dstCheck (get g))) r
    let r := if wSeal w then dsts.foldl (fun (r : CheckRes) g =>
      match get g with
      | .empty => r.add 1 g (tagCheck (sealTag .empty prov (srcs.contains g) (x.inZone g)))
      | .full => if srcs.contains g then r.add 1 g (tagCheck (sealTag .full prov true (x.inZone g))) else r
      | _ => r) r else r
    match (rg.srcs ++ rg.dsts).find? (fun e => (extPanes e).2) with
    | some e => { r with fault := some (1, 3, extBeyond e) }
    | none => r

/-- The sample for POISONED at issue (R68): the fault of the first POISONED pane in the causes' order. -/
def poisonSample (x : Cell) (srcs dsts : List Nat) : Option (Nat × Nat × Nat) :=
  match srcs.find? (fun g => x.tag g == .poisoned) with
  | some g => some (2, 2, paneAddr g)
  | none => (dsts.find? (fun g => x.tag g == .poisoned)).map (fun g => (3, 1, paneAddr g))

/-! ### Loops (R70–R74) -/

/-- ENDLOOP (R71): the innermost counter falls; not 0 repeats the body, 0 closes the loop. -/
def endLoop (q : Seq) : Seq :=
  match q.loops.reverse with
  | [] => q
  | l :: r =>
    if l.counter ≤ 1 then { q with loops := r.reverse, pc := q.pc + 1 }
    else { q with loops := (r.reverse) ++ [{ l with counter := l.counter - 1 }], pc := l.body }

/-- LOOP (R70, R74): a new level with its count; its VL starts at the enclosing value. -/
def openLoop (q : Seq) (n : Nat) : Seq :=
  { q with loops := q.loops ++ [⟨q.pc + 1, n⟩], vl := q.vl.set (q.loops.length + 1) q.vlNow, pc := q.pc + 1 }

/-- Cycles that an instruction's issue fills (R60). -/
def issueCycles (w : BitVec 128) (n : Nat) : Nat := if wOp w = 0 then max 1 n else 1

/-- The sequencer after an instruction of the main context issues in cycle t: next address, loops, VL and MODE. -/
def seqNext (q : Seq) (w : BitVec 128) (n t : Nat) : Seq :=
  let op := wOp w
  let q' : Seq :=
    if op = 1 then openLoop q n
    else if op = 3 then { q with vl := q.vl.set q.loops.length n, pc := q.pc + 1 }
    else if op = 7 then { q with mode := BitVec.ofNat 4 (wE w 0 4), pc := q.pc + 1 }
    else { q with pc := q.pc + 1 }
  { q' with ready := t + issueCycles w n, dried := q.dried || wDrydown w || op == 8 }

/-! ### The check point (R63–R66) -/

/-- The sequencer run ahead of its schedule: what the check of a beat needs (R64). -/
structure Ahead where
  q : Seq
  m : MatMarks
  sight : Sight
  late : List LateCheck
  faults : List CheckFault
  stop : Bool
  work : Bool := false

/-- One instruction of the run ahead; those that issue in beat b are checked (R63). An illegal one ends the run: its faults of the check are
noted beside the one it takes at its issue (R93), and it is not waited for (DESIGN CHOICE, log 92). -/
def Ahead.step (x : Cell) (b : Nat) (a : Ahead) : Ahead :=
  if a.stop ∨ a.q.dried ∨ a.q.pc > 511 ∨ a.q.ready ≥ 16 * (b + 1) then { a with stop := true } else
  let w := x.instr a.q.pc
  if wOp w = 2 then (if a.q.loops.isEmpty then { a with stop := true } else { a with q := endLoop a.q }) else
  if (opInfo w).isNone then { a with stop := true } else
  let lc := legalCtx x a.q a.m false a.q.pc
  let n := countOf w lc.vl lc.const
  let t := a.q.ready
  let chained := a.q.lastChain.isSome
  let prov := actsProv w a.m a.q.lastChain
  let r := if t / 16 = b then checkInstr x a.sight.tags w n prov chained else ⟨[], none⟩
  let faults := a.faults ++ (match r.fault with
    | some f => [⟨t, a.q.pc, false, f.1, f.2.1, f.2.2⟩]
    | none => [])
  if (illegal w lc).isSome then { a with stop := true, faults := faults } else
  let rg := rangesOf w n chained
  let srcs := rg.srcs.flatMap (fun e => (extPanes e).1)
  let dsts := if wOp w = 5 ∨ wOp w = 6 then (opcodePanes w n).1 else rg.dsts.flatMap (fun e => (extPanes e).1)
  { q := { seqNext a.q w n t with lastChain := if wChain w then some (0, prov) else none }
    m := if 0x20 ≤ wOp w ∧ wOp w < 0x40 then trackMatrix a.m w n else a.m
    sight := a.sight.after x w n prov true srcs dsts
    late := a.late ++ r.late.map (fun c => ⟨t, c⟩)
    faults := faults
    stop := wOp w == 9
    work := a.work || (wOp w != 0 || wOpen w) && decide (16 * b < t + issueCycles w n)
      || ((opInfo w).bind (·.unit)).isSome && decide (16 * b ≤ t + 8) }

/-- The run ahead to the end of beat b: at most one instruction a cycle and its folded ENDLOOPs. -/
def runAhead (x : Cell) (b : Nat) : Ahead :=
  let q := { x.seq with ready := max x.seq.ready x.seq.cyc }
  (List.range 160).foldl (fun a _ => a.step x b) ⟨q, x.mat.issued, sightOf x, [], [], x.state == .halted, false⟩

/-- Capacity of an engine's queue (R43). -/
def queueDepth : Engine → Nat
  | .matrix => 8
  | .vector => 8
  | .reduction => 8
  | .moveSend => 16
  | .counter => 4

def Engines.queue (e : Engines) : Engine → List Issued
  | .matrix => e.matrixQ
  | .vector => e.vectorQ
  | .reduction => e.reductionQ
  | .moveSend => e.moveQ
  | .counter => e.counterQ

def Engines.setQueue (e : Engines) (g : Engine) (l : List Issued) : Engines :=
  match g with
  | .matrix => { e with matrixQ := l }
  | .vector => { e with vectorQ := l }
  | .reduction => { e with reductionQ := l }
  | .moveSend => { e with moveQ := l }
  | .counter => { e with counterQ := l }

/-- Whether an engine's queue is full (R43). -/
def queueFull (x : Cell) (unit : Option Engine) : Bool :=
  match unit with
  | some e => decide (queueDepth e ≤ (x.eng.queue e).length)
  | none => false

/-- What of its suite's resources a cell's instruction may name (R36): cells, and blocks of 256 barriers. -/
structure Own where
  cells : List Nat
  barBlocks : List Nat
  deriving DecidableEq, Repr

def ownOf (s : State) (x : Cell) : Own :=
  match cellSuite x with
  | some i => ⟨suiteCells s i, (s.suite i).barBlocks⟩
  | none => ⟨[], []⟩

/-! ### Faults of issue -/

/-- An LSEND whose frames go to a cell outside the suite, or a BARR to a barrier outside its blocks (R36): a protection violation with the
local address. Every cell and barrier number is a mapped address. -/
def outsideSuite (x : Cell) (own : Own) (w : BitVec 128) : Option (Nat × Nat × Nat) :=
  if wOp w = 0x93 ∧ isConstRef (wD w) ∧ constIx (wD w) < 383 then
    let k := constIx (wD w)
    let c := x.const (k + 1) % 4096
    if own.cells.contains c then none else some (1, 2, 0x010000000000 + c * 2 ^ 22 + x.const k % 2 ^ 22)
  else if wOp w = 0x9C ∧ isConstRef (wS1 w) ∧ constIx (wS1 w) < 384 then
    let n := x.const (constIx (wS1 w)) % 2 ^ 14
    if own.barBlocks.contains (n / 256) then none else some (1, 2, 0x025000000000 + 64 * n)
  else none

/-- The faults that an instruction at issue meets, lowest CAUSE first (R36, R61, R68, R88, R89, R92, R93). full says that its engine's
queue is full, chk what the check left for it; own: what the suite holds. A chain that does not fit (R59, R250) is looked for in an
instruction that is otherwise legal, so that DETAIL 9 of R61 comes before its 8 (DESIGN CHOICE, log 92). -/
def issueFault (x : Cell) (w : BitVec 128) (lc : LegalCtx) (n : Nat) (chained : Bool) (nxt : Option (BitVec 128)) (full : Bool)
    (own : Own) (chk : Option (Nat × Nat × Nat)) : Option (Nat × Nat × Nat) :=
  let rg := rangesOf w n chained
  let srcs := rg.srcs.flatMap (fun e => (extPanes e).1)
  let dsts := rg.dsts.flatMap (fun e => (extPanes e).1)
  let cause4 := match illegal w lc with
    | some d => some (4, d, 0)
    | none => if wChain w && chainBroken w n nxt then some (4, 8, 0) else none
  let cfg := (constBad x (constsUsed w x.seq.mode)).map (fun a => (5, 4, a))
  let queue := if full then some (1, 5, 0) else none
  [queue, outsideSuite x own w, poisonSample x srcs dsts, cause4, cfg].foldl lowerFault chk

/-- What the check left for the main context's next instruction (R89): it is recorded with the instruction's address and cycle. -/
def checkedFault (q : Seq) : Option (Nat × Nat × Nat) :=
  ((q.faults.filter (fun f => decide (f.cycle ≤ q.cyc) && f.pc == q.pc)).map (fun f => some (f.cause, f.detail, f.addr))).foldl lowerFault none

/-- The fault that the main context's next instruction meets, beside a parity error that waits for it (R92, R93): the lowest CAUSE. -/
def nextFault (x : Cell) (own : Own) : Option (Nat × Nat × Nat) :=
  let q := x.seq
  let w := x.instr q.pc
  lowerFault (x.parity.map (fun p => (5, p.1, p.2)))
    (if q.pc > 511 then some (4, 4, 0)
     else match x.instrBad q.pc with
     | some k => some (5, 1, 4 * k)
     | none =>
       if (opInfo w).isNone then some (4, 1, 0)
       else
         let lc := legalCtx x q x.mat.issued false q.pc
         issueFault x w lc (countOf w lc.vl lc.const) q.lastChain.isSome (if q.pc < 511 then some (x.instr (q.pc + 1)) else none)
           (queueFull x ((opInfo w).bind (·.unit))) own (checkedFault q))

/-- Fault data of the main context's next instruction. -/
def nextAt (x : Cell) : FaultAt := mainAt x.seq (if x.seq.pc ≤ 511 then wOp (x.instr x.seq.pc) else 0xFF) x.seq.pc

/-- Whether the main context issues at all: it has not halted, faulted or issued DRYDOWN. -/
def Cell.issuing (x : Cell) : Bool := x.state == .running && !x.seq.dried

/-- The main context's next instruction is taken as a fault, when it meets one: a parity error that waits is one (R92). Where the context
issues no more, the parity error alone is recorded. -/
def State.takeNext (s : State) (c : Nat) : State :=
  let x := s.cell c
  match (if x.issuing then nextFault x (ownOf s x) else x.parity.map (fun p => (5, p.1, p.2))) with
  | none => s
  | some f => (s.setCell c { x with parity := none }).takeFault c f.1 f.2.1 f.2.2 false (nextAt x)

end Sys2Proof.Machine
end

