-- ==== Sys2Proof/Machine/Memory.lean ====
section
/-!
DEFINITION. HBM (R323–R333): granules with their code, the addresses of stacks, accesses by the device's own agents; the slot table
(R334–R342); and stream descriptors (R343–R349).
-/

namespace Sys2Proof.Machine

/-! ### Granules -/

/-- Granule n of a stack as its code reads it (R327–R329). -/
def MemPort.granule (q : MemPort) (n : Nat) : RsResult := rsDecode (mreadN q.data (64 * n) 64) (mreadN q.check (4 * n) 4)
/-- The 68 stored symbols of a granule. -/
def MemPort.symbols (q : MemPort) (n : Nat) : List Byte := mreadN q.data (64 * n) 64 ++ mreadN q.check (4 * n) 4
/-- A valid codeword stored in a granule (R333). -/
def MemPort.putGranule (q : MemPort) (n : Nat) (bs : List Byte) : MemPort :=
  let d := slice bs 0 64
  { q with data := mwriteN q.data (64 * n) d, check := mwriteN q.check (4 * n) (rsCheck d) }
/-- The poison pattern stored in a granule (R328). -/
def MemPort.putPoison (q : MemPort) (n : Nat) : MemPort :=
  { q with data := mclear q.data (64 * n) (64 * n + 64), check := mwriteN q.check (4 * n) poisonCheck }

/-- The stack of a local HBM address, and its byte offset there (R324, R34). -/
def stackOf (a : Nat) : Nat := a / 2 ^ 36
def stackOff (a : Nat) : Nat := a % 2 ^ 36
def isHbm (a : Nat) : Bool := decide (a < 12 * 2 ^ 36)

/-! ### Places -/

/-- What an address names. Offsets count from the start of a block; an access has the width of the register that it names (log 60). -/
inductive Place where
  | hub (o : Nat)
  | cell (c o : Nat)
  | bay (b o : Nat)
  | engine (e o : Nat)
  | memPort (p o : Nat)
  | gacon (g o : Nat)
  | seqTable (n o : Nat)
  | builder (i o : Nat)
  | barrier (n o : Nat)
  | counters (o : Nat)
  | spad (c a : Nat)
  | hbm (a : Nat)
  | firmware (o : Nat)
  | vfRegs (i o : Nat)
  | msix (f : HostFn) (o : Nat)
  | pba (f : HostFn) (o : Nat)
  | ones
  | lost (i : Nat)
  | nowhere
  deriving DecidableEq, Repr

/-- Table 1.5. -/
def decodeLocal (a : Nat) : Place :=
  if isHbm a then .hbm a
  else if a < 0x010000000000 then .nowhere
  else if a < 0x010400000000 then .spad ((a - 0x010000000000) / 2 ^ 22) (a % 2 ^ 22)
  else if a < 0x020000000000 then .nowhere
  else if a < 0x020010000000 then .cell ((a - 0x020000000000) / 2 ^ 16) (a % 2 ^ 16)
  else if a < 0x021000000000 then .nowhere
  else if a < 0x021002000000 then .bay ((a - 0x021000000000) / 2 ^ 20) (a % 2 ^ 20)
  else if a < 0x022000000000 then .nowhere
  else if a < 0x022000600000 then .engine ((a - 0x022000000000) / 2 ^ 16) (a % 2 ^ 16)
  else if a < 0x022800000000 then .nowhere
  else if a < 0x022800C00000 then .memPort ((a - 0x022800000000) / 2 ^ 20) (a % 2 ^ 20)
  else if a < 0x023000000000 then .nowhere
  else if a < 0x023001000000 then .gacon ((a - 0x023000000000) / 2 ^ 20) (a % 2 ^ 20)
  else if a < 0x024000000000 then .nowhere
  else if a < 0x024000800000 then .seqTable ((a - 0x024000000000) / 128) (a % 128)
  else if a < 0x024000A00000 then .builder ((a - 0x024000800000) / 2 ^ 16) (a % 2 ^ 16)
  else if a < 0x025000000000 then .nowhere
  else if a < 0x025000100000 then .barrier ((a - 0x025000000000) / 64) (a % 64)
  else if a < 0x026000000000 then .nowhere
  else if a < 0x026001000000 then .counters (a - 0x026000000000)
  else if a < 0x030000000000 then .nowhere
  else if a < 0x030002000000 then .hub (a - 0x030000000000)
  else if a < 0x030004000000 then .firmware (a - 0x030000000000)
  else .nowhere

/-! ### HBM -/

/-- The 64 bytes of the granule that holds local HBM address a, corrected; an uncorrectable or poisoned one gives its stored bytes. -/
def State.hbmGranule (s : State) (a : Nat) : List Byte :=
  let q := s.port (stackOf a)
  match q.granule (stackOff a / 64) with
  | .good d => d
  | .corrected d => d
  | _ => mreadN q.data (stackOff a / 64 * 64) 64

/-- n bytes of HBM from local address a on, by granules: k granules are read. -/
def State.hbmRun (s : State) (a n : Nat) : Nat → List Byte
  | 0 => []
  | k + 1 =>
    if n = 0 then [] else
    let g := (s.hbmGranule a).drop (a % 64)
    let m := min n (64 - a % 64)
    g.take m ++ s.hbmRun (a + m) (n - m) k

/-- n bytes of HBM from local address a on. -/
def State.hbmRead (s : State) (a n : Nat) : List Byte := s.hbmRun a n (n / 64 + 2)

/-- A number read from HBM. -/
def State.hbmNat (s : State) (a n : Nat) : Nat := leNat (s.hbmRead a n)

/-- Bytes stored in HBM from local address a on, as whole granules: a partly covered granule keeps its other bytes. -/
def State.hbmRunW (s : State) (a : Nat) (bs : List Byte) : Nat → State
  | 0 => s
  | k + 1 =>
    if bs.isEmpty then s else
    let m := min bs.length (64 - a % 64)
    let old := if m = 64 then [] else s.hbmGranule a
    let g := if m = 64 then bs.take 64 else old.take (a % 64) ++ bs.take m ++ old.drop (a % 64 + m)
    (s.updPort (stackOf a) (fun q => q.putGranule (stackOff a / 64) g)).hbmRunW (a + m) (bs.drop m) k

/-- Bytes stored in HBM from local address a on (R333). -/
def State.hbmWrite (s : State) (a : Nat) (bs : List Byte) : State := s.hbmRunW a bs (bs.length / 64 + 2)

/-- Local HBM addresses from lo to hi − 1 of one stack set to 0 with valid codewords. -/
def State.hbmClear (s : State) (lo hi : Nat) : State :=
  s.updPort (stackOf lo) (fun q =>
    let a := stackOff lo
    let b := a + (hi - lo)
    { q with data := mclear q.data a b, check := mclear q.check (a / 16) (b / 16) })

/-! ### Slots -/

/-- Class of traffic slot t under a split (Table 9.4): 0 read, 1 write, 2 remote. -/
def splitClass (split : BitVec 2) (t : Nat) : Nat :=
  let l := if split = 0 then [0, 0, 1, 0, 0, 2, 0, 1, 0, 0, 1, 0, 0, 2, 0, 1]
    else if split = 1 then [0, 0, 0, 1, 0, 0, 2, 0, 0, 0, 0, 1, 0, 0, 2, 0]
    else if split = 2 then [0, 1, 0, 1, 0, 2, 0, 1, 0, 1, 0, 1, 0, 2, 0, 1]
    else [0, 0, 2, 0, 0, 1, 0, 2, 0, 0, 2, 0, 0, 1, 0, 2]
  nth l (t % 16) 0

/-- Class of slot i of the table (R335): 3 is maintenance. -/
def slotClass (split : BitVec 2) (i : Nat) : Nat := if i % 32 = 31 then 3 else splitClass split (i - i / 32)

/-- Entry v written to slot i (Table 9.6): SUITE and AGENT are kept whether it is ASSIGNED or not. -/
def putSlot (q : MemPort) (i : Nat) (v : W16) : MemPort :=
  let e := (fld v 8 5, fld v 1 7)
  { q with slots := if v.getLsbD 15 then sset q.slots i e else sdel q.slots i
           slotOff := if v.getLsbD 15 || e == (0, 0) then sdel q.slotOff i else sset q.slotOff i e }

/-- The entries in force at a port once every write that waits has taken effect. -/
def settledSlots (q : MemPort) : SMap (BitVec 5 × BitVec 7) := (q.slotReqs.foldl (fun q r => putSlot q r.1 r.2.1) q).slots

/-- The slot under way. -/
def State.slotNow (s : State) : Nat := s.now / 25

/-- The period of a slot count at a port, and its index in the table. -/
def slotPeriod (q : MemPort) (n : Nat) : Nat := (n - q.base) / 1024
def slotIx (q : MemPort) (n : Nat) : Nat := (n - q.base) % 1024

/-- Entry writes whose period has come take effect (R341). -/
def settleSlots (q : MemPort) (n : Nat) : MemPort :=
  let p := slotPeriod q n
  let due := q.slotReqs.filter (fun r => decide (r.2.2 ≤ p))
  let q' := due.foldl (fun q r => putSlot q r.1 r.2.1) q
  { q' with slotReqs := q'.slotReqs.filter (fun r => !decide (r.2.2 ≤ p)) }

/-- The next slot of a port, from the one under way, whose work is not done and which p accepts with its entry. -/
def State.nextSlot (s : State) (port : Nat) (p : MemPort → Nat → Option (BitVec 5 × BitVec 7) → Bool) : Option Nat :=
  let q := s.port port
  let n0 := match q.lastSlot with
    | some l => max s.slotNow (l + 1)
    | none => s.slotNow
  (findBelow 2048 (fun k =>
    let q' := settleSlots q (n0 + k)
    let i := slotIx q' (n0 + k)
    p q' i ((q'.slots.find? (fun e => e.1 == i)).map (·.2)))).map (n0 + ·)

/-- Agent of a stream engine's context in a slot entry. -/
def seAgent (e c : Nat) : Nat := e % 8 * 16 + c
/-- The stream context that an agent names at a port. -/
def agentCtx (port : Nat) (a : BitVec 7) : StreamCtx :=
  .se (Fin.ofNat 96 (8 * port + a.toNat / 16)) (Fin.ofNat 16 (a.toNat % 16))
/-- Port of a stream context's engine. -/
def ctxPort : StreamCtx → Nat
  | .se e _ => e.val / 8
  | .gacon _ _ => 12
/-- The suite that a context belongs to (R343): the one whose slots name it; for a context without slots, the one it is placed for. -/
def State.ctxSuite (s : State) (x : StreamCtx) : Option Nat :=
  let placed := findBelow 32 (fun i => (s.suite i).contexts.any (fun k => k.2.2 == x))
  match x with
  | .se e c =>
    match (s.port (e.val / 8)).slots.find? (fun k => k.2.2.toNat == seAgent e.val c.val && slotClass s.repair.split k.1 ≠ 2) with
    | some k => some k.2.1.toNat
    | none => placed
  | .gacon _ _ => placed

/-- A tile moved in a suite's owned slot (R613). -/
def State.meterHbm (s : State) (i : Nat) : State :=
  s.updSuite i (fun u => { u with meter := { u.meter with hbmBytes := u.meter.hbmBytes + 4096 } })

/-! ### Stream descriptors (Table 9.7) -/

def dNat (d : BitVec 512) (lo n : Nat) : Nat := nbits d.toNat lo n
def dKind (d : BitVec 512) : Nat := dNat d 1 3
def dProv (d : BitVec 512) : Bool := nbit d.toNat 4
def dIdxSp (d : BitVec 512) : Bool := nbit d.toNat 5
def dDepth (d : BitVec 512) : Nat := dNat d 8 4
def dSuite (d : BitVec 512) : Nat := dNat d 16 5
def dTracks (d : BitVec 512) : Nat := dNat d 24 4
def dFpb (d : BitVec 512) : Nat := dNat d 28 3
def dPhase (d : BitVec 512) : Nat := dNat d 32 4
def dZone (d : BitVec 512) : Nat := dNat d 40 6
def dRowCell (d : BitVec 512) : Nat := dNat d 48 12
def dStart (d : BitVec 512) : Nat := dNat d 64 32
def dDue0 (d : BitVec 512) : Nat := dNat d 96 32
def dTileBeats (d : BitVec 512) : Nat := dNat d 128 16
def dPanes (d : BitVec 512) : Nat := dNat d 144 8
def dAddr (d : BitVec 512) : Nat := dNat d 160 22
def dTarget (d : BitVec 512) : Nat := dNat d 192 12
def dElem (d : BitVec 512) : Nat := dNat d 208 16
def dBase (d : BitVec 512) : Nat := dNat d 224 54
def dIdx (d : BitVec 512) : Nat := dNat d 288 54
def dCount (d : BitVec 512) (j : Nat) : Nat := dNat d (352 + 16 * j) 16
def dStride (d : BitVec 512) (j : Nat) : Int := signedNat 24 (dNat d (416 + 24 * j) 24)

/-- A read of tiles (KIND 0, 2), a write (1, 3), or a row stream (4). -/
def dReads (d : BitVec 512) : Bool := dKind d == 0 || dKind d == 2
def dWrites (d : BitVec 512) : Bool := dKind d == 1 || dKind d == 3
def dIndexed (d : BitVec 512) : Bool := dKind d == 2 || dKind d == 3
/-- The set bits of TRACKS. -/
def dTrackList (d : BitVec 512) : List Nat := (List.range 4).filter (nbit (dTracks d))
/-- Number of tiles N (R346). -/
def dTiles (d : BitVec 512) : Nat :=
  if dIndexed d then dCount d 0 * dElem d else dCount d 0 * dCount d 1 * dCount d 2 * dCount d 3

/-- Address of tile k (R346); none while its index is not known. -/
def dTileAddr (d : BitVec 512) (ix : List W32) (k : Nat) : Option Int :=
  if dIndexed d then
    (ix[k / dElem d]?).map (fun v => (dBase d : Int) + 4096 * ((v.toNat * dElem d + k % dElem d : Nat) : Int))
  else
    let i0 := k % dCount d 0
    let r := k / dCount d 0
    let i1 := r % dCount d 1
    let r := r / dCount d 1
    let i2 := r % dCount d 2
    let i3 := r / dCount d 2
    some ((dBase d : Int) + 4096 * ((i0 : Int) * dStride d 0 + (i1 : Int) * dStride d 1 + (i2 : Int) * dStride d 2 + (i3 : Int) * dStride d 3))

/-- Tiles of a row stream (R299, R356). -/
def rowTiles : Nat := 65

/-- Whether a descriptor of a suite breaks Table 9.7 or a range of chapter 9 (R343, R345, R351, R356, R357, R461), or names a row that the
engine does not reach (R31). port is 12 for a Gacon engine. -/
def dBad (d : BitVec 512) (suite port : Nat) : Bool :=
  let gacon := port == 12
  let far := fun (c : Nat) => !gacon && cellDie c != port / 3
  let k := dKind d
  let t := (dTrackList d).length
  let wide := if gacon then 54 else 48
  decide (k > (if gacon then 3 else 4)) || dNat d 6 2 != 0 || decide (dDepth d > 8) || dSuite d != suite || t == 0
  || (!dReads d && (dProv d || dZone d != 0 || (!(gacon && dWrites d) && dNat d 160 22 != 0) || dTarget d != 0 || dPanes d != 0))
  || (!dReads d && dTileBeats d != 0) || (!dIndexed d && (dElem d != 0 || dIdxSp d))
  || (dReads d && (dFpb d == 0 || decide (dFpb d > 3) || decide (dPhase d + 5 * dFpb d > 16) || cellLx (dRowCell d) != 0
      || decide (dTileBeats d < cdiv 32 (t * dFpb d)) || dPanes d == 0 || decide (dPanes d > 128) || dAddr d % 4096 != 0
      || decide (dAddr d / 4096 % 128 + dPanes d > 128)))
  || (dWrites d && (dFpb d == 0 || decide (dFpb d > 4) || decide (dPhase d + 4 * dFpb d > 16) || cellLx (dRowCell d) != 15))
  || (k == 4 && (cellLx (dRowCell d) != 0 || dDue0 d != 0 || dNat d 28 3 != 0 || dTiles d != rowTiles))
  || (dIndexed d && (dElem d == 0 || decide (dElem d > 4096) || dCount d 1 != 1 || dCount d 2 != 1 || dCount d 3 != 1
      || (!dIdxSp d && (dNat d 288 54 % 4096 != 0 || dNat d (288 + wide) (64 - wide) != 0))))
  || far (dRowCell d) || (dIndexed d && dIdxSp d && (far (dIdx d % 2 ^ 12) || cellLx (dIdx d % 2 ^ 12) != 15))
  || dBase d % 4096 != 0 || dNat d (224 + wide) (64 - wide) != 0
  || (List.range 4).any (fun j => dCount d j == 0)

/-- Whether a tile at local address a lies in one of a suite's HBM windows (R347). -/
def inWindow (u : Suite) (a : Nat) : Bool :=
  u.windows.any (fun w => decide (w.base * 2 ^ 24 ≤ a) && decide (a < (w.base + w.extents) * 2 ^ 24))
/-- Whether local address a lies in a suite's protected window. -/
def inProtected (u : Suite) (a : Nat) : Bool :=
  u.protExts.any (fun p => decide (p.1 * 2 ^ 36 + p.2.1 * 2 ^ 24 ≤ a) && decide (a < p.1 * 2 ^ 36 + (p.2.1 + p.2.2) * 2 ^ 24))

/-- A stream's tile address as a legal local address (R347). -/
def legalTile (u : Suite) (port : Nat) (row : Bool) (a : Int) : Option Nat :=
  let n := a.toNat
  if a < 0 ∨ stackOf n ≠ port then none
  else if (if row then inProtected u n else inWindow u n && !inProtected u n) then some n else none

end Sys2Proof.Machine
end

