-- ==== Sys2Proof/Machine/Transport.lean ====
section
/-!
DEFINITION. What crosses the hub and the Gacon ports: messages towards cells (R377), transactions and their headers (R453, R456),
write-loss notices (R465, R466), and the barrier pool (R395–R399).
-/

namespace Sys2Proof.Machine

/-! ### Messages towards cells -/

/-- The hub sends a message down the bay node of its destination cell (R378); vc: the channel it came by from another part. -/
def State.toCell (s : State) (m : W256) (vc : Option Nat) : State :=
  let c := mDstQueue m / 256
  s.updBay (cellBay c) (fun y => { y with down := y.down ++ [(cellId c, m, vc)] })

/-! ### Transactions -/

def txnOp (t : Txn) : Nat := (fld t.hdr 0 4).toNat
def txnHops (t : Txn) : Nat := (fld t.hdr 8 3).toNat
def txnProv (t : Txn) : Bool := t.hdr.getLsbD 11
def txnPgen (t : Txn) : Nat := (fld t.hdr 12 4).toNat
def txnSuite (t : Txn) : Nat := (fld t.hdr 16 5).toNat
def txnSrc (t : Txn) : Nat := (fld t.hdr 24 6).toNat
def txnAddr (t : Txn) : Nat := (fld t.hdr 32 54).toNat
def txnLen (t : Txn) : Nat := (fld t.hdr 96 32).toNat
def txnSeq (t : Txn) : Nat := (fld t.hdr 128 32).toNat
def txnCoverBar (t : Txn) : Nat := (fld t.hdr 160 14).toNat
def txnCoverV (t : Txn) : Bool := t.hdr.getLsbD 175
def txnCoverGen (t : Txn) : Nat := (fld t.hdr 176 16).toNat
def txnPoison (t : Txn) : W64 := fld t.hdr 192 64

/-- A header laid out as Table 12.7. -/
def txnHdr (op hops prov pgen suite src addr len seqNo cover gen : Nat) (poison : W64) : W256 :=
  BitVec.ofNat 256 (op + hops * 2 ^ 8 + prov * 2 ^ 11 + pgen * 2 ^ 12 + suite * 2 ^ 16 + src * 2 ^ 24 + addr * 2 ^ 32 + len * 2 ^ 96
    + seqNo * 2 ^ 128 + cover * 2 ^ 160 + gen * 2 ^ 176 + poison.toNat * 2 ^ 192)

/-- The message of a MSG or NOTICE (R456). -/
def txnMsg (t : Txn) : W256 := BitVec.ofNat 256 (leAt t.body 0 32)

/-- Destination part of a transaction: of its address, or of its message. -/
def txnDst (t : Txn) : Nat := if txnOp t = 3 ∨ txnOp t = 5 then mDstPart (txnMsg t) else txnAddr t / 2 ^ 48

/-- Link flits of a transaction: 256 bytes each (R456). -/
def txnFlits (t : Txn) : Nat := cdiv (32 + t.body.length) 256

/-- Whether a port passes transactions: UP, or in a lane failover, which loses none (R449). -/
def portUp (q : GaconPort) : Bool := q.state == .up || q.state == .failover

/-- Addition at an index of a list of five. -/
def addAt (l : List Nat) (v k : Nat) : List Nat := (List.range 5).map (fun i => nth l i 0 + (if i = v then k else 0))

/-- A transaction leaves its receive buffer, whose entries are returned as credits (R442). -/
def State.freeTxn (s : State) (g vc : Nat) (t : Txn) : State :=
  if t.arrived.isSome then s.updGport g (fun q => { q with giveBack := addAt q.giveBack vc (txnFlits t) }) else s

/-- The virtual channel of a suite's class (R441). -/
def State.suiteVc (s : State) (i : Nat) : Nat := (s.suite i).cls % 4

/-- A write-loss notice's message (R466). -/
def lossMessage (s : State) (suite reason addr len src wseq : Nat) : W256 :=
  message addr len 15 3 suite 3 (0x100 + reason) s.part.toNat src 0xFFFFF 0 wseq

/-- A notice reaches its initiator's part: into the suite's error queue, or logged when the suite no longer exists (R465). -/
def State.placeNotice (s : State) (m : W256) : State :=
  let i := mSuite m
  if (s.suite i).state = .none then s.logEvent 5 (mAddr m) (mTag m % 256) none else s.addRecord 1 (some i) m

/-- Whether a transaction may leave for a part, and by which port (R453): its port, if the entry is valid and the port UP. -/
def State.routeTo (s : State) (dst : Nat) : Option Nat :=
  let r := sget (false, 0) s.routes dst
  if r.1 && portUp (s.gport r.2.toNat) then some r.2.toNat else none

/-- A transaction enters the transmit queue of port g on a virtual channel. -/
def State.queueTxn (s : State) (g vc : Nat) (t : Txn) : State :=
  let q := s.gport g
  let t := if txnOp t = 0 ∧ txnCoverV t ∧ !q.features.getLsbD 2 then { t with hdr := t.hdr &&& ~~~ (BitVec.ofNat 256 (0xFFFFFFFF * 2 ^ 160)) } else t
  s.setGport g { q with txq := supd [] q.txq vc (· ++ [t]) }

/-- A notice of a loss that this part found goes to the initiator (R465); without a route, or past a port without NOTICE, it is
logged (R447). -/
def State.sendNotice (s : State) (vc suite reason addr len src wseq : Nat) : State :=
  let m := lossMessage s suite reason addr len src wseq
  if src = s.part.toNat then s.placeNotice m else
  match s.routeTo src with
  | none => s.logEvent 5 addr reason none
  | some g =>
    if (s.gport g).features.getLsbD 3 then
      s.queueTxn g vc ⟨txnHdr 5 7 0 0 suite s.part.toNat 0 0 0 0 0 0, leBytes 32 m.toNat, none, none⟩
    else s.logEvent 5 addr reason none

/-! ### Barriers -/

/-- Domain address of a barrier. -/
def barAddr (s : State) (n : Nat) : Nat := s.part.toNat * 2 ^ 48 + 0x025000000000 + 64 * n

/-- The suite that owns a barrier's block (R395). -/
def State.barOwner (s : State) (n : Nat) : Option Nat := findBelow 32 (fun i => (s.suite i).barBlocks.contains (n / 256))

/-- ERR on a barrier (R397, steps 2 to 4): LATE_ERR for the generation before, STALE for another or a disarmed barrier, else ERROR. -/
def State.barErr (s : State) (n : Nat) (genchk : Bool) (gen : W16) : State :=
  let b := s.barrier n
  let owner := s.barOwner n
  if genchk ∧ gen = b.gen - 1 then (s.setBarrier n { b with lateErr := true }).suiteError 11 (barAddr s n) 0 .hub owner
  else if !b.armed ∨ (genchk ∧ gen ≠ b.gen) then (s.setBarrier n { b with stale := true }).suiteError 11 (barAddr s n) 0 .hub owner
  else s.setBarrier n { b with error := true }

/-- A transaction is refused or lost with a reason of Table 12.8 (R402, R457, R465): a covering barrier of this part takes ERR, and
the initiator a notice; a READ is answered by its caller. addr, len: the bytes lost. -/
def State.txnLost (s : State) (vc : Nat) (t : Txn) (reason addr len : Nat) : State :=
  let s := match t.arrived with
    | some g => s.countDev 0x213 g.val 1
    | none => s
  if txnOp t = 5 then s.logEvent 5 (mAddr (txnMsg t)) reason none else
  let s := if txnOp t = 0 ∧ txnCoverV t ∧ txnDst t = s.part.toNat then s.barErr (txnCoverBar t) true (BitVec.ofNat 16 (txnCoverGen t)) else s
  let wseq := if txnOp t = 0 then txnSeq t else 0
  s.sendNotice vc (txnSuite t) reason addr len (txnSrc t) wseq

/-- A READ delivered as VOID to the context that asked for it (R451, R463). -/
def State.voidReturn (s : State) (tag : W32) : State :=
  let g := tag.toNat / 2 ^ 28
  let q := s.gport g
  match q.asked.find? (fun e => e.2 == tag) with
  | none => s
  | some (id, _) =>
    s.setGport g { q with
      asked := q.asked.filter (fun e => e.2 != tag)
      reads := q.reads ++ [⟨id, 0, false, List.replicate 4096 0, (List.range 64).map (fun i => (i, .void)), none⟩] }

/-- The answer to a READ (R457): a RETURN of the tile, or of LENGTH 0. -/
def returnTxn (t : Txn) (tile : Option (List Byte × W64)) : Txn :=
  match tile with
  | some (d, poison) => ⟨txnHdr 2 7 0 0 (txnSuite t) (txnSrc t) (txnSrc t * 2 ^ 48) 4096 (txnSeq t) 0 0 poison, d, none, none⟩
  | none => ⟨txnHdr 2 7 0 0 (txnSuite t) (txnSrc t) (txnSrc t * 2 ^ 48) 0 (txnSeq t) 0 0 0, [], none, none⟩

/-- A READ, RETURN or other transaction that finds no route (R453): a READ is answered with a RETURN of LENGTH 0, which ends at this
part or leaves by its own route; what is posted becomes a notice. -/
def State.noRoute (s : State) (vc : Nat) (t : Txn) (reason : Nat) : State :=
  if txnOp t = 1 then
    (if txnSrc t = s.part.toNat then s.voidReturn (BitVec.ofNat 32 (txnSeq t))
     else match s.routeTo (txnSrc t) with
       | some g => s.queueTxn g vc (returnTxn t none)
       | none => s)
  else if txnOp t = 2 then s
  else s.txnLost vc t reason (if txnOp t = 3 then mAddr (txnMsg t) else txnAddr t) (if txnOp t = 0 then txnLen t else if txnOp t = 4 then 8 else 32)

/-- A transaction is sent towards its destination part (R453). One for this part joins those that port g has received (R39); a notice does
not pass a port without NOTICE, which is logged (R447). -/
def State.sendTxn (s : State) (g vc : Nat) (t : Txn) : State :=
  if txnDst t = s.part.toNat then s.updGport g (fun q => { q with rxq := supd [] q.rxq vc (· ++ [t]) })
  else match s.routeTo (txnDst t) with
    | some h => if txnOp t == 5 && !(s.gport h).features.getLsbD 3 then s.logEvent 5 (mAddr (txnMsg t)) (mTag (txnMsg t) % 256) none else s.queueTxn h vc t
    | none => s.noRoute vc t 3

/-- The hub sends a message of its own or of a suite (R372, R378): to a cell of this part, or by Gacon on the class's channel. -/
def State.sendMessage (s : State) (suite : Nat) (m : W256) : State :=
  if mDstPart m = s.part.toNat then s.toCell m none
  else s.sendTxn 0 (s.suiteVc suite) ⟨txnHdr 3 7 0 0 suite s.part.toNat 0 0 0 0 0 0, leBytes 32 (m ||| (1#256 <<< 121)).toNat, none, some (BitVec.ofNat 5 suite).toFin⟩

/-- Completion of a barrier whose last arrival has come (R398). -/
def State.barComplete (s : State) (n : Nat) : State :=
  let b := s.barrier n
  if b.arrived ≠ b.latched then s else
  let owner := (s.barOwner n).getD 0
  let s := s.setBarrier n { b with gen := b.gen + 1, arrived := 0, error := false, armed := b.autoRearm }
  ((List.range (min b.notifyCount.toNat 4)).map (fun k => nth b.notify k 0)).foldl (fun s e =>
    s.sendMessage owner (message (barAddr s n) 0 15 2 owner (b2n b.error) b.tag.toNat s.part.toNat (fld e 20 6).toNat 0xFFFFF (fld e 0 20).toNat b.gen.toNat)) s

/-- Whether a sender may command a barrier (R397, step 1), the suite that is reported, and whether it is of another part. -/
def barRefused (s : State) (n : Nat) : BarSrc → Bool
  | .mgmt => false
  | .vf i => s.barOwner n != some i.val
  | .cell i => s.barOwner n != some i.val
  | .remote _ _ => !(s.barrier n).remote

/-- A command with ARRIVE or ERR that passes step 1 of R397: ERR before the arrival (R399), step 2 discarding the arrival. -/
def State.barCommand (s : State) (n : Nat) (arrive err genchk : Bool) (gen : W16) : State :=
  let b := s.barrier n
  if err ∧ genchk ∧ gen = b.gen - 1 then s.barErr n genchk gen
  else if !b.armed ∨ (genchk ∧ gen ≠ b.gen) then
    (s.setBarrier n { b with stale := true }).suiteError 11 (barAddr s n) 0 .hub (s.barOwner n)
  else
    let s := if err then s.barErr n genchk gen else s
    if arrive then (s.setBarrier n { s.barrier n with arrived := (s.barrier n).arrived + 1 }).barComplete n else s

/-! ### Received transactions -/

/-- The next transaction of a virtual channel, when it is of an OP and the one before is decided (R459). -/
def gHead (s : State) (g vc op : Nat) : Option Txn :=
  let q := s.gport g
  if q.openW.any (fun e => e.1 == vc) then none else
  match sget [] q.rxq vc with
  | t :: _ => if txnOp t = op then some t else none
  | [] => none

/-- The head of a virtual channel is taken off its queue. -/
def State.popTxn (s : State) (g vc : Nat) : State :=
  s.updGport g (fun q => { q with rxq := sset q.rxq vc ((sget [] q.rxq vc).drop 1) })
/-- A transaction that has been decided is gone from its channel. -/
def State.endTxn (s : State) (g vc : Nat) (t : Txn) : State := (s.popTxn g vc).freeTxn g vc t

/-- An item of a WRITE under way is decided (R459): done, or lost with the reason of Table 12.8 and its length; the last one ends the transaction. -/
def State.decideItem (s : State) (i : WriteItem) (lost : Option (Nat × Nat)) : State :=
  match (s.gport i.port).openW.find? (fun e => e.2.write == i.write && e.2.left.contains i.item) with
  | none => s
  | some (vc, w) =>
    let s := match lost with
      | some (r, len) => s.txnLost vc w.txn r (txnAddr w.txn + len * i.item) len
      | none => s
    let left := w.left.filter (· != i.item)
    if left.isEmpty then (s.updGport i.port (fun q => { q with openW := sdel q.openW vc })).freeTxn i.port vc w.txn
    else s.updGport i.port (fun q => { q with openW := sset q.openW vc { w with left } })

/-- A WRITE is accepted off its channel with some items to decide, at least one (R459). -/
def State.openWrite (s : State) (g vc : Nat) (t : Txn) (items : List Nat) : State :=
  (s.popTxn g vc).updGport g (fun q => { q with openW := sset q.openW vc ⟨t, q.writes, items⟩, writes := q.writes + 1 })

/-- A posted transaction is refused whole (R457, R465). -/
def State.refuseTxn (s : State) (g vc : Nat) (t : Txn) (reason : Nat) : State :=
  let s := s.endTxn g vc t
  s.txnLost vc t reason (if txnOp t = 3 then mAddr (txnMsg t) else txnAddr t) (if txnOp t = 0 then txnLen t else if txnOp t = 4 then 8 else 32)

/-- Barrier of a local address (R34). -/
def barOf (a : Nat) : Option Nat :=
  if 0x025000000000 ≤ a ∧ a < 0x025000100000 then some ((a - 0x025000000000) / 64) else none

end Sys2Proof.Machine
end

