-- ==== Sys2Proof/Machine/Landing.lean ====
section
/-!
DEFINITION. Landing strips in their slots (R120–R125, R381, R459): the steps of R124, what is written, and what becomes of the strip of a
remote write.
-/

namespace Sys2Proof.Machine

/-- Fields of a landing frame's header (Table 9.8). -/
def lhAddr (f : Flit) : Nat := f.data.toNat % 2 ^ 22 / 128 * 128
def lhCell (f : Flit) : Nat := nbits f.data.toNat 22 12
def lhSuite (f : Flit) : Nat := nbits f.data.toNat 34 5
def lhProv (f : Flit) : Bool := nbit f.data.toNat 39
def lhPgen (f : Flit) : BitVec 4 := BitVec.ofNat 4 (nbits f.data.toNat 40 4)
def lhSender (f : Flit) : Nat := nbits f.data.toNat 44 8

/-- A strip of a Gacon port's WRITE is decided (R459, R465): counted, or lost with a reason. -/
def State.decideStrip (s : State) (item : Option WriteItem) (reason : Option Nat) : State :=
  match item with
  | none => s
  | some i => s.decideItem i (reason.map (fun r => (r, 128)))

/-- The refusal report of R381: a SYSTEM message to the zone's credit partner. -/
def State.refusalReport (s : State) (c z a : Nat) : State :=
  let x := s.cell c
  match (x.zone z).partner with
  | none => s
  | some (part, queue) =>
    s.toHub c (.msg (message (spadAddr s c a) 128 15 3 ((cellSuite x).getD 0) 0 0 s.part.toNat part.toNat 0xFFFFF queue.toNat z))

/-- The bytes of a landing strip; those of a missing flit are open (log 1). -/
def landBytes (s : State) (l : Landing) : List Byte × State :=
  l.data.foldl (fun (acc : List Byte × State) f =>
    match f with
    | some f => (acc.1 ++ flitBytes f, acc.2)
    | none =>
      let (f, s) := acc.2.voidFlit
      (acc.1 ++ flitBytes f, s)) ([], s)

/-- A landing strip in its slot (R123, R124): the step that applies, and the pane that its VOID flits poison (R257). -/
def State.landStrip (s : State) (c : Nat) (l : Landing) : State × List Nat :=
  let x := s.cell c
  let h := l.header
  let a := lhAddr h
  let err := fun (s : State) (suite : Option Nat) => s.suiteError 6 (spadAddr s c a) 0 (.cell (cellId c)) suite
  let lost := fun (s : State) (reason : Nat) => (s.decideStrip h.strip (some reason), ([] : List Nat))
  if !x.onSchedule then lost (err s (cellSuite x)) 9
  else if cellSuite x ≠ some (lhSuite h) then lost (err s (some (lhSuite h))) 5
  else match (if aOctant a = l.octant then x.zoneOf (gPane a) else none) with
    | none => lost (err s (cellSuite x)) 5
    | some z =>
      let v := x.zone z
      if lhProv h ∧ lhPgen h ≠ v.pgen then lost (s.setCell c ((x.setZone z { v with stale := true }).count 0x042 1)) 6
      else if v.mode ∧ v.credits = 0 then
        -- R381 and R382 give a report to a cell alone: a stream engine's refusal is in the error queue (DESIGN CHOICE, log 92)
        let s := err (s.setCell c ((x.setZone z { v with refused := true }).count 0x043 1)) (cellSuite x)
        lost (if lhSender h = 0xC0 then s.refusalReport c z a else s) 7
      else if x.tag (gPane a) ≠ .empty then lost (err (s.setCell c (x.setZone z { v with tagErr := true })) (cellSuite x)) 8
      else
        let (bs, s) := landBytes s l
        let x := ((s.cell c).putBytes (((List.range 128).map (a + ·)).zip bs)).touch [gPane a]
        let (v, excess) := zoneCount v (lhProv h)
        let v := if v.mode then { v with credits := v.credits - 1 } else v
        let s := s.setCell c ((x.setZone z v).count (if lhProv h then 0x041 else 0x040) 1)
        let s := if excess then s.suiteError 7 (spadAddr s c a) z (.cell (cellId c)) (cellSuite x) else s
        (s.decideStrip h.strip none, if l.data.any (fun f => (f.map (·.void)).getD true) then [gPane a] else [])

end Sys2Proof.Machine
end

