-- ==== Sys2Proof/Machine/Cycle.lean ====
section
/-!
DEFINITION. What happens in a cell in one of its clock cycles (R58, R69, R91, R102–R114, R123–R130, R136–R141, R208, R636), and the passing
of time (log 11). The commands of a cycle come first; then, as the cycle passes, the accesses that the started instructions and the landing
slots make in it, the tag events in the order of R114, its faults (R93), and what management and the scrubbers find free (R110).
-/

namespace Sys2Proof.Machine

/-- Whether a cycle of the cell's engines passes: no hold freezes it, and it runs a section, or loads one (R62, R275, R312). -/
def Cell.clocked (x : Cell) : Bool := !x.frozen && x.state != .idle && x.state != .waitingStart

/-! ### Instructions in flight -/

/-- Whether an instruction still acts in schedule cycle t (R91). -/
def InFlight.live (f : InFlight) (t : Nat) : Bool :=
  match f.cut with
  | some k => decide (t < k)
  | none => true

/-- What an instruction has read so far, by the place of the read. -/
def InFlight.data (f : InFlight) : List (List Byte) := (List.range (f.reads.length + f.takes.length + 1)).map (sget [] f.got)

/-- The plan of an instruction in flight in a cell of a part. -/
def planOf (x : Cell) (part : Nat) (f : InFlight) : Plan :=
  let i := f.instr
  let ch := chainedBytes x f
  match f.engine with
  | .matrix => matPlan i f.start
  | .vector => vecPlan x i f.start ch
  | .reduction => redPlan x i f.start ch
  | .moveSend => movePlan i f.start part ((cellSuite x).getD 0) (x.zone (wE i.word 8 6)).pgen ch f.msg
  | .counter => counterPlan i f.start

/-- One of the accesses to an octant in a cycle: its strip-aligned address and, for an engine's, the instruction's number. -/
structure Access where
  octant : Nat
  addr : Nat
  seqNo : Option Nat
  deriving DecidableEq, Repr

/-- The octant of a strip with its aligned address. -/
def stripAccess (n : Option Nat) (addrs : List Nat) : List Access :=
  match addrs with
  | a :: _ => [⟨aOctant a, a / 128 * 128, n⟩]
  | [] => []

/-- The accesses that an instruction in flight makes in schedule cycle t; a merging write takes a second cycle (R106). -/
def accessesOf (f : InFlight) (t : Nat) : List Access :=
  if !f.live t then [] else
  (f.reads.filter (fun r => r.1 == t)).flatMap (fun r => stripAccess (some f.instr.seqNo) r.2)
  ++ (f.slots.filter (fun w => w.cycle == t || (w.cycle + 1 == t && merging w))).flatMap (fun w => stripAccess (some f.instr.seqNo) w.addrs)

/-- A fault that the cell meets in a cycle: the instruction it is recorded on, CAUSE, DETAIL, address. -/
structure CycleFault where
  instr : Issued
  cause : Nat
  detail : Nat
  addr : Nat
  deriving DecidableEq, Repr

/-- What a cycle finds, gathered while it passes: the state, the panes to poison with the code of the record (Table 16.4), the faults, and
the corrected words (R137). -/
structure Found where
  s : State
  poison : List (Nat × Nat) := []
  faults : List CycleFault := []

/-- Insertion by issue number. -/
def insFlight (f : InFlight) : List InFlight → List InFlight
  | [] => [f]
  | g :: r => if f.instr.seqNo < g.instr.seqNo then f :: g :: r else g :: insFlight f r

/-- The instructions in flight in issue order. -/
def Engines.inOrder (e : Engines) : List InFlight := e.inflight.foldl (fun l f => insFlight f l) []

/-- An instruction in flight replaced. -/
def Cell.setFlight (x : Cell) (f : InFlight) : Cell :=
  { x with eng := { x.eng with inflight := x.eng.inflight.map (fun g => if g.instr.seqNo = f.instr.seqNo then f else g) } }

/-- The accesses of an instruction, and its tag updates, stop in schedule cycle t (R91). -/
def InFlight.stop (f : InFlight) (t : Nat) : InFlight :=
  { f with cut := some (match f.cut with
      | some k => min k t
      | none => t) }

/-- The chained strips that an instruction takes (R250). -/
def chainNeed (f : InFlight) : Nat :=
  let i := f.instr
  match f.engine with
  | .vector => cdiv (bytesOf i.n (fmtWidth (wSfmt i.word))) 128
  | .reduction => redSteps i.word i.n
  | .moveSend => moveNeed i.word i.n
  | _ => 0

/-- An instruction that k chained strips reach and no more: the first step that takes another, and every later one, waits for good (R250),
so that their reads, writes, sends and deliveries are not made, nor its tag updates (R91). A read that is not made is put in cycle 0. -/
def InFlight.starve (f : InFlight) (k : Nat) : InFlight :=
  let w := f.instr.word
  let t := f.start + (match f.engine with
    | .vector => k * 1024 / (fmtWidth (wSfmt w) * vecStep w) * vecPace (wOp w)
    | .moveSend => if wOp w = 0x91 ∨ wOp w = 0x93 then k * paceOf w else k
    | _ => k)
  let out := t + (if f.engine = .vector then vecLat (wOp w) else if wOp w = 0x90 then 2 else 0)
  { f.stop out with reads := f.reads.map (fun r => (if t ≤ r.1 then 0 else r.1, r.2)), lastRead := if t ≤ f.lastRead then max out f.lastRead else f.lastRead }

/-- The strips that instruction n would deliver from cycle t on never come, and the instruction it feeds starves (R91, R250); fuel bounds the
length of a chain. -/
def Cell.dropChain : Nat → Cell → Nat → Nat → Cell
  | 0, x, _, _ => x
  | fuel + 1, x, n, t =>
    let lost := fun (e : Nat × Nat × Option (List Byte)) => e.1 == n && e.2.2.isNone && decide (t ≤ e.2.1)
    if !(x.eng.chainMV ++ x.eng.chainVR).any lost then x else
    let mv := x.eng.chainMV.filter (fun e => !lost e)
    let vr := x.eng.chainVR.filter (fun e => !lost e)
    let k := (mv ++ vr).countP (fun e => e.1 == n)
    let fed := x.eng.inflight.filter (fun f => f.instr.chainedIn == some n)
    let y := { x with eng := { x.eng with chainMV := mv, chainVR := vr
                                          inflight := x.eng.inflight.map (fun f => if f.instr.chainedIn == some n then f.starve k else f) } }
    fed.foldl (fun y f => y.dropChain fuel f.instr.seqNo ((f.starve k).cut.getD 0)) y

/-- An instruction of a cell stops in schedule cycle t, with what it has not delivered on its chain path. -/
def Cell.stopFlight (x : Cell) (n t : Nat) : Cell :=
  Cell.dropChain 2 { x with eng := { x.eng with inflight := x.eng.inflight.map (fun g => if g.instr.seqNo == n then g.stop t else g) } } n t

/-- An instruction that starts when its producer has been cut has fewer chained strips than it takes (R91, R250). -/
def Cell.feedEnds (x : Cell) (f : InFlight) : Cell :=
  match f.instr.chainedIn with
  | none => x
  | some p =>
    let k := (chainOf (x.eng.pathTo f.engine) p).length
    if chainNeed f ≤ k then x else (x.setFlight (f.starve k)).dropChain 1 f.instr.seqNo ((f.starve k).cut.getD 0)

/-- A fault of an instruction in cycle t, which cuts it (R91). -/
def Found.fault (d : Found) (c t : Nat) (f : InFlight) (cause detail addr : Nat) : Found :=
  { d with s := d.s.updCell c (fun x => x.stopFlight f.instr.seqNo t)
           faults := d.faults ++ [⟨f.instr, cause, detail, addr⟩] }

/-- An uncorrectable word that an instruction meets poisons its pane and faults it (R139). -/
def Found.badWord (d : Found) (c t : Nat) (f : InFlight) (bad : List Nat) : Found :=
  match bad with
  | [] => d
  | a :: _ => { ({ d with s := d.s.noteBad c bad } : Found).fault c t f 2 3 (paneAddr (gPane a)) with poison := d.poison ++ (dedup (bad.map gPane)).map (fun g => (g, 2)) }

/-! ### Collisions (R109) -/

/-- The octants that more than one access reaches. -/
def collided (as : List Access) : List Nat := (List.range 8).filter (fun o => decide (2 ≤ (as.filter (fun a => a.octant == o)).length))

/-- Two accesses of one octant in a cycle: neither takes effect, both instructions are cut, and the fault is recorded on the first in issue
order (R109). Where only landing strips meet, no instruction is involved, and the fault is recorded on the main context's next instruction
(DESIGN CHOICE, log 92). -/
def Found.collide (d : Found) (c t : Nat) (as : List Access) : Found :=
  (collided as).foldl (fun d o =>
    let mine := as.filter (fun a => a.octant == o)
    let x := d.s.cell c
    let hit := x.eng.inOrder.filter (fun f => mine.any (fun a => a.seqNo == some f.instr.seqNo))
    let s := d.s.setCell c (hit.foldl (fun x f => x.stopFlight f.instr.seqNo t) x)
    let s := s.updCell c (fun x => { x with trk := { x.trk with
      landings := x.trk.landings.filter (fun l => !(l.wall == x.obs.wall && l.octant == o)) } })
    match hit with
    | f :: _ =>
      let addr := ((mine.filter (fun a => a.seqNo == some f.instr.seqNo)).head?.map (·.addr)).getD 0
      { d with s := s, faults := d.faults ++ [⟨f.instr, 1, 4, addr⟩] }
    | [] =>
      { d with s := s.takeFault c 1 4 ((mine.head?.map (·.addr)).getD 0) true (nextAt x) }) d

/-! ### Reads, deliveries and writes -/

/-- Whether a pane still carries a mark of an instruction earlier than number me (R69). -/
def marked (marks : List (Nat × Nat)) (me g : Nat) : Bool := marks.any (fun m => m.1 == g && decide (m.2 < me))

/-- The first of some panes with a property. -/
def firstPane (addrs : List Nat) (p : Nat → Bool) : Option Nat := (dedup (addrs.map gPane)).find? p

/-- The strip reads of one instruction in cycle t (R69, R136, R139, R636). -/
def Found.reads (d : Found) (c t : Nat) (f : InFlight) : Found :=
  ((f.reads.mapIdx (fun k r => (k, r.1, r.2))).filter (fun r => r.2.1 == t)).foldl (fun d r =>
    let x := d.s.cell c
    let wr := x.readWords (wordsOf r.2.2)
    let x := match x.eng.inflight.find? (fun g => g.instr.seqNo == f.instr.seqNo) with
      | some g => x.setFlight { g with got := sset g.got r.1 (r.2.2.map wr.byte) }
      | none => x
    let d := { d with s := (d.s.setCell c x).fixWords c wr.fixed }
    let d := match firstPane r.2.2 (fun g => x.tag g == .poisoned) with
      | some g => d.fault c t f 2 3 (paneAddr g)
      | none => d
    let d := d.badWord c t f wr.bad
    match firstPane r.2.2 (marked x.pendSeal f.instr.seqNo) with
    | some g => d.fault c t f 3 4 (paneAddr g)
    | none => d) d

/-- The strips that an instruction delivers on its chain path in cycle t (R212, R250). -/
def deliver (x : Cell) (part t : Nat) (f : InFlight) : Cell :=
  if !wChain f.instr.word ∨ !f.live t then x else
  let p := planOf x part f
  let out := (chainOffsets 0 p.chain).filter (fun k => k.1 == t)
  if out.isEmpty then x else
  let bs := p.bytes f.data
  let put := fun (path : List (Nat × Nat × Option (List Byte))) => path.map (fun e =>
    match out.find? (fun k => e.1 == f.instr.seqNo && k.1 == e.2.1) with
    | some k => (e.1, e.2.1, some (slice bs k.2.1 k.2.2))
    | none => e)
  { x with eng := if f.engine = .matrix then { x.eng with chainMV := put x.eng.chainMV } else { x.eng with chainVR := put x.eng.chainVR } }

/-- The strips that an instruction sends into its channel at the end of cycle t, and its message or command that enters a buffer (R361). -/
def State.sendDue (s : State) (c t : Nat) (f : InFlight) : State :=
  if f.engine ≠ .moveSend ∨ !f.live t then s else
  let x := s.cell c
  let s := if f.sends.contains t then
      (let p := planOf x s.part.toNat f
       ((f.sends.mapIdx (fun k u => (k, u))).filter (fun e => e.2 == t)).foldl (fun s e =>
         (p.flits f.data e.1).foldl (fun s g => s.pushSend c (wE f.instr.word 0 3) g) s) s)
    else s
  if f.done = t then s.hubEffect c f.instr ((chainedBytes x f).getD f.data.flatten) else s

/-- The writes of one instruction in cycle t: the faults of those that begin in it, and the bytes of those it stores (R69, R106, R139). -/
def Found.writes (d : Found) (c t : Nat) (f0 : InFlight) : Found :=
  let begun := f0.slots.filter (fun w => w.cycle == t)
  let d := if !f0.live t then d else begun.foldl (fun d w =>
    let x := d.s.cell c
    let wr := x.readWords (mergingWords w)
    let d := { d with s := d.s.fixWords c wr.fixed }
    let d := d.badWord c t f0 wr.bad
    match firstPane w.addrs (marked x.pendRelease f0.instr.seqNo) with
    | some g => d.fault c t f0 3 4 (paneAddr g)
    | none => d) d
  let x := d.s.cell c
  match x.eng.inflight.find? (fun g => g.instr.seqNo == f0.instr.seqNo) with
  | none => d
  | some f =>
    let due := (slotOffsets 0 f.slots).mapIdx (fun k e => (k, e.1, e.2))
    let due := due.filter (fun e => storeCycle e.2.2 == t)
    if due.isEmpty ∨ !f.live t then d else
    let bs := (planOf x d.s.part.toNat f).bytes f.data
    let x := due.foldl (fun x e => (x.putBits (slotBits e.2.2 e.2.1 bs)).touch (dedup (e.2.2.addrs.map gPane))) x
    { d with s := d.s.setCell c x
             poison := d.poison ++ (due.filter (fun e => f.voids.contains e.1)).flatMap (fun e =>
               (dedup (e.2.2.addrs.map gPane)).map (fun g => (g, 3))) }

/-! ### Tag events (R114) -/

/-- Tag updates of some panes, as far as Table 3.2 allows them. -/
def Cell.retag (x : Cell) (gs : List Nat) (f : Nat → Tag → Option Tag) : Cell :=
  gs.foldl (fun x g => match f g (x.tag g) with
    | some t => x.setTag g t
    | none => x) x

/-- A RELEASE by flag of an instruction: its source panes but for its destination panes (Table 2.9). -/
def releasePanes (i : Issued) : List Nat := i.srcs.filter (fun g => !i.dsts.contains g)

/-- The seal of a WAIT on its zone's panes (R127, R113): T is taken from LANDED first. Where an earlier WAIT has left less than T in both
counters, it takes what there is, and the panes become PROVISIONAL (DESIGN CHOICE, log 92). -/
def Cell.waitSeal (x : Cell) (i : Issued) : Cell :=
  let k := wE i.word 0 6
  let z := x.zone k
  let l := min i.n z.landed.toNat
  let y := x.retag (zonePanes z) (fun _ t => if t = .empty then some (waitTag t (decide (z.landed.toNat < i.n))) else none)
  (y.touch (zonePanes z)).setZone k { z with landed := z.landed - BitVec.ofNat 24 l
                                             provLanded := z.provLanded - BitVec.ofNat 24 (min (i.n - l) z.provLanded.toNat) }

/-- A SEAL, RELEASE or WAIT opcode in its issue cycle. -/
def Cell.tagOp (x : Cell) (i : Issued) : Cell :=
  let op := wOp i.word
  if op = 4 then x.waitSeal i
  else if op = 5 then x.retag i.dsts (fun g t => sealTag t i.prov false (x.inZone g))
  else x.retag i.dsts (fun _ t => releaseTag t i.prov)

/-- The flags of one instruction in flight in cycle t: RELEASE with its last read, SEAL with its last write (Table 2.9). The pending marks
of R69 end with them. -/
def Cell.tagFlags (x : Cell) (t : Nat) (f : InFlight) : Cell :=
  let i := f.instr
  let live := f.live t
  let x := if f.lastRead ≠ t then x else
    let y := { x with pendRelease := x.pendRelease.filter (fun m => m.2 != i.seqNo) }
    if live ∧ wRelease i.word then y.retag (releasePanes i) (fun _ t => releaseTag t i.prov) else y
  if f.done ≠ t then x else
  let y := { x with pendSeal := x.pendSeal.filter (fun m => m.2 != i.seqNo) }
  if live ∧ wSeal i.word then y.retag i.dsts (fun g t => sealTag t i.prov (i.srcs.contains g) (x.inZone g)) else y

/-- The cell's own tag events of cycle t in issue order (R114): those of instructions in flight and those of opcodes. -/
def Cell.ownTags (x : Cell) (t : Nat) : Cell :=
  let before := fun (n : Nat) => x.eng.inOrder.filter (fun f => decide (f.instr.seqNo < n))
  match x.eng.tagOps with
  | [] => x.eng.inOrder.foldl (fun y f => y.tagFlags t f) x
  | i :: r =>
    let y := (before i.seqNo).foldl (fun y f => y.tagFlags t f) x
    let y := (i :: r).foldl (fun y i => y.tagOp i) y
    let y := (x.eng.inOrder.filter (fun f => decide (i.seqNo < f.instr.seqNo))).foldl (fun y f => y.tagFlags t f) y
    { y with eng := { y.eng with tagOps := [] } }

/-! ### Management and scrubber accesses (R102, R110, R111) -/

/-- Whether an octant has a landing slot of the route table in schedule cycle t (R108, R119, R260): a LAST entry with ACT 2 in the cycle
before, on any input track that the cell has. -/
def landingSlot (x : Cell) (c o t : Nat) : Bool :=
  decide (0 < t) && (List.range 20).any (fun j =>
    let e := x.inEntry (16 * j + (t - 1) % 16)
    hasTrack false c j && nbits e 14 2 = 2 && nbit e 9 && nbits e 11 3 = o)

/-- Octant of a waiting access, and whether it is the scrubber's. -/
def SpadAccess.octant : SpadAccess → Nat
  | .read w _ => aOctant (4 * w)
  | .write bs => aOctant ((bs.head?.map (·.1)).getD 0)
  | .merge bs => aOctant ((bs.head?.map (·.1)).getD 0)
  | .restore a _ _ => aOctant a
  | .scrub o => o
  | .writeBack o => o

/-- The order in which the accesses that wait for one octant take it: the second cycle of a merging write, management, the repair engine,
the scrubber (R106, R110). The repair engine's place is the model's (DESIGN CHOICE, log 92). -/
def SpadAccess.rank : SpadAccess → Nat
  | .merge _ => 0
  | .read _ _ => 1
  | .write _ => 1
  | .restore _ _ _ => 2
  | .scrub _ => 3
  | .writeBack _ => 3

/-- The words that a write of some bytes covers in part. -/
def partWords (bs : List (Nat × Byte)) : List Nat :=
  (wordsOf (bs.map (·.1))).filter (fun a => decide ((bs.filter (fun b => b.1 / 4 == a / 4)).length < 4))

/-- The pane that an access of the repair engine restores (R571). -/
def SpadAccess.restored : SpadAccess → Option Nat
  | .restore a _ _ => some (gPane a)
  | _ => none

/-- Whether an access is the first of the two cycles of a merging write (R106). -/
def SpadAccess.merges : SpadAccess → Bool
  | .write bs => !(partWords bs).isEmpty
  | _ => false

/-- Words a read of management returns: uncorrectable ones as ones (R139). -/
def wordsData (x : Cell) (as : List Nat) : Nat :=
  leNat (as.flatMap (fun a => leBytes 4 (match x.readWord a with
    | .good v => v.toNat
    | .corrected v => v.toNat
    | .uncorrectable => 0xFFFFFFFF)))

/-- The word addresses of the scrub read of bank address a (R140): ROW strip (a div 32, a mod 32). -/
def scrubWords (o a : Nat) : List Nat := (List.range 32).map (fun k => o * 2 ^ 19 + a * 128 + 4 * k)

/-- The reads that an octant's scrubber has made in a period: none at its begin. -/
def Scrub.made (q : Scrub) (period : Nat) : Nat :=
  if q.period = period then q.reads else if q.period = period + 1 then q.past else 0

/-- An access takes its octant in the present cycle (Table 17.1, code 0x032): what it does (R137–R140). -/
def State.serveAccess (s : State) (c : Nat) (a : SpadAccess) : State :=
  let s := s.updCell c (fun x => { x.count 0x032 1 with octUsed := sset x.octUsed a.octant (s.wallCycle c + 1) })
  let x := s.cell c
  let poison := fun (s : State) (bad : List Nat) (code : Nat) => (dedup (bad.map gPane)).foldl (fun s g => s.poisonPane c g code) (s.noteBad c bad)
  match a with
  | .read w n =>
    let as := (List.range n).map (fun k => 4 * (w + k))
    let r := x.readWords as
    let s := { s with out := { s.out with readData := BitVec.ofNat 64 (wordsData x as) } }
    poison (s.fixWords c r.fixed) r.bad 2
  | .write bs =>
    if a.merges then s.setCell c { x with accesses := .merge bs :: x.accesses } else s.setCell c (x.putBytes bs)
  | .restore at_ bs last =>
    let x := x.putBytes (((List.range 128).map (at_ + ·)).zip bs)
    if !last || x.tag (gPane at_) != .poisoned then s.setCell c x
    else (s.setCell c (x.setTag (gPane at_) .full)).report 4 7 0 (spadAddr s c (paneAddr (gPane at_))) 1 (.cell (cellId c)) (cellSuite x)
  | .merge bs =>
    let r := x.readWords (partWords bs)
    let keep := bs.filter (fun b => !r.bad.contains (b.1 / 4 * 4))
    poison ((s.fixWords c r.fixed).updCell c (fun x => x.putBytes keep)) r.bad 2
  | .scrub o =>
    let q := sget {} x.scrub o
    let k := scrubPeriod s.tick
    let n := q.made k
    if 4096 ≤ n then s else
    let r := x.readWords (scrubWords o n)
    let s := s.setCell c { x with scrub := sset x.scrub o { q with period := k, reads := n + 1, past := if q.period = k then q.past else q.made (k - 1) } }
    poison (s.fixWords c r.fixed) r.bad 1
  | .writeBack o =>
    match (sget {} x.scrub o).backs with
    | [] => s
    | e :: _ => s.setCell c ((x.putWord e.1 e.2).dropBacks (· == e.1))

/-- Whether the octants of a cell have power (R523, R531). -/
def State.powered (s : State) (c : Nat) : Bool := (s.bay (cellBay c)).power != .off

/-- The accesses that wait take the octants that are free in the present cycle, in the order of their rank (R110); one that takes two cycles
(R106) begins where the next cycle is free too. While panes are being cleared, all wait (R303). -/
def State.serveFree (s : State) (c : Nat) (free next : Nat → Bool) : State :=
  if (s.cell c).accesses.isEmpty ∨ (s.cell c).cfg.clearing then s else
  (List.range 8).foldl (fun s o =>
    let x := s.cell c
    if !free o || sget 0 x.octUsed o == s.wallCycle c + 1 then s else
    let mine := x.accesses.filter (fun a => a.octant == o)
    match (findBelow 4 (fun r => mine.any (fun a => a.rank == r))).bind (fun r => mine.find? (fun a => a.rank == r)) with
    | none => s
    | some a => if a.merges && !next o then s else (s.setCell c { x with accesses := x.accesses.erase a }).serveAccess c a) s

/-! ### A cycle -/

/-- The fault that a cycle records: on the instruction first in issue order, and there the lowest CAUSE (R93). -/
def firstFault (fs : List CycleFault) : Option CycleFault :=
  fs.foldl (fun b f => match b with
    | none => some f
    | some g =>
      if f.instr.seqNo < g.instr.seqNo ∨ (f.instr.seqNo = g.instr.seqNo ∧ f.cause < g.cause) then some f else some g) none

/-- What the started instructions do in a cell's present schedule cycle, landing strips between their reads and their writes. -/
def Found.engines (d : Found) (c : Nat) (run : Bool) (lands : List Landing) : Found :=
  let t := (d.s.cell c).seq.cyc
  let part := d.s.part.toNat
  let flights := fun (d : Found) => if run then (d.s.cell c).eng.inOrder else []
  let d := (flights d).foldl (fun d f => if f.live t then d.reads c t f else d) d
  let d := { d with s := d.s.setCell c ((flights d).foldl (fun x f => deliver x part t f) (d.s.cell c)) }
  let d := { d with s := (flights d).foldl (fun s f => s.sendDue c t f) d.s }
  let d := lands.foldl (fun d l =>
    let r := d.s.landStrip c l
    { d with s := r.1, poison := d.poison ++ r.2.map (fun g => (g, 3)) }) d
  let d := (flights d).foldl (fun d f => d.writes c t f) d
  { d with s := d.s.setCell c ((flights d).foldl (fun x f =>
      if f.engine = .matrix ∧ (f.cut.map (fun k => decide (t ≤ k))).getD true then { x with mat := matEffect x.mat f f.data t } else x) (d.s.cell c)) }

/-- Notices and mode requests of a cell's zones whose schedule cycle has come (R130, R132). -/
def State.zoneEvents (s : State) (c t : Nat) : State :=
  (s.cell c).zones.foldl (fun s e =>
    let s := s.applyNotices c e.1 (fun n => !n.off && decide (n.due ≤ t))
    match ((s.cell c).zone e.1).modeReq with
    | some (m, b) =>
      if 16 * b ≤ t then s.updCell c (fun x => x.setZone e.1 { zoneMode (x.zone e.1) m with modeReq := none }) else s
    | none => s) s

/-- A cell's present clock cycle passes, but for its count: in the order of R114, its own instructions' events, the accesses that find their
octant free with a repair restore among them, notices, and poisoning last; then its fault. -/
def State.cellCycle (s : State) (c : Nat) : State :=
  let x := s.cell c
  let run := x.clocked
  let t := x.seq.cyc
  let slots := x.trk.landings.filter (fun l => l.wall == x.obs.wall)
  let engine := if run then x.eng.inflight.flatMap (fun f => accessesOf f t) else []
  let landing := slots.map (fun l => (⟨l.octant, lhAddr l.header, none⟩ : Access))
  let d : Found := { s := s }
  let d := if run then d.collide c t (engine ++ landing) else d
  let lands := (d.s.cell c).trk.landings.filter (fun l => l.wall == x.obs.wall)
  let d := { d with s := d.s.updCell c (fun x => { x with trk := { x.trk with landings := x.trk.landings.filter (fun l => x.obs.wall < l.wall) } }) }
  let d := d.engines c run lands
  let s := d.s
  let s := if run then s.setCell c ((s.cell c).ownTags t) else s
  let taken := fun (k : Nat) (o : Nat) =>
    (run && x.eng.inflight.any (fun f => (accessesOf f (t + k)).any (fun a => a.octant == o)))
      || x.trk.landings.any (fun l => l.wall == x.obs.wall + k && l.octant == o) || (run && x.state == .running && landingSlot x c o (t + k))
  let s := s.serveFree c (fun o => !taken 0 o) (fun o => !taken 1 o)
  let s := if run then s.zoneEvents c t else s
  let s := (d.poison.foldl (fun l p => if l.contains p then l else l ++ [p]) []).foldl (fun s p => s.poisonPane c p.1 p.2) s
  let s := match firstFault d.faults with
    | some f => s.takeFault c f.cause f.detail f.addr true (issuedAt f.instr)
    | none => s
  let y := s.cell c
  let s : State := if y.parity.isSome && (!y.issuing || (run && decide (y.seq.ready ≤ t))) then s.takeNext c else s
  if engine.isEmpty then s else s.updCell c (fun x => x.count 0x030 engine.length)

/-! ### Time -/

/-- Whether an engine, or an issue, makes a cell's present schedule cycle BUSY (Table 17.8, row 8). -/
def busyNow (x : Cell) : Bool :=
  x.obs.busyAt == some x.seq.cyc || x.eng.inflight.any (fun f => f.start ≤ x.seq.cyc && x.seq.cyc ≤ f.done)

/-- The class of a cycle in which the cell does no work (Table 17.8 but for row 8): 1 SPENT, 2 LATE, 3 QUIET, 4 CURBED. -/
def idleClass (u : Suite) (x : Cell) : Nat :=
  if x.frozen then
    (if u.hold.causes.getLsbD 5 then 1 else if u.hold.causes.getLsbD 4 || u.hold.causes.getLsbD 1 then 4 else 2)
  else if x.state = .waitingStart then (if u.freq.withheld then 4 else 3)
  else if x.state = .loading then 3
  else if x.state = .faulted then 1
  else if x.state = .halted then 3
  else if x.trk.outbound.length ≥ 4 ∧ !x.eng.moveQ.isEmpty then 4 else 3

/-- Whether a cell's SCRUB late signal is raised in a wall cycle of its bay (R141): from a check point on, in cycle 8, for some beats. -/
def scrubLateIn (x : Cell) (w : Nat) : Bool := decide (16 * x.scrubLate.1 + 8 ≤ w) && decide (w < 16 * (x.scrubLate.1 + x.scrubLate.2) + 8)

/-- Whether a cell raises its late signal in a wall cycle (Table 2.5, R271). -/
def lateRaised (x : Cell) (w : Nat) : Bool := !x.seq.late.isEmpty || scrubLateIn x w

/-- Addition to one tally. -/
def addTally (l : List (BitVec 48)) (c n : Nat) : List (BitVec 48) :=
  l.mapIdx (fun i v => if i = c then v + BitVec.ofNat 48 n else v)

/-- A cell enters LOADING (R293, R296): no group of its block has come, and READY is not raised. -/
def Cell.startLoading (x : Cell) : Cell :=
  { x with seq := { x.seq with dried := true }, state := .loading, ctrs := { x.ctrs with frozen := true }
           cfg := { x.cfg with groups := 0, ready := false, clearing := false, clearPos := 0, blockErr := false } }

/-- n cycles of a cell whose suite is RUNNING, from wall cycle w on, in one state and with nothing in flight but in the first: schedule time, tallies (R587), the
per-cycle counter events, and the entry into LOADING in the cycle after DRYDOWN's last issue cycle (R293, R581). -/
def Cell.passEven (x : Cell) (u : Suite) (w n : Nat) : Cell :=
  if n = 0 then x else
  let b := if x.clocked && x.state == .running && busyNow x then 1 else 0
  let k := idleClass u x
  let td := addTally (addTally x.obs.tdOpen 0 b) k (n - b)
  let ev := fun (y : Cell) (code v m : Nat) => { y with ctrs := countEvent y.ctrs 8 code 0 v m (x.obs.wall + 1) 1 }
  let y := { x with obs := { x.obs with tdOpen := td, wall := x.obs.wall + n
                                        heldCycles := if x.frozen then x.obs.heldCycles + n else x.obs.heldCycles } }
  let y := ev y 0x001 1 n
  let y := ev y 0x002 (b2n x.clocked) n
  let y := ev y 0x003 (b2n x.frozen) n
  let y := if b = 0 then y else ev y 0x004 1 b
  let y := if n = b then y else ev y (0x004 + k) 1 (n - b)
  let y := ev y 0x014 (b2n (lateRaised x w)) n
  let y := ev y 0x052 (b2n (decide (x.trk.outbound.length ≥ 4) && !x.eng.moveQ.isEmpty)) n
  let cyc := if x.clocked then x.seq.cyc + n else x.seq.cyc
  let y := { y with seq := { x.seq with cyc := cyc, stood := if x.held && x.state == .loading then x.seq.stood + n else x.seq.stood } }
  if x.state = .running ∧ x.seq.dried ∧ x.seq.ready ≤ cyc then
    y.startLoading
  else y

/-- n cycles of a cell whose suite is RUNNING, cut where it enters LOADING. -/
def Cell.pass (u : Suite) (x : Cell) (w n : Nat) : Cell :=
  let k := x.seq.ready - x.seq.cyc
  if x.state = .running ∧ x.seq.dried ∧ !x.held ∧ k < n then (x.passEven u w k).passEven u (w + k) (n - k) else x.passEven u w n

/-- Suite of a cell while it is RUNNING. -/
def State.runningSuite (s : State) (x : Cell) : Option Suite :=
  match cellSuite x with
  | some i => if (s.suite i).state == .running then some (s.suite i) else none
  | none => none

/-- The strips that RECVs take from their channels in a cell's present schedule cycle (R361, R368). -/
def State.takeDue (s : State) (c : Nat) : State :=
  let t := (s.cell c).seq.cyc
  (s.cell c).eng.inOrder.foldl (fun s f =>
    if !f.takes.contains t ∨ !f.live t then s else
    ((f.takes.mapIdx (fun k u => (k, u))).filter (fun e => e.2 == t && !f.got.any (fun g => g.1 == e.1))).foldl (fun s e =>
      let (bs, void, s) := s.takeStrip c (wE f.instr.word 0 3)
      s.updCell c (fun x => match x.eng.inflight.find? (fun g => g.instr.seqNo == f.instr.seqNo) with
        | some g => x.setFlight { g with got := sset g.got e.1 bs, voids := if void then e.1 :: g.voids else g.voids }
        | none => x)) s) s

/-- Instructions whose last cycle has passed complete (R58): they leave the engine, a chained one its strips, and a LOADING cell counts from
the last one's end (R305). -/
def State.retire (s : State) (c : Nat) : State :=
  let x := s.cell c
  let (ended, on) := x.eng.inflight.partition (fun f => decide (f.done < x.seq.cyc))
  if ended.isEmpty then s else
  let gone := ended.filterMap (·.instr.chainedIn)
  let x := { x with
    eng := { x.eng with inflight := on
                        chainMV := x.eng.chainMV.filter (fun e => !gone.contains e.1), chainVR := x.eng.chainVR.filter (fun e => !gone.contains e.1) }
    cfg := { x.cfg with readyAt := if x.state = .loading then max x.cfg.readyAt s.now else x.cfg.readyAt } }
  ended.foldl (fun s f => s.eligible c f.instr) (s.setCell c x)

/-- How many of the next n cycles, from wall cycle w on, a cell passes with nothing to do but count. -/
def Cell.quiet (x : Cell) (w n : Nat) : Nat :=
  if (x.clocked && x.eng.inflight.any (fun _ => true)) || !x.eng.tagOps.isEmpty || !x.accesses.isEmpty || x.parity.isSome || busyNow x then 0 else
  let n := x.trk.landings.foldl (fun n l => min n (l.wall - x.obs.wall)) n
  let n := [16 * x.scrubLate.1 + 8, 16 * (x.scrubLate.1 + x.scrubLate.2) + 8].foldl (fun n t => if w < t then min n (t - w) else n) n
  if !x.clocked then n else
  x.zones.foldl (fun n e =>
    let n := e.2.notices.foldl (fun n k => if k.off then n else min n (k.due - x.seq.cyc)) n
    match e.2.modeReq with
    | some (_, b) => min n (16 * b - x.seq.cyc)
    | none => n) n

/-- The moment and the tick at a moment t (25 MHz, R8). -/
def State.clockTo (s : State) (t : Nat) : State :=
  { s with now := t, tick := if s.power.vaonGood then s.tick + BitVec.ofNat 64 (t / 600 - s.now / 600) else s.tick }

/-- n cycles of a cell of a RUNNING suite whose cycles take len quanta. -/
def State.passCell (c len : Nat) : Nat → Nat → State → State
  | 0, _, s => s
  | fuel + 1, n, s =>
    match s.runningSuite (s.cell c) with
    | none => s
    | some u =>
      if n = 0 then s else
      let k := (s.cell c).quiet (s.now / len) n
      let s := if k = 0 then s else (s.setCell c ((s.cell c).pass u (s.now / len) k)).clockTo ((s.now / len + k) * len)
      if n ≤ k then s else
      let s := s.cellCycle c
      let s := (s.setCell c ((s.cell c).pass u (s.now / len) 1)).clockTo ((s.now / len + 1) * len)
      s.retire c |>.takeDue c |> State.passCell c len fuel (n - k - 1)

/-- Whether a cell has something that happens whatever its suite does: an access that waits, or a notice off the schedule. -/
def Cell.restless (x : Cell) : Bool := !x.accesses.isEmpty || x.zones.any (fun e => e.2.notices.any (·.off))

/-- The cells' cycles that k quanta bring: those of a RUNNING suite count; in every cell notices off the schedule act in their cycle (R130),
and the octants of a cell of no RUNNING suite are free (R110). -/
def State.passCells (s : State) (k : Nat) : State :=
  let back := fun (s' : State) => { s' with now := s.now, tick := s.tick }
  s.cells.foldl (fun s' e =>
    let x := s'.cell e.1
    let s' := match s'.runningSuite x with
      | none => s'
      | some u =>
        let len := cycleLen u.freq.current
        let n := (s.now + k) / len - s.now / len
        back (State.passCell e.1 len n n s')
    if !(s'.cell e.1).restless then s' else
    let s' := (s'.cell e.1).zones.foldl (fun s' z => s'.applyNotices e.1 z.1 (fun n => n.off && decide (n.due ≤ s.now + k))) s'
    if (s'.runningSuite (s'.cell e.1)).isSome then s' else
    let len := s.bayCycle (cellBay e.1)
    (List.range (min (2 * (s'.cell e.1).accesses.length) ((s.now + k) / len - s.now / len))).foldl (fun s' j =>
      back ((s'.clockTo ((s.now / len + j + 1) * len)).serveFree e.1 (fun _ => true) (fun _ => true))) s') s

/-- BAY_ISO states asked for take effect at the bay's next beat boundary (R287). -/
def State.passBays (s : State) (k : Nat) : State :=
  s.bays.foldl (fun s e =>
    match e.2.isoReq with
    | none => s
    | some v =>
      let beat := 16 * s.bayCycle e.1
      if (s.now + k) / beat = s.now / beat then s else s.updBay e.1 (fun y => { y with iso := v, isoReq := none })) s

/-- CELL_BEATS of each suite (R613): its cells in bays that are ON, for each wall beat that k quanta bring. -/
def State.passMeters (s : State) (k : Nat) : State :=
  s.bays.foldl (fun s e =>
    match e.2.owner with
    | none => s
    | some i =>
      let beat := 16 * s.bayCycle e.1
      let n := (s.now + k) / beat - s.now / beat
      if e.2.power != .on || n == 0 then s
      else s.updSuite i.val (fun u => { u with meter := { u.meter with cellBeats := u.meter.cellBeats + BitVec.ofNat 64 (128 * n) } })) s

/-- The root of a held suite counts held beats (R279): its run and its total, for each wall beat that k quanta bring. -/
def State.passHolds (s : State) (k : Nat) : State :=
  s.suites.foldl (fun s e =>
    let h := e.2.hold
    let beat := 16 * cycleLen e.2.freq.current
    let n := (s.now + k) / beat - s.now / beat
    if !h.held || n == 0 then s
    else s.updSuite e.1 (fun u => { u with hold := { u.hold with run := u.hold.run + n, beats := u.hold.beats + BitVec.ofNat 48 n } })) s

/-- Levels that bay and device counters add in each cycle or slot that k quanta bring: a regulator phase at its current limit (0x107), and the
tiles that a return buffer holds (0x205; Table 17.1). -/
def State.passLevels (s : State) (k : Nat) : State :=
  let s := s.bays.foldl (fun s e =>
    let len := s.bayCycle e.1
    let n := (s.now + k) / len - s.now / len
    if !e.2.limited || s.bayStopped e.1 then s
    else s.updBay e.1 (fun y => { y with ctrs := countEvent y.ctrs 8 0x107 0 1 n (s.now / len * len + 1) len })) s
  s.ports.foldl (fun s e =>
    { s with devCtrs := countEvent s.devCtrs 16 0x205 e.1 (e.2.reads.countP (·.inBuffer)) ((s.now + k) / 25 - s.now / 25) (s.now / 25 + 1) 1 }) s

/-- k quanta pass: the block's clock, the tick counter (25 MHz, R8) and the cells' cycles (DESIGN CHOICE, log 11). -/
def State.advance (s : State) (k : Nat) : State := (((((s.passCells k).passBays k).passMeters k).passHolds k).passLevels k).clockTo (s.now + k)

/-- Time passes until a moment. -/
def State.waitUntil (s : State) (t : Nat) : State := if t ≤ s.now then s else s.advance (t - s.now)

/-- A register access takes place as the next cycle of its block begins (DESIGN CHOICE, log 91): what came before it in the queue is of an
earlier cycle, and what comes after it in the same cycle is kept (R11) or counts after the clear (R12). len: quanta of a cycle. -/
def State.freshIn (s : State) (len : Nat) : State := s.waitUntil ((s.now / len + 1) * len)

/-- Time passes until a cell's schedule cycle t; none when the cell's schedule time stands still, in a hold (R62, R208) or outside a section
(log 11). -/
def State.waitCycle (s : State) (c t : Nat) : Option State :=
  let x := s.cell c
  match s.runningSuite x with
  | none => none
  | some u =>
    if !x.clocked then none
    else if t ≤ x.seq.cyc then some s else
    let len := cycleLen u.freq.current
    some (s.advance ((s.now / len + (t - x.seq.cyc)) * len - s.now))

end Sys2Proof.Machine
end

