-- ==== Sys2Proof/Machine/Issue.lean ====
section
/-!
DEFINITION. Issue in both contexts (R51–R96): fetching an instruction from the program store, the faults of its issue (R88–R93), pending marks
(R69), and the engine queues (R43). The meaning of every cell instruction passes through issueMain and issueHandler.
-/

namespace Sys2Proof.Machine

/-! ### Issuing -/

/-- Pending marks of an issued instruction (R69). -/
def markPending (x : Cell) (i : Issued) : Cell :=
  { x with
    pendSeal := if wSeal i.word then x.pendSeal ++ i.dsts.map (fun g => (g, i.seqNo)) else x.pendSeal
    pendRelease := if wRelease i.word then
        x.pendRelease ++ (i.srcs.filter (fun g => !i.dsts.contains g)).map (fun g => (g, i.seqNo)) else x.pendRelease }

/-- The constant words that an issued instruction carries: S1, S2, ENG constant, stochastic key low and high, OPD, OPD + 1. -/
def issuedConsts (x : Cell) (w : BitVec 128) (mode : BitVec 4) : List Nat :=
  let k := 2 * (fld mode 2 2).toNat
  [x.const (constIx (wS1 w)), x.const (constIx (wS2 w)), x.const (wE w 0 9), x.const k, x.const (k + 1),
   x.const (constIx (wD w)), x.const (constIx (wD w) + 1)]

/-- The issued form of an engine instruction. -/
def mkIssued (x : Cell) (ctx : Ctx) (w : BitVec 128) (pc n : Nat) (prov : Bool) (chain : Option Nat) : Issued :=
  let rg := rangesOf w n chain.isSome
  { word := w, ctx := ctx, pc := pc, cycle := x.seq.cyc, seqNo := x.seq.seqNo, mode := x.seq.mode, n := n, prov := prov
    chainedIn := chain, consts := issuedConsts x w x.seq.mode
    loops := if ctx = .main then loopCounters x.seq else [], depth := if ctx = .main then x.seq.loops.length else 0
    srcs := rg.srcs.flatMap (fun e => (extPanes e).1)
    dsts := if wOp w = 5 ∨ wOp w = 6 then (opcodePanes w n).1 else rg.dsts.flatMap (fun e => (extPanes e).1)
    wall := x.obs.wall, heldAt := x.obs.heldCycles }

/-- The cause bits of some late checks (Table 7.6). -/
def causeBits (l : List LateCheck) : BitVec 8 := l.foldl (fun m k => m ||| BitVec.ofNat 8 (2 ^ k.cause)) 0

/-- Whether the suite's hold has frozen, or is about to freeze, the beat of a cell's present cycle (R66, R272). It freezes no LOADING cell
(R312). -/
def beatFrozen (s : State) (x : Cell) : Bool :=
  match cellSuite x with
  | none => true
  | some i =>
    let h := (s.suite i).hold
    x.frozen || (x.state != .loading && h.sendHold && decide (h.schedBeat.toNat < x.seq.cyc / 16))

/-- Whether an instruction in flight faults in a cell's present cycle: no instruction issues in it (R91). -/
def State.faultsNow (s : State) (c : Nat) : Bool :=
  let x := s.cell c
  (x.eng.inflight.any (fun f => decide (x.seq.cyc ≤ f.done)) || !x.trk.landings.isEmpty) && x.clocked && ((s.cellCycle c).cell c).state == .faulted

/-- Whether the main context of a cell may issue in its present cycle: RUNNING, its beat checked, no late check standing, not
held (R62–R66). -/
def mainReady (s : State) (x : Cell) : Bool :=
  x.issuing && !beatFrozen s x && decide (x.seq.cyc / 16 < x.seq.checked)
    && !x.seq.late.any (fun l => decide (l.cycle / 16 ≤ x.seq.cyc / 16))

/-- DRIED and PHASE when a cell has issued DRYDOWN (Table 8.4). -/
def State.driedOne (s : State) (x : Cell) : State :=
  match cellSuite x with
  | none => s
  | some i => s.updSuite i (fun u => { u with feeder := { u.feeder with phase := 1, dried := u.feeder.dried + 1 } })

/-- The watchdog stops (R583). -/
def stopWatchdog (x : Cell) : Cell := { x with obs := { x.obs with wdRunning := false } }

/-- The effect of a main-context instruction that issues without a fault, but for its engine part and its tag events. -/
def seqEffect (s : State) (c : Nat) (w : BitVec 128) (n : Nat) : State :=
  let x := s.cell c
  let op := wOp w
  if op = 0 ∧ wOpen w then
    s.setCell c { x with seq := { x.seq with openNop := some ⟨x.seq.cyc, max 1 n, BitVec.ofNat 8 (wE w 16 8), wE w 0 8⟩ } }
  else if op = 9 then
    let s := s.setCell c { x with state := .halted }
    match cellSuite x with
    | none => s
    | some i =>
      let u := s.suite i
      match u.sections[u.feeder.current]? with
      | some sec =>
        if sec.final then s.updCell c stopWatchdog
        else (s.report 5 14 2 0 0 (.cell (cellId c)) (some i)).suiteFault i 2 true (some (c, 0, 0, x.seq.pc)) none
      | none => s
  else s

/-! ### Issue -/

/-- A sequencing instruction completes at its issue (R60); NOP, ENDLOOP and opcode 0x08 are not eligible (R591). -/
def State.issuedDone (s : State) (c : Nat) (i : Issued) : State :=
  let op := wOp i.word
  if ((opInfo i.word).bind (·.unit)).isSome ∨ op = 0 ∨ op = 2 ∨ op = 8 then s else s.eligible c i

/-- An instruction that has issued enters its engine's queue (R43) or, when it is SEAL, RELEASE or WAIT, acts as its cycle passes. -/
def Cell.takeIssued (x : Cell) (i : Issued) : Cell :=
  match (opInfo i.word).bind (·.unit) with
  | some e => markPending { x with eng := x.eng.setQueue e (x.eng.queue e ++ [i]) } i
  | none => if 4 ≤ wOp i.word ∧ wOp i.word ≤ 6 then { x with eng := { x.eng with tagOps := x.eng.tagOps ++ [i] } } else x

/-- Whether the main context's next instruction can be read, no parity error waits for it, and it is one of another opcode than op. -/
def Cell.otherNext (x : Cell) (op : Nat) : Bool :=
  let w := x.instr x.seq.pc
  x.parity.isNone && decide (x.seq.pc ≤ 511) && (x.instrBad x.seq.pc).isNone && (opInfo w).isSome && wOp w != op

/-- The next instruction of a cell's main context issues, when it is one of opcode op (R51, R62): its fetch with the parity of
its word (R92), the end of the program store (R73), and its faults (R89); else its effect and its entry into its engine's queue (R43).
When it cannot issue, nothing happens. -/
def issueMain (op c : Nat) (s : State) : State :=
  match s.waitCycle c (s.cell c).seq.ready with
  | none => s
  | some s1 =>
    let x := s1.cell c
    let q := x.seq
    if !mainReady s1 x then s
    else if s1.faultsNow c then s1
    else if x.otherNext op then s
    else if (nextFault x (ownOf s1 x)).isSome then s1.takeNext c
    else
      let w := x.instr q.pc
      let n := countOf w q.vlNow x.const
      let prov := actsProv w x.mat.issued q.lastChain
      let i := mkIssued x .main w q.pc n prov (q.lastChain.map (·.1))
      let y := x.takeIssued i
      let y := { y with
        mat := if (opInfo w).bind (·.unit) = some .matrix then { y.mat with issued := trackMatrix y.mat.issued w n } else y.mat
        seq := { seqNext q w n q.cyc with
          lastChain := if wChain w then some (q.seqNo, prov) else none, seqNo := q.seqNo + 1
          faults := q.faults.filter (fun f => decide (q.cyc < f.cycle)) }
        obs := if op = 0 then y.obs else { y.obs with busyAt := some q.cyc } }
      let y := if op = 0 then (if wOpen w then y.countFor 0x012 1 (min (max 1 n) (wE w 0 8)) else y) else y.count 0x010 1
      let s2 := (seqEffect (s1.setCell c y) c w n).issuedDone c i
      if wDrydown w ∨ op = 8 then (s2.updCell c stopWatchdog).driedOne x else s2

/-- ENDLOOP at the main context's next address is folded at fetch: it takes no issue cycle (R71–R73). -/
def issueEndloop (c : Nat) (s : State) : State :=
  match s.waitCycle c (s.cell c).seq.ready with
  | none => s
  | some s1 =>
    let x := s1.cell c
    let q := x.seq
    if !mainReady s1 x then s
    else if s1.faultsNow c then s1
    else if x.otherNext 2 then s
    else if (nextFault x (ownOf s1 x)).isSome then s1.takeNext c
    else s1.setCell c { x with seq := { endLoop q with lastChain := none } }

/-! ### The handler context (R79–R85) -/

/-- The slot that a cell's present cycle offers: octant mask and window, unlimited after the last issue cycle of DRYDOWN (R80, R85, R293). -/
def openSlot (x : Cell) : Option (BitVec 8 × Nat) :=
  if x.state = .loading ∨ (x.seq.dried ∧ x.seq.ready ≤ x.seq.cyc) then some (0xFF, 1000000000)
  else match x.seq.openNop with
    | some o =>
      if o.first ≤ x.seq.cyc ∧ x.seq.cyc < o.first + o.n ∧ x.seq.cyc - o.first < o.window then
        some (o.mask, o.window - (x.seq.cyc - o.first)) else none
    | none => none

/-- Occupancy of a handler instruction (Table 10.1, R585); sequencing opcodes take their issue cycles. -/
def handlerOccupancy (w : BitVec 128) (n : Nat) : Nat := if wOp w < 0x20 then issueCycles w n else moveOcc w n false

/-- Whether a slot's octant mask and window admit an instruction (R81). -/
def slotAdmits (mask : BitVec 8) (window : Nat) (i : Issued) : Bool :=
  ((i.srcs ++ i.dsts).map (· / 128)).all (fun o => mask.getLsbD o) && decide (handlerOccupancy i.word i.n ≤ window)

/-- The next instruction of a cell's running handler issues, when it is one of opcode op, in an OPEN slot that admits it (R81, R82); one
that is late waits for another slot. Its faults are taken at its issue (R89). A handler has no check point: a POISONED pane that its
instruction meets is DETAIL 0x01, as the check of Table 2.12 finds it (DESIGN CHOICE, log 92). -/
def issueHandler (op c : Nat) (s : State) : State :=
  match (s.cell c).seq.handler.bind (fun h => s.waitCycle c h.ready) with
  | none => s
  | some s1 =>
    let x := s1.cell c
    let q := x.seq
    match q.handler, openSlot x with
    | some h, some (mask, window) =>
      if beatFrozen s1 x ∨ !(x.state == .running || x.state == .loading) then s
      else if s1.faultsNow c then s1
      else if h.pc > 511 then s1.takeFault c 4 7 0 false (handlerAt q 0xFF h.pc)
      else
        let w := x.instr h.pc
        match x.instrBad h.pc with
        | some k => s1.takeFault c 5 1 (4 * k) false (handlerAt q (wOp w) h.pc)
        | none =>
          if (opInfo w).isNone then s1.takeFault c 4 1 0 false (handlerAt q (wOp w) h.pc)
          else if wOp w ≠ op then s
          else
            let lc := legalCtx x q x.mat.issued true h.pc
            let n := countOf w lc.vl lc.const
            let i := mkIssued x .handler w h.pc n (wProv w) none
            let res := checkInstr x (effTags x) w n (wProv w) false
            if !slotAdmits mask window i ∨ (res.fault.isNone ∧ !res.late.isEmpty) then s
            else
              let excess := if h.maxLen ≤ h.issued + 1 ∧ op ≠ 9 then some (4, 7, 0) else none
              match lowerFault (issueFault x w lc n false none (queueFull x ((opInfo w).bind (·.unit))) (ownOf s1 x) res.fault) excess with
              | some f => s1.takeFault c f.1 f.2.1 f.2.2 false (handlerAt q op h.pc)
              | none =>
                let y := (x.takeIssued i).count 0x011 1
                let h' : Option Handler := if op = 9 then none
                  else some { h with pc := h.pc + 1, issued := h.issued + 1, ready := q.cyc + issueCycles w n }
                let y := { y with seq := { q with handler := h', seqNo := q.seqNo + 1, lastHandlerIssue := some q.cyc }
                                  obs := if op = 0 then y.obs else { y.obs with busyAt := some q.cyc } }
                (s1.setCell c y).issuedDone c i
    | _, _ => s

/-- The next instruction of a context of a cell, of opcode op. -/
def issue (op : Nat) (c : CellId) (x : Ctx) (s : State) : Host.Outcome State Fault Refusal :=
  match x with
  | .main => .next (issueMain op c.val s)
  | .handler => .next (issueHandler op c.val s)

end Sys2Proof.Machine
end

