-- ==== Sys2Proof/Machine/Queues.lean ====
section
/-!
DEFINITION. Message queues (R383–R394, R567): the message store in two copies, enqueue, pop, retention, and the dispatch list (R78).
-/

namespace Sys2Proof.Machine

/-- Byte addresses of a message store slot's eight words. -/
def slotWords (slot : Nat) : List Nat := (List.range 8).map (fun j => 32 * slot + 4 * j)

/-- One word of the store as its code reads it: the copy that decodes without an uncorrectable error (R567). -/
def Queues.word (q : Queues) (a : Nat) : Option W32 :=
  let one := fun (d k : Memory) =>
    match decodeWord (BitVec.ofNat 32 (leNat (mreadN d a 4))) (mread k (a / 4)) with
    | .good v => some v
    | .corrected v => some v
    | .uncorrectable => none
  match one q.storeA q.checkA with
  | some v => some v
  | none => one q.storeB q.checkB

/-- A slot's message; none when a word is uncorrectable in both copies (R394). -/
def Queues.slot (q : Queues) (slot : Nat) : Option W256 :=
  let ws := (slotWords slot).map q.word
  if ws.all (·.isSome) then
    some (BitVec.ofNat 256 (leNat (ws.flatMap (fun w => leBytes 4 ((w.getD 0).toNat)))))
  else none

/-- A message stored in a slot, in both copies, with its check bits (R383, R567). -/
def Queues.store (q : Queues) (slot : Nat) (m : W256) : Queues :=
  let bs := leBytes 32 m.toNat
  let chk := fun (k : Memory) => (List.range 8).foldl (fun k j =>
    mwrite k (8 * slot + j) (checkOf (BitVec.ofNat 32 (leNat (slice bs (4 * j) 4))))) k
  { q with storeA := mwriteN q.storeA (32 * slot) bs, storeB := mwriteN q.storeB (32 * slot) bs
           checkA := chk q.checkA, checkB := chk q.checkB }

/-- Live state of queue q. -/
def Queues.qlive (k : Queues) (q : Nat) : QueueLive := sget {} k.live q
def Queues.setLive (k : Queues) (q : Nat) (v : QueueLive) : Queues := { k with live := sset k.live q v }

/-- Fields of queue q's descriptor (Table 10.3). -/
def Cell.qDispatch (x : Cell) (q : Nat) : Bool := nbit (x.qdesc q 0) 1
def Cell.qRemote (x : Cell) (q : Nat) : Bool := nbit (x.qdesc q 0) 2
def Cell.qHandler (x : Cell) (q : Nat) : Nat := x.qdesc q 1 % 64
def Cell.qBase (x : Cell) (q : Nat) : Nat := (x.qdesc q 4 + 256 * x.qdesc q 5) % 512
def Cell.qSize (x : Cell) (q : Nat) : Nat := 2 ^ (x.qdesc q 6 % 16)
/-- The first word of queue q's descriptor that fails its parity, as a configuration offset (R92). -/
def Cell.qBad (x : Cell) (q : Nat) : Option Nat :=
  (findBelow 4 (fun j => x.parityBad (0xA00 + 4 * q + j))).map (fun j => 0x2800 + 16 * q + 4 * j)

/-- The slot after a slot in queue q's ring. -/
def Cell.qNext (x : Cell) (q slot : Nat) : Nat := x.qBase q + (slot - x.qBase q + 1) % x.qSize q

/-- A configuration word outside an instruction's own fails its parity: the fault waits for the next instruction boundary (R92). -/
def State.parityFault (s : State) (c detail addr : Nat) : State :=
  s.updCell c (fun x => if x.parity.isSome then x else { x with parity := some (detail, addr) })

/-- A message discarded at a queue (R387). -/
def State.dropMessage (s : State) (c q : Nat) : State :=
  (s.updCell c (fun x =>
    let v : QueueLive := { x.que.qlive q with dropped := satAdd (x.que.qlive q).dropped 1 }
    let y : Cell := { x with que := x.que.setLive q v }
    y.count 0x051 1)).suiteError
    9 (spadAddr s c 0) q (.cell (cellId c)) (cellSuite (s.cell c))

/-- An entry among those of the same wall cycle at the end of a list, in increasing queue number (R78). -/
def insertArrival (e : Nat × Nat × Nat) : List (Nat × Nat × Nat) → List (Nat × Nat × Nat)
  | [] => [e]
  | d :: r => if d.2.2 = e.2.2 ∧ e.1 < d.1 then e :: d :: r else d :: insertArrival e r

/-- An arrival on a handler-dispatched queue joins the dispatch list, or waits while it is full (R78). -/
def listDispatch (x : Cell) (queue : Nat) : Seq :=
  let q := x.seq
  let all := insertArrival (queue, q.cyc, x.obs.wall) (q.dispatch ++ q.waiting)
  let n := if q.waiting.isEmpty then 16 else q.dispatch.length
  { q with dispatch := all.take n, waiting := all.drop n }

/-- A message is enqueued at TAIL or discarded (R387). -/
def State.enqueue (s : State) (c : Nat) (a : Arrival) : State :=
  let x := s.cell c
  let q := a.queue
  match x.qBad q with
  | some off => (s.dropMessage c q).parityFault c 3 off
  | none =>
    let v := x.que.qlive q
    let foreign := match cellSuite x with
      | some i => decide (mSuite a.msg ≠ i)
      | none => true
    if !x.qValid q || decide (x.qSize q ≤ v.count + v.retained) || (foreign && !mRemote a.msg) || (mRemote a.msg && !x.qRemote q) then
      s.dropMessage c q
    else
      let que := (x.que.store v.tail a.msg).setLive q { v with
        tail := x.qNext q v.tail, count := v.count + 1
        fresh := (x.obs.wall, if v.fresh.1 = x.obs.wall then v.fresh.2 + 1 else 1) }
      let que := if a.src = .hub then { que with localSlots := que.localSlots.filter (· != v.tail) }
        else { que with localSlots := v.tail :: que.localSlots.filter (· != v.tail) }
      let y := { x with que := que, seq := if x.qDispatch q then listDispatch x q else x.seq }
      s.setCell c (y.count 0x050 1)

/-- Whether a recoverable section of a cell's suite is open (R392). -/
def State.recoverable (s : State) (c : Nat) : Bool :=
  match cellSuite (s.cell c) with
  | some i => staging (s.suite i)
  | none => false

/-- A message whose KIND is k and whose other bytes are 0. -/
def bareMessage (k : Nat) : W256 := BitVec.ofNat 256 (k * 2 ^ 104)

/-- The head message of a queue is popped (R390–R392, R394); a queue with no message, or with none but those of this cycle, gives none. -/
def State.popHead (s : State) (c q : Nat) : Option W256 × State :=
  let x := s.cell c
  let v := x.que.qlive q
  if v.count ≤ (if v.fresh.1 = x.obs.wall then v.fresh.2 else 0) then (none, s) else
  let keep := s.recoverable c
  let v' := { v with head := x.qNext q v.head, count := v.count - 1, retained := if keep then v.retained + 1 else v.retained }
  let s := s.setCell c { x with que := x.que.setLive q v' }
  match x.que.slot v.head with
  | some m => (some m, s)
  | none => (some (bareMessage 3), s.suiteError 9 (spadAddr s c 0) q (.cell (cellId c)) (cellSuite x))

/-- QPOP's message (R390) and the state with it popped; none when the queue's descriptor fails its parity (R92). -/
def State.qpop (s : State) (c q : Nat) : Option W256 × State :=
  let x := s.cell c
  match x.qBad q with
  | some off => (none, s.parityFault c 3 off)
  | none =>
    if !x.qValid q || x.qDispatch q then
      (some (bareMessage 0xFF), s.suiteError 9 (spadAddr s c 0) q (.cell (cellId c)) (cellSuite x))
    else
      let (m, s) := s.popHead c q
      (some (m.getD (bareMessage 0xFF)), s)

/-- Retained messages are freed at section close (R392); what the section enqueued is no longer its own (R393). -/
def Queues.closeSection (k : Queues) : Queues :=
  { k with live := k.live.map (fun e => (e.1, { e.2 with retained := 0 })), localSlots := [] }

/-- Slots of a queue's ring from slot a on. -/
def Cell.ringFrom (x : Cell) (q : Nat) : Nat → Nat → List Nat
  | 0, _ => []
  | n + 1, a => a :: x.ringFrom q n (x.qNext q a)

/-- Rollback of a queue (R393): retained messages return to the head, and messages of the rolled-back section that came from a
bound channel or the router go. -/
def Cell.rollbackQueue (x : Cell) (q : Nat) : Cell :=
  let v := x.que.qlive q
  let size := x.qSize q
  let head := x.qBase q + (v.head - x.qBase q + size - v.retained % size) % size
  let slots := x.ringFrom q (v.count + v.retained) head
  let kept := (slots.filter (fun a => !x.que.localSlots.contains a)).map (fun a => (x.que.slot a).getD (bareMessage 3))
  let dst := x.ringFrom q kept.length head
  let que := (dst.zip kept).foldl (fun k e => k.store e.1 e.2) x.que
  let tail := x.qBase q + (head - x.qBase q + kept.length) % size
  { x with que := que.setLive q { v with head := head, tail := tail, count := kept.length, retained := 0 } }

end Sys2Proof.Machine
end

