-- ==== Sys2Proof/Machine/CellEvents.lean ====
section
/-!
DEFINITION. The cell's own events: the check point (R63–R67, R309), late checks passing, engine starts and completions (R207, R246, R363),
the landing slots, and handler dispatch (R78–R86).
-/

namespace Sys2Proof.Machine

/-- Time passes until the next cell cycle whose place in the bay's beat is ph; none where no suite runs. -/
def State.waitPhase (s : State) (c ph : Nat) : Option State :=
  match s.runningSuite (s.cell c) with
  | none => none
  | some u =>
    let len := cycleLen u.freq.current
    let now := s.now / len
    let d := (ph + 16 - now % 16) % 16
    if d = 0 then some s else some (s.advance ((now + d) * len - s.now))

/-- Whether an engine instruction that has issued is still in progress in schedule cycle t: one that waits for its engine, or that ends no earlier. -/
def Cell.busyFrom (x : Cell) (t : Nat) : Bool :=
  x.eng.inflight.any (fun f => decide (t ≤ f.done))
    || !(x.eng.matrixQ.isEmpty && x.eng.vectorQ.isEmpty && x.eng.reductionQ.isEmpty && x.eng.moveQ.isEmpty && x.eng.counterQ.isEmpty && x.eng.tagOps.isEmpty)

/-- Beat b of a cell is gated, and its cycles are counted, when it holds nothing (R532). An engine instruction that issues between the check
point and the beat counts as in progress (DESIGN CHOICE, log 92). -/
def Cell.gate (x : Cell) (b : Nat) : Cell :=
  if !(runAhead x b).work && !x.busyFrom (16 * b) && x.seq.handler.isNone && x.seq.dispatch.isEmpty then x.countFor 0x015 1 16 else x

/-- ISSUE_CHECK_POINT (R63, R66): the check of the next unchecked beat at its check point, and whether the beat is gated (R532); in a
WAITING_START cell, in cycle 8 of a beat, the checks of beat 0, which make it start-ready when none is late (R309). -/
def execIssueCheckPoint (c : CellId) (s : State) : Host.Outcome State Fault Refusal :=
  let x0 := s.cell c.val
  if x0.state = .waitingStart then
    match s.waitPhase c.val 8 with
    | none => .next s
    | some s =>
      let x := s.cell c.val
      let a := runAhead x 0
      .next (s.setCell c.val { x with startReady := a.late.isEmpty, seq := { x.seq with checked := 1, faults := x.seq.faults.filter (fun f => f.cause == 5) ++ a.faults } })
  else if x0.state = .running ∧ !x0.seq.dried then
    match s.waitCycle c.val (16 * (x0.seq.checked - 1) + 8) with
    | none => .next s
    | some s =>
      let x := s.cell c.val
      if x.state ≠ .running ∨ x.held ∨ x.seq.cyc < 16 * (x.seq.checked - 1) + 8 then .next s else
      let a := runAhead x x.seq.checked
      let x := x.gate x.seq.checked
      .next (s.setCell c.val { x with seq := { x.seq with
        checked := x.seq.checked + 1, late := x.seq.late ++ a.late
        faults := x.seq.faults ++ a.faults } })
  else .next s

/-- The wall beat of a cell's bay, and the place in it. -/
def State.wallBeat (s : State) (c : Nat) : Nat := s.wallCycle c / 16
def State.wallPhase (s : State) (c : Nat) : Nat := s.wallCycle c % 16

/-- LATE_CHECK_PASS (R67): a held cell re-evaluates its late checks; those that pass are not repeated, and a check that has become a
fault is taken when its instruction issues (R89). The signal drops when none is late; after cycle 8 of a beat the root's sample of that
beat still sees it (R272, R274). -/
def execLateCheckPass (c : CellId) (s : State) : Host.Outcome State Fault Refusal :=
  let x := s.cell c.val
  if !x.held ∨ x.seq.late.isEmpty then .next s else
  let a := runAhead x (x.seq.checked - 1)
  let still := a.late.filter (fun l => x.seq.late.any (fun k => k.cycle == l.cycle))
  let new := a.faults.filter (fun f => x.seq.late.any (fun k => k.cycle == f.cycle) && !x.seq.faults.any (fun g => g.cycle == f.cycle))
  let seen := if 8 < s.wallPhase c.val ∧ s.wallPhase c.val ≤ 12 then
      some (s.wallBeat c.val, (match x.seq.lateSeen with
        | some (b, m) => if b = s.wallBeat c.val then m else 0
        | none => 0) ||| causeBits x.seq.late) else x.seq.lateSeen
  .next (s.setCell c.val { x with seq := { x.seq with late := still, lateSeen := seen, faults := x.seq.faults ++ new } })

/-! ### Engine starts -/

/-- The last write that earlier instructions of a unit make to an instruction's source panes, and the cycle after it (R246). -/
def ownWrites (x : Cell) (e : Engine) (i : Issued) : Nat :=
  (x.eng.inflight.filter (fun f => f.engine == e)).foldl (fun m f =>
    (f.slots.filter (fun w => w.addrs.any (fun a => i.srcs.contains (gPane a)))).foldl (fun m w => max m (storeCycle w + 1)) m) 0

/-- The cycle in which the first chained strip of an instruction is delivered (R246, R250): 0 for an instruction that takes none; none
while its producer has not started, or will deliver nothing. -/
def chainStart (x : Cell) (e : Engine) (i : Issued) : Option Nat :=
  match i.chainedIn with
  | none => some 0
  | some p => (chainOf (x.eng.pathTo e) p).head?.map (·.1)

/-- The moment at which the instruction at the head of a unit's queue may start (R246, R363): time has passed to it, and its cycle. free:
the cycle from which the unit is free. -/
def State.startAt (s : State) (c : Nat) (e : Engine) (i : Issued) (free : Nat) : Option State :=
  let x := s.cell c
  match chainStart x e i with
  | none => none
  | some k => s.waitCycle c (max (max (i.cycle + 1) free) (max (ownWrites x e i) k))

/-- The instruction at the head of an engine's queue starts in the present cycle: its reads, writes, sends and deliveries are scheduled
(R250, R361). -/
def State.begin (s : State) (c : Nat) (f : InFlight) : State :=
  let x := s.cell c
  let p := planOf x s.part.toNat f
  let f := { f with lastRead := p.lastRead, done := p.done, reads := p.reads, slots := p.slots, sends := p.sends, takes := p.takes }
  let strips := p.chain.map (fun k => (f.instr.seqNo, k.1, (none : Option (List Byte))))
  let e := { (x.eng.setQueue f.engine ((x.eng.queue f.engine).drop 1)) with inflight := x.eng.inflight ++ [f] }
  let e := if f.engine = .matrix then { e with chainMV := e.chainMV ++ strips } else { e with chainVR := e.chainVR ++ strips }
  let x := Cell.feedEnds { x with eng := e } f
  let merges := (p.slots.filter merging).length
  (s.setCell c (if merges = 0 then x else x.count 0x031 merges)).takeDue c

/-- An instruction in flight from cycle t on, before its plan is made. -/
def flightOf (i : Issued) (e : Engine) (t : Nat) : InFlight := { instr := i, engine := e, start := t, lastRead := t, done := t }

/-- A queued matrix instruction starts (R207, R208). -/
def startMatrix (c : Nat) (s : State) : State :=
  let x0 := s.cell c
  match x0.eng.matrixQ with
  | [] => s
  | i :: _ =>
    match s.waitCycle c (max (i.cycle + 1) (matStart x0.mat i)) with
    | none => s
    | some s =>
      let x := s.cell c
      let t := x.seq.cyc
      let op := wOp i.word
      let m := matTimes { x.mat with started := trackMatrix x.mat.started i.word i.n } i t
      let x' := { x with mat := m }
      let x' := if op = 0x20 then x'.count 0x020 1 else if op ≤ 0x25 then x'.count 0x021 1
        else if op ≤ 0x2C then x'.countFor 0x020 1 i.n else x'.countFor 0x022 1 (moveSpan i.word)
      (s.setCell c x').begin c { flightOf i .matrix t with
        got := if op = 0x30 then [(0, moveOut x i)] else []
        weights := if 0x28 ≤ op ∧ op ≤ 0x2C then some (if wE i.word 3 1 = 1 then x.mat.buf1 else x.mat.buf0) else none }

/-- A queued vector instruction starts (R246, R249). -/
def startVector (c : Nat) (s : State) : State :=
  let x0 := s.cell c
  match x0.eng.vectorQ with
  | [] => s
  | i :: _ =>
    match s.startAt c .vector i x0.eng.vectorFree with
    | none => s
    | some s =>
      let x := s.cell c
      let t := x.seq.cyc
      let op := wOp i.word
      let steps := cdiv i.n (vecStep i.word)
      let x := { x with eng := { x.eng with vectorFree := t + steps * vecPace op } }
      let x := x.countFor 0x028 1 (steps * vecPace op)
      let x := if 0x68 ≤ op ∧ op ≤ 0x6D then x.countFor 0x02A 1 steps else x
      (s.setCell c x).begin c (flightOf i .vector t)

/-- A queued reduction instruction starts (R246, R248, R249). -/
def startReduction (c : Nat) (s : State) : State :=
  let x0 := s.cell c
  match x0.eng.reductionQ with
  | [] => s
  | i :: _ =>
    let steps := redSteps i.word i.n
    match s.startAt c .reduction i x0.eng.reductionFree with
    | none => s
    | some s =>
      let x := s.cell c
      let x := { x with eng := { x.eng with reductionFree := x.seq.cyc + steps } }
      (s.setCell c (x.countFor 0x029 1 steps)).begin c (flightOf i .reduction x.seq.cyc)

/-- A queued move/send instruction starts (R363): one that must wait for room in a buffer does not (R377). A MSG's bytes are those that its
read in this cycle finds, or that its producer delivers in it. -/
def startMove (c : Nat) (s : State) : State :=
  let x0 := s.cell c
  match x0.eng.moveQ with
  | [] => s
  | i :: _ =>
    match s.startAt c .moveSend i x0.eng.moveFree with
    | none => s
    | some s1 =>
      let x := s1.cell c
      let op := wOp i.word
      let t := x.seq.cyc
      let f := flightOf i .moveSend t
      let here := x.readWords ((List.range 8).map (fun k => 4 * k + oAddr (wS1 i.word)))
      let fed := x.eng.inOrder.foldl (fun y g => deliver y s1.part.toNat t g) x
      let bs := if op = 0x98 then (chainedBytes fed f).getD ((List.range 32).map (fun k => here.byte (k + oAddr (wS1 i.word)))) else []
      if mustWait s1 c i bs then s else
      let s2 := s1.setCell c { x with eng := { x.eng with moveFree := t + moveOcc i.word i.n i.chainedIn.isSome } }
      let (got, s3) := if op = 0x99 then s2.qpop c (wE i.word 0 8)
        else if op = 0x9A then (some x.seq.hmsg, s2) else (none, s2)
      (s3.zctlEffect c i).begin c { f with msg := got }

/-- A queued counter instruction starts (R585, R586): it reads its counters in its first cycle. -/
def startCounter (c : Nat) (s : State) : State :=
  let x0 := s.cell c
  match x0.eng.counterQ with
  | [] => s
  | i :: _ =>
    match s.startAt c .counter i x0.eng.counterFree with
    | none => s
    | some s =>
      let x := s.cell c
      let user : Bool := match cellSuite x with
        | some k => (s.suite k).obs.ctrUser
        | none => false
      let x' := { x with eng := { x.eng with counterFree := x.seq.cyc + 1 } }
      let x' := if wOp i.word = 0xB1 ∧ user then
          { x' with ctrs := { x'.ctrs with ctr := (maskCounters (wE i.word 0 8)).foldl (fun m k => sset m k 0) x'.ctrs.ctr } }
        else x'
      (s.setCell c x').begin c { flightOf i .counter x.seq.cyc with got := [(0, counterData x i.word user)] }

/-- MATRIX_START (R207). -/
def execMatrixStart (c : CellId) (s : State) : Host.Outcome State Fault Refusal := .next (startMatrix c.val s)
/-- VECTOR_START (R246). -/
def execVectorStart (c : CellId) (s : State) : Host.Outcome State Fault Refusal := .next (startVector c.val s)
/-- REDUCTION_START (R246). -/
def execReductionStart (c : CellId) (s : State) : Host.Outcome State Fault Refusal := .next (startReduction c.val s)
/-- MOVE_SEND_START (R363). -/
def execMoveSendStart (c : CellId) (s : State) : Host.Outcome State Fault Refusal := .next (startMove c.val s)
/-- COUNTER_UNIT_START (R585). -/
def execCounterUnitStart (c : CellId) (s : State) : Host.Outcome State Fault Refusal := .next (startCounter c.val s)
/-- INSTRUCTION_COMPLETE (R58, R69): time passes until an engine's oldest started instruction has made its last access. -/
def execInstructionComplete (c : CellId) (e : Engine) (s : State) : Host.Outcome State Fault Refusal :=
  match (s.cell c.val).eng.inflight.find? (fun f => f.engine == e) with
  | none => .next s
  | some f => .next ((s.waitCycle c.val (f.done + 1)).getD s)

/-- LANDING_STRIP (R123, R124, R276): time passes until the slot of the first strip that waits for an octant is over. -/
def execLandingStrip (c : CellId) (octant : Fin 8) (s : State) : Host.Outcome State Fault Refusal :=
  let x := s.cell c.val
  match x.trk.landings.find? (fun l => l.octant == octant.val), s.runningSuite x with
  | some l, some u =>
    let len := cycleLen u.freq.current
    .next (s.waitUntil ((s.now / len + (l.wall + 1 - x.obs.wall)) * len))
  | _, _ => .next s

/-! ### Handlers -/

/-- Word k of handler table entry h (Table 2.13). -/
def Cell.hWord (x : Cell) (h k : Nat) : Nat := (x.cfgWord (0xE00 + 2 * h + k)).toNat

/-- The oldest waiting arrival joins the dispatch list as an entry frees (R78). -/
def refillDispatch (q : Seq) : Seq :=
  match q.waiting with
  | [] => q
  | w :: r => if q.dispatch.length < 16 then { q with dispatch := q.dispatch ++ [w], waiting := r } else q

/-- A handler starts from the oldest dispatch entry: its message goes to the handler message register (R391), its entry gives its
first instruction, VL and MAX_LEN (Table 2.13). An entry that is not VALID faults (R83): the message is then popped, and the record shows
OPCODE 0xFF, no instruction having been read, and the entry's ENTRY_PC as PC. A word of the entry that fails its parity is a fault of the
main context's next instruction, as one of a queue descriptor is (both DESIGN CHOICE, log 92). -/
def State.dispatch (s : State) (c queue ready : Nat) : State :=
  let x := s.cell c
  match x.qBad queue with
  | some off => s.parityFault c 3 off
  | none =>
    let h := x.qHandler queue
    match findBelow 2 (fun k => x.parityBad (0xE00 + 2 * h + k)) with
    | some k => s.parityFault c 4 (0x3800 + 8 * h + 4 * k)
    | none =>
      let (m, s) := s.popHead c queue
      let x := s.cell c
      let q := refillDispatch { x.seq with dispatch := x.seq.dispatch.drop 1 }
      let q := { q with hmsg := m.getD (bareMessage 0xFF) }
      let pc := nbits (x.hWord h 0) 8 9
      if x.hWord h 0 % 2 = 0 then (s.setCell c { x with seq := q }).takeFault c 4 7 0 false (handlerAt q 0xFF pc)
      else
        let run : Handler := { pc := pc, issued := 0, maxLen := nbits (x.hWord h 0) 24 8, vl := x.hWord h 1 % 2 ^ 16, ready := ready, queue := queue }
        let y := { x with seq := { q with handler := some run } }
        s.setCell c (y.count 0x013 1)

/-- HANDLER_DISPATCH (R79): once the cycle of its arrival has passed (R78), the oldest entry's handler starts; its first instruction is
ready 4 cycles after the arrival or the end of the previous handler. A cell that issues DRYDOWN starts one up to its last issue cycle; a
LOADING cell none, for it raises READY in the first cycle in which none runs, and leaves the list to the rebuild of R86 (R293, R296); nor does a WAITING_START cell, in which no schedule cycle passes: it
counts the 4 cycles of a rebuilt entry from cycle 0 (DESIGN CHOICE, log 92). -/
def execHandlerDispatch (c : CellId) (s : State) : Host.Outcome State Fault Refusal :=
  let x := s.cell c.val
  match x.seq.dispatch with
  | [] => .next s
  | (_, t, _) :: _ =>
    match (if x.state == .running && x.seq.handler.isNone then s.waitCycle c.val (t + 1) else none) with
    | none => .next s
    | some s1 =>
      let y := s1.cell c.val
      match y.seq.dispatch with
      | (queue, at_, _) :: _ =>
        if y.state ≠ .running then .next s1 else
        .next (s1.dispatch c.val queue (max at_ (y.seq.lastHandlerIssue.getD 0) + 4))
      | [] => .next s1

/-- Rebuilding of the dispatch list at commit (R86): one entry for each message of a valid handler-dispatched queue, in increasing
queue number. -/
def rebuildDispatch (x : Cell) : Cell :=
  let qs := x.cfg.queueValid.filter x.qDispatch
  let es := qs.flatMap (fun q => List.replicate (x.que.qlive q).count q)
  { x with seq := { x.seq with dispatch := (es.take 16).map (fun q => (q, 0, x.obs.wall)), waiting := (es.drop 16).map (fun q => (q, 0, x.obs.wall)) } }

end Sys2Proof.Machine
end

