-- ==== Sys2Proof/Machine/CellIssue.lean ====
section
/-!
DEFINITION. The cell instructions (Tables 2.11, 5.3, 6.1–6.5, 10.1, 17.7): each command issues the next instruction of a context of a
cell, when that instruction is the command's. What an instruction does beyond its issue follows from its word: the sequencing effects
are in Issue, the engines' work in the units.
-/

namespace Sys2Proof.Machine

/-- The next instruction of a context, when it is a ZCTL with operation k (R364), or with an operation that R361 makes illegal. -/
def issueZctl (k : Nat) (c : CellId) (x : Ctx) (s : State) : Host.Outcome State Fault Refusal :=
  let y := s.cell c.val
  let pc := match x with
    | .main => y.seq.pc
    | .handler => (y.seq.handler.map (·.pc)).getD 0
  let o := wE (y.instr pc) 8 3
  if o = k ∨ o = 0 ∨ o > 5 then issue 0x9D c x s else .next s

/-- The next instruction of a context, when it is an ENDLOOP: folded at fetch in the main context (R71). -/
def issueEnd (c : CellId) (x : Ctx) (s : State) : Host.Outcome State Fault Refusal :=
  match x with
  | .main => .next (issueEndloop c.val s)
  | .handler => issue 0x02 c x s

/-- NOP issues. -/
def execNop (c : CellId) (x : Ctx) (s : State) : Host.Outcome State Fault Refusal := issue 0x00 c x s
/-- LOOP issues. -/
def execLoop (c : CellId) (x : Ctx) (s : State) : Host.Outcome State Fault Refusal := issue 0x01 c x s
/-- ENDLOOP issues. -/
def execEndloop (c : CellId) (x : Ctx) (s : State) : Host.Outcome State Fault Refusal := issueEnd c x s
/-- SETVL issues. -/
def execSetvl (c : CellId) (x : Ctx) (s : State) : Host.Outcome State Fault Refusal := issue 0x03 c x s
/-- WAIT issues. -/
def execWait (c : CellId) (x : Ctx) (s : State) : Host.Outcome State Fault Refusal := issue 0x04 c x s
/-- SEAL issues. -/
def execSeal (c : CellId) (x : Ctx) (s : State) : Host.Outcome State Fault Refusal := issue 0x05 c x s
/-- RELEASE issues. -/
def execRelease (c : CellId) (x : Ctx) (s : State) : Host.Outcome State Fault Refusal := issue 0x06 c x s
/-- MODE issues. -/
def execMode (c : CellId) (x : Ctx) (s : State) : Host.Outcome State Fault Refusal := issue 0x07 c x s
/-- DRYDOWN issues. -/
def execDrydown (c : CellId) (x : Ctx) (s : State) : Host.Outcome State Fault Refusal := issue 0x08 c x s
/-- HALT issues. -/
def execHalt (c : CellId) (x : Ctx) (s : State) : Host.Outcome State Fault Refusal := issue 0x09 c x s
/-- MCLR issues. -/
def execMclr (c : CellId) (x : Ctx) (s : State) : Host.Outcome State Fault Refusal := issue 0x20 c x s
/-- MLOAD_I8 issues. -/
def execMloadI8 (c : CellId) (x : Ctx) (s : State) : Host.Outcome State Fault Refusal := issue 0x21 c x s
/-- MLOAD_I4 issues. -/
def execMloadI4 (c : CellId) (x : Ctx) (s : State) : Host.Outcome State Fault Refusal := issue 0x22 c x s
/-- MLOAD_MB8 issues. -/
def execMloadMb8 (c : CellId) (x : Ctx) (s : State) : Host.Outcome State Fault Refusal := issue 0x23 c x s
/-- MLOAD_MB4 issues. -/
def execMloadMb4 (c : CellId) (x : Ctx) (s : State) : Host.Outcome State Fault Refusal := issue 0x24 c x s
/-- MLOAD_SP issues. -/
def execMloadSp (c : CellId) (x : Ctx) (s : State) : Host.Outcome State Fault Refusal := issue 0x25 c x s
/-- MMAC_I8 issues. -/
def execMmacI8 (c : CellId) (x : Ctx) (s : State) : Host.Outcome State Fault Refusal := issue 0x28 c x s
/-- MMAC_I4 issues. -/
def execMmacI4 (c : CellId) (x : Ctx) (s : State) : Host.Outcome State Fault Refusal := issue 0x29 c x s
/-- MMAC_MB8 issues. -/
def execMmacMb8 (c : CellId) (x : Ctx) (s : State) : Host.Outcome State Fault Refusal := issue 0x2A c x s
/-- MMAC_MB4 issues. -/
def execMmacMb4 (c : CellId) (x : Ctx) (s : State) : Host.Outcome State Fault Refusal := issue 0x2B c x s
/-- MMAC_SP issues. -/
def execMmacSp (c : CellId) (x : Ctx) (s : State) : Host.Outcome State Fault Refusal := issue 0x2C c x s
/-- MMOV issues. -/
def execMmov (c : CellId) (x : Ctx) (s : State) : Host.Outcome State Fault Refusal := issue 0x30 c x s
/-- VADD issues. -/
def execVadd (c : CellId) (x : Ctx) (s : State) : Host.Outcome State Fault Refusal := issue 0x40 c x s
/-- VSUB issues. -/
def execVsub (c : CellId) (x : Ctx) (s : State) : Host.Outcome State Fault Refusal := issue 0x41 c x s
/-- VMUL issues. -/
def execVmul (c : CellId) (x : Ctx) (s : State) : Host.Outcome State Fault Refusal := issue 0x42 c x s
/-- VMAX issues. -/
def execVmax (c : CellId) (x : Ctx) (s : State) : Host.Outcome State Fault Refusal := issue 0x43 c x s
/-- VMIN issues. -/
def execVmin (c : CellId) (x : Ctx) (s : State) : Host.Outcome State Fault Refusal := issue 0x44 c x s
/-- VABS issues. -/
def execVabs (c : CellId) (x : Ctx) (s : State) : Host.Outcome State Fault Refusal := issue 0x45 c x s
/-- VNEG issues. -/
def execVneg (c : CellId) (x : Ctx) (s : State) : Host.Outcome State Fault Refusal := issue 0x46 c x s
/-- VFMA issues. -/
def execVfma (c : CellId) (x : Ctx) (s : State) : Host.Outcome State Fault Refusal := issue 0x48 c x s
/-- VFMAC issues. -/
def execVfmac (c : CellId) (x : Ctx) (s : State) : Host.Outcome State Fault Refusal := issue 0x49 c x s
/-- VCMP issues. -/
def execVcmp (c : CellId) (x : Ctx) (s : State) : Host.Outcome State Fault Refusal := issue 0x50 c x s
/-- VSELC issues. -/
def execVselc (c : CellId) (x : Ctx) (s : State) : Host.Outcome State Fault Refusal := issue 0x51 c x s
/-- VSEL issues. -/
def execVsel (c : CellId) (x : Ctx) (s : State) : Host.Outcome State Fault Refusal := issue 0x52 c x s
/-- VCVT issues. -/
def execVcvt (c : CellId) (x : Ctx) (s : State) : Host.Outcome State Fault Refusal := issue 0x58 c x s
/-- VQUANT issues. -/
def execVquant (c : CellId) (x : Ctx) (s : State) : Host.Outcome State Fault Refusal := issue 0x59 c x s
/-- VDEQ issues. -/
def execVdeq (c : CellId) (x : Ctx) (s : State) : Host.Outcome State Fault Refusal := issue 0x5A c x s
/-- VMXI issues. -/
def execVmxi (c : CellId) (x : Ctx) (s : State) : Host.Outcome State Fault Refusal := issue 0x5B c x s
/-- VMXE issues. -/
def execVmxe (c : CellId) (x : Ctx) (s : State) : Host.Outcome State Fault Refusal := issue 0x5C c x s
/-- VSLICE issues. -/
def execVslice (c : CellId) (x : Ctx) (s : State) : Host.Outcome State Fault Refusal := issue 0x5D c x s
/-- VBSHUF issues. -/
def execVbshuf (c : CellId) (x : Ctx) (s : State) : Host.Outcome State Fault Refusal := issue 0x60 c x s
/-- VXP4 issues. -/
def execVxp4 (c : CellId) (x : Ctx) (s : State) : Host.Outcome State Fault Refusal := issue 0x61 c x s
/-- VEXP2 issues. -/
def execVexp2 (c : CellId) (x : Ctx) (s : State) : Host.Outcome State Fault Refusal := issue 0x68 c x s
/-- VLOG2 issues. -/
def execVlog2 (c : CellId) (x : Ctx) (s : State) : Host.Outcome State Fault Refusal := issue 0x69 c x s
/-- VRSQRT issues. -/
def execVrsqrt (c : CellId) (x : Ctx) (s : State) : Host.Outcome State Fault Refusal := issue 0x6A c x s
/-- VRCP issues. -/
def execVrcp (c : CellId) (x : Ctx) (s : State) : Host.Outcome State Fault Refusal := issue 0x6B c x s
/-- VTANH issues. -/
def execVtanh (c : CellId) (x : Ctx) (s : State) : Host.Outcome State Fault Refusal := issue 0x6C c x s
/-- VSIGM issues. -/
def execVsigm (c : CellId) (x : Ctx) (s : State) : Host.Outcome State Fault Refusal := issue 0x6D c x s
/-- VTWOSUM issues. -/
def execVtwosum (c : CellId) (x : Ctx) (s : State) : Host.Outcome State Fault Refusal := issue 0x70 c x s
/-- VFTWOSUM issues. -/
def execVftwosum (c : CellId) (x : Ctx) (s : State) : Host.Outcome State Fault Refusal := issue 0x71 c x s
/-- VRAND issues. -/
def execVrand (c : CellId) (x : Ctx) (s : State) : Host.Outcome State Fault Refusal := issue 0x78 c x s
/-- RSUM issues. -/
def execRsum (c : CellId) (x : Ctx) (s : State) : Host.Outcome State Fault Refusal := issue 0x80 c x s
/-- RMAX issues. -/
def execRmax (c : CellId) (x : Ctx) (s : State) : Host.Outcome State Fault Refusal := issue 0x81 c x s
/-- RMIN issues. -/
def execRmin (c : CellId) (x : Ctx) (s : State) : Host.Outcome State Fault Refusal := issue 0x82 c x s
/-- RARGMAX issues. -/
def execRargmax (c : CellId) (x : Ctx) (s : State) : Host.Outcome State Fault Refusal := issue 0x83 c x s
/-- RARGMIN issues. -/
def execRargmin (c : CellId) (x : Ctx) (s : State) : Host.Outcome State Fault Refusal := issue 0x84 c x s
/-- RPSUM issues. -/
def execRpsum (c : CellId) (x : Ctx) (s : State) : Host.Outcome State Fault Refusal := issue 0x85 c x s
/-- RTOPK issues. -/
def execRtopk (c : CellId) (x : Ctx) (s : State) : Host.Outcome State Fault Refusal := issue 0x88 c x s
/-- RTOPKM issues. -/
def execRtopkm (c : CellId) (x : Ctx) (s : State) : Host.Outcome State Fault Refusal := issue 0x89 c x s
/-- MOVE issues. -/
def execMove (c : CellId) (x : Ctx) (s : State) : Host.Outcome State Fault Refusal := issue 0x90 c x s
/-- SEND issues. -/
def execSend (c : CellId) (x : Ctx) (s : State) : Host.Outcome State Fault Refusal := issue 0x91 c x s
/-- RECV issues. -/
def execRecv (c : CellId) (x : Ctx) (s : State) : Host.Outcome State Fault Refusal := issue 0x92 c x s
/-- LSEND issues. -/
def execLsend (c : CellId) (x : Ctx) (s : State) : Host.Outcome State Fault Refusal := issue 0x93 c x s
/-- MSG issues. -/
def execMsg (c : CellId) (x : Ctx) (s : State) : Host.Outcome State Fault Refusal := issue 0x98 c x s
/-- QPOP issues. -/
def execQpop (c : CellId) (x : Ctx) (s : State) : Host.Outcome State Fault Refusal := issue 0x99 c x s
/-- HTAKE issues. -/
def execHtake (c : CellId) (x : Ctx) (s : State) : Host.Outcome State Fault Refusal := issue 0x9A c x s
/-- BARR issues. -/
def execBarr (c : CellId) (x : Ctx) (s : State) : Host.Outcome State Fault Refusal := issue 0x9C c x s
/-- ZCTL_GRANT issues. -/
def execZctlGrant (c : CellId) (x : Ctx) (s : State) : Host.Outcome State Fault Refusal := issueZctl 1 c x s
/-- ZCTL_COMMIT issues. -/
def execZctlCommit (c : CellId) (x : Ctx) (s : State) : Host.Outcome State Fault Refusal := issueZctl 2 c x s
/-- ZCTL_VOID issues. -/
def execZctlVoid (c : CellId) (x : Ctx) (s : State) : Host.Outcome State Fault Refusal := issueZctl 3 c x s
/-- ZCTL_NORMAL_MODE issues. -/
def execZctlNormalMode (c : CellId) (x : Ctx) (s : State) : Host.Outcome State Fault Refusal := issueZctl 4 c x s
/-- ZCTL_CREDIT_MODE issues. -/
def execZctlCreditMode (c : CellId) (x : Ctx) (s : State) : Host.Outcome State Fault Refusal := issueZctl 5 c x s
/-- CRD issues. -/
def execCrd (c : CellId) (x : Ctx) (s : State) : Host.Outcome State Fault Refusal := issue 0xB0 c x s
/-- CCLR issues. -/
def execCclr (c : CellId) (x : Ctx) (s : State) : Host.Outcome State Fault Refusal := issue 0xB1 c x s
/-- CTD issues. -/
def execCtd (c : CellId) (x : Ctx) (s : State) : Host.Outcome State Fault Refusal := issue 0xB2 c x s

end Sys2Proof.Machine
end

