-- ==== Sys2Proof/Machine/Hub.lean ====
section
/-!
DEFINITION. The hub path (R377–R379), the enqueueing of messages at a cell (R387–R389), and the barrier commands (R395–R400).
-/

namespace Sys2Proof.Machine

/-! ### The hub path -/

/-- Whether every stream write of the suite's closed sections is stored (R379), displaced granules with them (R339). -/
def writesStored (s : State) (i : Nat) : Bool :=
  (s.suite i).contexts.all (fun k => (s.stream k.2.2).wcb.all (fun w => !w.owed)
    && (s.port (ctxPort k.2.2)).maint.all (fun e => e.2.all (fun m => match m with
      | .displacedWrite n _ _ => !inWindow (s.suite i) (ctxPort k.2.2 * 2 ^ 36 + n * 64)
      | _ => true)))

/-- Whether the next item of a cell at its bay node is a staged effect (R318): its suite stages, and the open section sent it. -/
def stages (u : Suite) (c : CellId) : Bool := staging u && sget 0 u.feeder.carried c.val == 0

/-- The item at the hub that is a suite's next one to act (R318, R379): the first released one once its writes are stored, or, with none
released and none to be staged, the first at the bay node b. -/
def hubHead (s : State) (i b : Nat) : Option (Bool × CellId × HubItem) :=
  let u := s.suite i
  match u.feeder.released with
  | (c, k) :: _ => if writesStored s i then some (true, c, k) else none
  | [] => (s.bay b).up.head?.bind (fun e => if stages u e.1 then none else some (false, e.1, e.2))

/-- An item of a cell leaves its bay node: one less that a closed section sent is on its way. -/
def State.takeUp (s : State) (i b : Nat) : State :=
  match (s.bay b).up with
  | [] => s
  | e :: rest =>
    let less := fun (m : SMap Nat) => if sget 0 m e.1.val ≤ 1 then sdel m e.1.val else sset m e.1.val (sget 0 m e.1.val - 1)
    (s.updBay b (fun y => { y with up := rest })).updSuite i (fun u => { u with feeder := { u.feeder with carried := less u.feeder.carried } })

/-- That item is taken. -/
def State.takeHub (s : State) (i b : Nat) (released : Bool) : State :=
  if released then s.updSuite i (fun u => { u with feeder := { u.feeder with released := u.feeder.released.drop 1 } })
  else s.takeUp i b

/-- A tagged message at the hub (R378). -/
def State.routeMessage (s : State) (i : Nat) (c : CellId) (m : W256) : State :=
  if mDstPart m ≠ s.part.toNat then s.sendMessage i m
  else if (cellSuite (s.cell (mDstQueue m / 256))).all (fun j => j == i) then s.toCell m none
  else s.suiteError 10 (mAddr m) (mDstQueue m) (.cell c) (some i)

/-- HUB_PATH_TRANSFER (R377, R389): the oldest item of a cell's outbound buffer reaches its bay node, or the oldest message for the cell
reaches it; one item per 4 cycles in each direction. -/
def execHubPathTransfer (c : CellId) (up : Bool) (s : State) : Host.Outcome State Fault Refusal :=
  let b := cellBay c.val
  let y := s.bay b
  let len := s.bayCycle b
  if up then
    match (s.cell c.val).trk.outbound with
    | [] => .next s
    | k :: rest =>
      if 16 ≤ y.up.length then .next s else
      let s := s.waitUntil y.upFree
      let s := s.updCell c.val (fun x => { x with trk := { x.trk with outbound := rest } })
      .next (s.updBay b (fun y => { y with up := y.up ++ [(c, k)], upFree := s.now + 4 * len }))
  else
    let x := s.cell c.val
    match y.down.findIdx? (fun e => e.1 == c) with
    | none => .next s
    | some k =>
      if x.state = .loading ∨ x.state = .waitingStart then .next s else
      let s := s.waitUntil y.downFree
      let e := nth y.down k (c, 0, none)
      let s := s.updBay b (fun y => { y with down := dropAt y.down k, downFree := s.now + 4 * len })
      .next (s.updCell c.val (fun x => { x with trk := { x.trk with arrivals := x.trk.arrivals ++ [⟨.hub, mDstQueue e.2.1 % 256, e.2.1, e.2.2⟩] } }))

/-- HUB_MESSAGE_ROUTE (R318, R378, R379): the suite's first released message leaves; else the first item of the bay node is staged, waits
behind the released ones, or is routed. Barrier commands and token records are left for their own commands. -/
def execHubMessageRoute (b : BayId) (s : State) : Host.Outcome State Fault Refusal :=
  match (s.bay b.val).owner with
  | none => .next s
  | some o =>
    let i := o.val
    let u := s.suite i
    match hubHead s i b.val with
    | some (rel, c, .msg m) =>
      if (tokenTarget s m).isSome then .next s else .next ((s.takeHub i b.val rel).routeMessage i c m)
    | some (_, _, .bar _ _) => .next s
    | none =>
      (match (s.bay b.val).up with
       | [] => .next s
       | e :: _ =>
         let put := fun (f : Feeder) => if stages u e.1 then { f with staged := f.staged ++ [e] } else { f with released := f.released ++ [e] }
         .next ((s.takeUp i b.val).updSuite i (fun v => { v with feeder := put v.feeder })))

/-- MESSAGE_ENQUEUE (R387, R388): the first arrival in the order of bound channels, router, hub path; a message of another part that is
discarded is reported to its sender (R465). -/
def execMessageEnqueue (c : CellId) (s : State) : Host.Outcome State Fault Refusal :=
  let l := (s.cell c.val).trk.arrivals
  let pick : MsgSource → Option Nat := fun k => l.findIdx? (fun a => a.src == k)
  match (pick .rxChannel).orElse (fun _ => (pick .router).orElse (fun _ => pick .hub)) with
  | none => .next s
  | some k =>
    match l[k]? with
    | none => .next s
    | some a =>
      let s := s.updCell c.val (fun x => { x with trk := { x.trk with arrivals := dropAt l k } })
      let n := ((s.cell c.val).que.qlive a.queue).count
      let s1 := s.enqueue c.val a
      if mRemote a.msg ∧ ((s1.cell c.val).que.qlive a.queue).count = n then
        .next (s1.sendNotice (a.vc.getD 0) (mSuite a.msg) 12 (mAddr a.msg) 32 (mSrcPart a.msg) 0)
      else .next s1

/-! ### Barrier commands -/

/-- A command that step 1 of R397 refuses is reported: to a suite of this part, or by a notice to the other part. -/
def State.refuseBar (s : State) (n : Nat) (src : BarSrc) : State :=
  match src with
  | .mgmt => s
  | .vf i => s.suiteError 11 (barAddr s n) 0 .hub (some i.val)
  | .cell i => s.suiteError 11 (barAddr s n) 0 .hub (some i.val)
  | .remote part i => s.sendNotice 4 i.val 10 (barAddr s n) 8 part.toNat 0

/-- ARM on a barrier (R396). -/
def State.armBarrier (s : State) (n : Nat) : State :=
  let b := s.barrier n
  if b.armed then s
  else if b.participants = 0 then s.logEvent 4 (barAddr s n % 2 ^ 48) 0 none
  else s.setBarrier n { b with latched := b.participants, arrived := 0, error := false, armed := true }

/-- DISARM on a barrier (R396). -/
def State.disarmBarrier (s : State) (n : Nat) : State :=
  let b := s.barrier n
  let s := s.setBarrier n { b with armed := false, arrived := 0 }
  if b.arrived = 0 then s else s.logEvent 4 (barAddr s n % 2 ^ 48) b.arrived.toNat none

/-- A BARCMD of another part whose turn it is (R396, R397, R457); reason 10 when the barrier takes no remote command. -/
def State.barTxn (s : State) (g vc : Nat) (t : Txn) : State :=
  match barOf (txnAddr t % 2 ^ 48) with
  | none => s.refuseTxn g vc t 1
  | some n =>
    if !(s.barrier n).remote && t.arrived.isSome then s.refuseTxn g vc t 10 else
    let v : W64 := BitVec.ofNat 64 (leAt t.body 0 8)
    let s := s.endTxn g vc t
    let s := if v.getLsbD 62 then s.disarmBarrier n else if v.getLsbD 63 then s.armBarrier n else s
    if v.getLsbD 61 ∨ v.getLsbD 60 then s.barCommand n (v.getLsbD 61) (v.getLsbD 60) (v.getLsbD 59) (fld v 32 16) else s

/-- A command of another part acts when its transaction is the next of its virtual channel, behind the writes that it announces (R401): the
first port and channel where a BARCMD of that part and suite for barrier n with a BAR_CMD value that ok accepts is next. -/
def State.remoteBar (s : State) (part i n : Nat) (ok : W64 → Bool) : State :=
  match ((List.range 16).flatMap (fun g => (List.range 5).filterMap (fun vc => (gHead s g vc 4).map (fun t => (g, vc, t))))).find? (fun e =>
      txnDst e.2.2 == s.part.toNat && txnSrc e.2.2 == part && txnSuite e.2.2 == i && barOf (txnAddr e.2.2 % 2 ^ 48) == some n
      && ok (BitVec.ofNat 64 (leAt e.2.2.body 0 8))) with
  | none => s
  | some (g, vc, t) => s.barTxn g vc t

/-- BAR_CMD_ARM (R396). Cells send no ARM; a VF reaches only its own barriers (R395). -/
def execBarCmdArm (src : BarSrc) (n : BarId) (s : State) : Host.Outcome State Fault Refusal :=
  match src with
  | .cell _ => .next s
  | .remote p i => .next (s.remoteBar p.toNat i.val n.val (fun v => v.getLsbD 63 && !v.getLsbD 62))
  | _ => .next (if barRefused s n.val src then s.refuseBar n.val src else s.armBarrier n.val)

/-- BAR_CMD_DISARM (R396). -/
def execBarCmdDisarm (src : BarSrc) (n : BarId) (s : State) : Host.Outcome State Fault Refusal :=
  match src with
  | .cell _ => .next s
  | .remote p i => .next (s.remoteBar p.toNat i.val n.val (fun v => v.getLsbD 62))
  | _ => .next (if barRefused s n.val src then s.refuseBar n.val src else s.disarmBarrier n.val)

/-- The BAR_CMD value of an arrival (Table 10.11). -/
def arriveCmd (err genchk : Bool) (gen : W16) : W64 := flag64 true 61 ||| flag64 err 60 ||| flag64 genchk 59 ||| at64 gen 32

/-- BAR_CMD_ARRIVE (R397, R400, R401): a cell's arrival is the next item of its suite at the hub, another part's the next of its channel. -/
def execBarCmdArrive (src : BarSrc) (n : BarId) (err genchk : Bool) (gen : W16) (s : State) : Host.Outcome State Fault Refusal :=
  let act := fun (s : State) => if barRefused s n.val src then s.refuseBar n.val src else s.barCommand n.val true err genchk gen
  match src with
  | .cell i =>
    (match (suiteBays s i.val).find? (fun b => match hubHead s i.val b with
       | some (_, _, .bar m k) => m == n.val && k == arriveCmd err genchk gen
       | _ => false) with
     | none => .next s
     | some b => .next (act (s.takeHub i.val b (!(s.suite i.val).feeder.released.isEmpty))))
  | .remote p i => .next (s.remoteBar p.toNat i.val n.val (fun v => v == arriveCmd err genchk gen))
  | _ => .next (act s)

/-- BAR_CMD_ERR (R397). A cell's BARR always arrives too (R400). -/
def execBarCmdErr (src : BarSrc) (n : BarId) (genchk : Bool) (gen : W16) (s : State) : Host.Outcome State Fault Refusal :=
  match src with
  | .cell _ => .next s
  | .remote p i => .next (s.remoteBar p.toNat i.val n.val (fun v => v == (flag64 true 60 ||| flag64 genchk 59 ||| at64 gen 32)))
  | _ => .next (if barRefused s n.val src then s.refuseBar n.val src else s.barCommand n.val false true genchk gen)

/-- BAR_CFG_WRITE (R396, Tables 10.7, 10.10): register 0 is BAR_CFG, register 1 + i BAR_NOTIFY[i]. -/
def execBarCfgWrite (f : HostFn) (n : BarId) (reg : Fin 5) (v : W64) (s : State) : Host.Outcome State Fault Refusal :=
  if !s.answers f then .next s else
  let b := s.barrier n.val
  let addr := barAddr s n.val % 2 ^ 48 + (if reg.val = 0 then 0 else 0x10 + 8 * reg.val)
  let may := match f with
    | .pf => true
    | .vf i => s.barOwner n.val == some i.val
  if !may then .next (s.logEvent 2 addr (1 + (match f with
    | .pf => 0
    | .vf i => (i.val + 1) * 256)) none)
  else if b.armed then .next (s.logEvent 4 addr 0 none)
  else if reg.val = 0 then
    .next (s.setBarrier n.val { b with tag := fld v 48 16, remote := v.getLsbD 29, autoRearm := v.getLsbD 28, notifyCount := fld v 24 3
                                       participants := fld v 0 24 })
  else
    .next (s.setBarrier n.val { b with notify := (List.range 4).map (fun k => if k + 1 = reg.val then fld v 0 26 else nth b.notify k 0) })

end Sys2Proof.Machine
end

