-- ==== Sys2Proof/Machine/Spad.lean ====
section
/-!
DEFINITION. Scratchpad accesses by the scrubbers and by management (R110, R137–R141, R303), and the requests on landing zones that
come as notices and register writes (R128–R134).
-/

namespace Sys2Proof.Machine

/-- An access of management or of a scrubber (R110, R111). In a cell of a RUNNING suite, and while panes are being cleared (R303), it waits
for a cycle in which its octant is unclaimed, and takes it as that cycle passes; else every cycle is unclaimed, and it takes the first in
which its octant has made no other access (R102), with the one after it where it takes two (R106). -/
def State.access (s : State) (c : Nat) (a : SpadAccess) : State :=
  let x := s.cell c
  if (s.runningSuite x).isSome || x.cfg.clearing || !x.accesses.isEmpty then s.updCell c (fun x => { x with accesses := x.accesses ++ [a] })
  else
    let k := s.wallCycle c + 1
    let s := (if sget 0 x.octUsed a.octant = k then s.waitUntil (k * s.bayCycle (cellBay c)) else s).serveAccess c a
    if a.merges then s.waitUntil ((s.wallCycle c + 1) * s.bayCycle (cellBay c)) else s

/-- SCRUB_READ (R140): the octant's next bank address of the scrub period; correctable words are queued for write-back (R137), an
uncorrectable one poisons or clears its pane (R139). -/
def execScrubRead (c : CellId) (o : Fin 8) (s : State) : Host.Outcome State Fault Refusal :=
  .next (if !s.powered c.val || decide (4096 ≤ (sget {} (s.cell c.val).scrub o.val).made (scrubPeriod s.tick)) then s
    else s.access c.val (.scrub o.val))

/-- A bounded late cause of a suite is reported to its root (R282): occurrences of the window, and OVER_BUDGET beyond the allotment
of Table 14; within says whether the cause may still be met. -/
def allotment (origin : Nat) : Nat := if origin = 2 then 4 else if origin = 4 then 1 else 3

/-- Whether another occurrence of a cause fits the window's allotment (R282). -/
def withinAllotment (u : Suite) (origin : Nat) : Bool := decide ((u.hold.occurrences.filter (· == origin)).length < allotment origin)

/-- A bounded cause met by a suite (R282): ORIGIN for the hold ring, and OVER_BUDGET when it exceeds its allotment. -/
def State.boundedCause (s : State) (i origin : Nat) : State :=
  let u := s.suite i
  let excess := !withinAllotment u origin && origin != 4
  let h := { u.hold with origin := BitVec.ofNat 4 origin, occurrences := u.hold.occurrences ++ [origin], overBudget := u.hold.overBudget || excess }
  let s := s.setSuite i { u with hold := h, sb := { u.sb with spoiled := u.sb.spoiled || excess } }
  if excess then s.report 6 2 0 0 u.hold.run .hub (some i) else s

/-- The wall beat in which a cell's next check point falls (R63): its cycle 8 is still to come, or that of the next beat is. -/
def State.nextCheckBeat (s : State) (c : Nat) : Nat :=
  let k := s.wallCycle c
  if k % 16 < 8 then k / 16 else k / 16 + 1

/-- SCRUB_INTERVAL_END (R141): at the tick that ends an interval, the largest shortfall of the octants against 64 × (i + 1) reads of the
period raises the SCRUB signal at the next check point for ceil(d / 16) beats, at most 4. -/
def execScrubIntervalEnd (c : CellId) (s : State) : Host.Outcome State Fault Refusal :=
  let k := s.tick.toNat / 781250
  let k := if s.tick.toNat % 781250 = 0 ∧ (s.cell c.val).interval < k then k else k + 1
  let s := s.waitUntil (s.now + (781250 * k - s.tick.toNat) * 600 - s.now % 600)
  let x := s.cell c.val
  let need := 64 * ((k - 1) % 64 + 1)
  let d := (List.range 8).foldl (fun m o => max m (need - (sget {} x.scrub o).made ((k - 1) / 64))) 0
  let late := d ≠ 0 ∧ x.state = .running
  let s := s.setCell c.val { x with interval := k, scrubLate := if late then (s.nextCheckBeat c.val, min 4 (cdiv d 16)) else x.scrubLate }
  .next (match (if late then cellSuite x else none) with
    | some j => s.boundedCause j 4
    | none => s)

/-- CORRECTION_WRITE_BACK (R138): the oldest write-back of an octant. One whose word has been written since is no longer queued. -/
def execCorrectionWriteBack (c : CellId) (o : Fin 8) (s : State) : Host.Outcome State Fault Refusal :=
  .next (if (sget {} (s.cell c.val).scrub o.val).backs.isEmpty then s else s.access c.val (.writeBack o.val))

/-- MGMT_SCRATCHPAD_READ (R110, R139): the word, corrected where it can be; an uncorrectable word reads as ones and poisons its pane. -/
def execMgmtScratchpadRead (c : CellId) (word : BitVec 20) (s : State) : Host.Outcome State Fault Refusal :=
  .next (s.access c.val (.read word.toNat 1))

/-- The bytes at an address that a value puts there, as its byte enables select them. -/
def enabledBytes (a n : Nat) (v : W64) (be : Nat) : List (Nat × Byte) :=
  (List.range n).filterMap (fun k => if nbit be k then some (a + k, fld v (8 * k) 8) else none)

/-- MGMT_SCRATCHPAD_WRITE (R110, R139): a whole word is stored; a part is merged into the word read first, and discarded when that
word is uncorrectable. -/
def execMgmtScratchpadWrite (c : CellId) (word : BitVec 20) (v : W32) (be : BitVec 4) (s : State) : Host.Outcome State Fault Refusal :=
  .next (if be = 0 then s else s.access c.val (.write (enabledBytes (4 * word.toNat) 4 (v.setWidth 64) be.toNat)))

/-! ### Zones -/

/-- Time passes until the first notice of a kind that waits on a zone has taken effect (R130): until the schedule cycle in which it does
has passed, or until the cycle after it came has begun. -/
def State.passNotice (s : State) (c z : Nat) (commit : Bool) : State :=
  match ((s.cell c).zone z).notices.find? (fun n => n.commit == commit) with
  | none => s
  | some n => if n.off then s.waitUntil n.due else (s.waitCycle c (n.due + 1)).getD s

/-- ZONE_COMMIT (R128, R130). -/
def execZoneCommit (c : CellId) (z : ZoneId) (s : State) : Host.Outcome State Fault Refusal := .next (s.passNotice c.val z.val true)
/-- ZONE_VOID (R129, R130). -/
def execZoneVoid (c : CellId) (z : ZoneId) (s : State) : Host.Outcome State Fault Refusal := .next (s.passNotice c.val z.val false)

/-- ZONE_MODE_CHANGE (R132): the mode asked for comes into force as cycle 0 of the next beat passes. -/
def execZoneModeChange (c : CellId) (z : ZoneId) (s : State) : Host.Outcome State Fault Refusal :=
  .next (match ((s.cell c.val).zone z.val).modeReq with
    | none => s
    | some (_, b) => (s.waitCycle c.val (16 * b + 1)).getD s)

/-- Address of a cell's register (R47). -/
def cellRegAddr (c off : Nat) : Nat := 0x020000000000 + c * 2 ^ 16 + off
/-- Address of LZ_CFG of a zone. -/
def lzAddr (c z : Nat) : Nat := cellRegAddr c (0x4400 + 8 * z)

/-- A write to LZ_CFG (R132–R134): the actions of COMMIT, VOID and GRANT and nothing else, or the other fields. A setup that no zone can
have (COUNT 0 or above 128, or panes beyond the octant's last) is held as it is written (DESIGN CHOICE, log 92). -/
def State.writeLz (s : State) (f : HostFn) (c z : Nat) (v : W64) : State :=
  if f ≠ .pf then s.logDiscard (some f) (lzAddr c z)
  else if v.getLsbD 62 || v.getLsbD 63 || fld v 46 16 != 0 then
    let s := if v.getLsbD 62 then s.requestNotice c z false none else if v.getLsbD 63 then s.requestNotice c z true none else s
    s.updCell c (fun x => x.setZone z (grantZone (x.zone z) (fld v 46 16).toNat))
  else
    let x := s.cell c
    let o := x.zone z
    let same := decide (o.valid = v.getLsbD 28) && decide (o.octant = fld v 15 3) && decide (o.pane = fld v 8 7) && decide (o.count = fld v 0 8)
    let may := !x.frozen && (x.state == .idle || x.state == .halted || x.state == .faulted)
    let n := { o with ovf := o.ovf && !v.getLsbD 39, tagErr := o.tagErr && !v.getLsbD 38, refused := o.refused && !v.getLsbD 37, stale := o.stale && !v.getLsbD 36 }
    let n := if may then { n with valid := v.getLsbD 28, octant := fld v 15 3, pane := fld v 8 7, count := fld v 0 8 } else n
    let s := (s.setCell c (x.setZone z n)).requestMode c z (v.getLsbD 29)
    if same || may then s else s.logDiscard (some f) (lzAddr c z)

/-- LZ_CFG_COMMIT (R133): COMMIT is written, whatever the other fields but VOID. -/
def execLzCfgCommit (f : HostFn) (c : CellId) (z : ZoneId) (rest : W64) (s : State) : Host.Outcome State Fault Refusal :=
  if !s.answers f then .next s else
  .next ((s.freshIn (s.bayCycle (cellBay c.val))).writeLz f c.val z.val (rest ||| (1#64 <<< 63)))
/-- LZ_CFG_VOID (R133): VOID is written; with COMMIT, the void is performed. -/
def execLzCfgVoid (f : HostFn) (c : CellId) (z : ZoneId) (rest : W64) (s : State) : Host.Outcome State Fault Refusal :=
  if !s.answers f then .next s else
  .next ((s.freshIn (s.bayCycle (cellBay c.val))).writeLz f c.val z.val (rest ||| (1#64 <<< 62)))
/-- LZ_CFG_GRANT (R131, R133). A grant through the PF sends no CREDIT message: its write names no queue (R380). -/
def execLzCfgGrant (f : HostFn) (c : CellId) (z : ZoneId) (g : W16) (s : State) : Host.Outcome State Fault Refusal :=
  if !s.answers f then .next s else
  .next ((s.freshIn (s.bayCycle (cellBay c.val))).writeLz f c.val z.val ((g.setWidth 64) <<< 46))
/-- LZ_CFG_WRITE (R134): the setup fields, MODE and the flags. -/
def execLzCfgWrite (f : HostFn) (c : CellId) (z : ZoneId) (v : W64) (s : State) : Host.Outcome State Fault Refusal :=
  if !s.answers f then .next s else
  .next ((s.freshIn (s.bayCycle (cellBay c.val))).writeLz f c.val z.val (v &&& 0x00003FFFFFFFFFFF#64))

end Sys2Proof.Machine
end

