-- ==== Sys2Proof/Machine/Hold.lean ====
section
/-!
DEFINITION. The fixative hold (R270–R283, R309–R312) and the isolation of bays (R284–R288).
-/

namespace Sys2Proof.Machine

/-! ### Bays and their borders -/

/-- The bay across a side (0 N, 1 E, 2 S, 3 W), none on the device edge (R286). -/
def bayNext (b side : Nat) : Option Nat :=
  if side = 0 then (if b < 4 then none else some (b - 4))
  else if side = 1 then (if b % 4 = 3 then none else some (b + 1))
  else if side = 2 then (if b ≥ 28 then none else some (b + 4))
  else if b % 4 = 0 then none else some (b - 1)

/-- EDGE of BAY_ISO (Table 7.16). -/
def bayEdge (b : Nat) : BitVec 4 := BitVec.ofNat 4 ((List.range 4).foldl (fun m d => if (bayNext b d).isNone then m + 2 ^ d else m) 0)

/-- Whether a border of a bay passes traffic: both halves OPEN (R284). -/
def borderOpen (s : State) (b side : Nat) : Bool :=
  match bayNext b side with
  | none => false
  | some n => (s.bay b).iso.getLsbD side && (s.bay n).iso.getLsbD (facing side)

/-- The bays that the hold lanes join to the first of some bays (R270, R284, R285). -/
def joined (s : State) (bays : List Nat) : List Nat :=
  match bays with
  | [] => []
  | r :: _ => (List.range bays.length).foldl (fun l _ =>
      bays.filter (fun b => l.contains b || (List.range 4).any (fun d => borderOpen s b d && (match bayNext b d with
        | some n => l.contains n
        | none => false)))) [r]

/-- The cells that the root of a suite's hold tree reaches. -/
def treeCells (s : State) (i : Nat) : List Nat := (joined s (suiteBays s i)).flatMap bayCells

/-! ### Causes -/

/-- The cause bits that a cell raises at the sample of a wall beat (R271, R272): its late checks, those that passed too late for the beat's sample (R274), and
SCRUB. -/
def lateMask (x : Cell) (beat : Nat) : BitVec 8 :=
  causeBits x.seq.late
    ||| (match x.seq.lateSeen with
      | some (b, m) => if b = beat then m else 0
      | none => 0)
    ||| (if scrubLateIn x (16 * beat + 12) then 8 else 0)

/-- Whether the root of a suite raises PROTECT (R537, R538): protection, or the cap duty of a suite that builds no steps. -/
def protectAsked (s : State) (i : Nat) (u : Suite) : Bool :=
  u.freq.protect || (!u.serving && decide (0 < s.power.duty.toNat) &&
    decide (s.now / (16 * cycleLen u.freq.current) % 16 < s.power.duty.toNat) && decide (i < 32))

/-- Whether MGMT stands (Table 7.6): the register bit, or a recovery (R558). -/
def mgmtAsked (u : Suite) : Bool := u.hold.mgmtHold || u.recov.active

/-- The schedule cycle of a suite: that of a cell that runs or loads, or the begin of the last beat known. -/
def suiteCycle (s : State) (i : Nat) : Nat :=
  match (suiteCells s i).find? (fun c => let x := s.cell c; x.state != .idle && x.state != .waitingStart) with
  | some c => (s.cell c).seq.schedCycle
  | none => 16 * (s.suite i).hold.schedBeat.toNat

/-- The schedule beat of a suite. -/
def suiteBeat (s : State) (i : Nat) : Nat := suiteCycle s i / 16

/-- How many schedule cycles of a suite have begun: in a hold the held beat has not. -/
def suitePassed (s : State) (i : Nat) : Nat := suiteCycle s i + b2n (!(s.suite i).hold.held)

/-- The beat in which a request for beat b acts (R130, R354): b where its cycle 0 is still to come, else the suite's next beat. -/
def suiteNextBeat (s : State) (i b : Nat) : Nat :=
  let t := suiteCycle s i
  if t ≤ 16 * b then b else if (s.suite i).hold.held then cdiv t 16 else t / 16 + 1

/-- The wall beat of a suite's bays. -/
def suiteWallBeat (s : State) (i : Nat) : Nat := s.now / (16 * cycleLen (s.suite i).freq.current)

/-- Time passes until a place in the beat of a suite's bays. -/
def State.waitBeat (s : State) (i ph : Nat) : Option State :=
  let u := s.suite i
  if u.state != .running then none else
  let len := cycleLen u.freq.current
  let now := s.now / len
  let d := (ph + 16 - now % 16) % 16
  if d = 0 then some s else some (s.advance ((now + d) * len - s.now))

/-- Time passes until the next beat boundary of a suite's bays; none passes on the boundary that follows the root's last sample, on which a
RELEASE and a START act together (R274, R310). -/
def State.waitBoundary (s : State) (i : Nat) : Option State :=
  let u := s.suite i
  if u.state != .running then none else
  let beat := 16 * cycleLen u.freq.current
  if s.now = u.hold.sampled * beat then some s else some (s.advance ((s.now / beat + 1) * beat - s.now))

/-- Whether the section about to start replaces a run that a recovery rolled back (R292, R320). -/
def isRedo (u : Suite) : Bool := u.recov.active && u.feeder.isOpen

/-- EPOCH of the section about to start: its start count, or that of the run it replaces (R292). -/
def nextEpoch (u : Suite) : Nat :=
  let n := (u.sections[u.feeder.next]?.map (·.starts)).getD 0
  if isRedo u then n - 1 else n

/-- The number of the step that the builder builds next: the start count of the step's first section (R292, R412). -/
def nextStep (u : Suite) : Nat := (u.sections[u.sb.stepFirst]?.map (fun x => x.starts)).getD 0

/-- T_step in ns at the frequency in force, without its handling term (Table 13.15). -/
def tStepNs (u : Suite) : Nat :=
  cdiv (leAt u.header 40 4 * cycleLen u.freq.current) 15 + leAt u.header 44 4 + 500 + 2 * leAt u.header 48 2

/-- Whether START may be sent (R310, R412, R529, R533, R537). -/
def startAllowed (s : State) (i : Nat) : Bool :=
  let u := s.suite i
  let cells := suiteCells s i
  let bays := suiteBays s i
  let firstOfStep := u.serving && decide (u.feeder.next = u.sb.stepFirst) && !isRedo u
  let epoch := nextEpoch u
  u.feeder.configured && (!u.feeder.isOpen || isRedo u) && !cells.isEmpty
    && cells.all (fun c => let x := s.cell c; x.state == .waitingStart && x.startReady)
    && cells.all (fun c => (treeCells s i).contains c)
    && !protectAsked s i u && !u.hold.mgmtHold && (!u.recov.active || u.recov.phase == 4)
    && bays.all (fun b => (s.bay b).lock && !(s.bay b).ramping)
    && u.windows.all (fun w => !(s.port w.stack).selfRefresh) && u.protExts.all (fun p => !(s.port p.1).selfRefresh)
    && (!firstOfStep || (!u.freq.withheld && !u.stopping && u.sb.built.any (fun e => e.1 == epoch)))

/-- The root's sample in cycle 12 of a beat (R272, R274, R310): the tree with the root's own requests; HOLD, RELEASE or START is sent. A cell
that has faulted since its check point raises no hold, though CELL_STATUS.LATE still shows its late checks (DESIGN CHOICE, log 92). -/
def State.rootSample (s : State) (i : Nat) : State :=
  let u := s.suite i
  let beat := suiteWallBeat s i
  let late := (treeCells s i).filter (fun c => (s.cell c).state == .running && lateMask (s.cell c) beat != 0)
  let mask := late.foldl (fun (m : BitVec 8) c => m ||| lateMask (s.cell c) beat) 0
  let mask := if protectAsked s i u then mask ||| 16 else mask
  let mask := if mgmtAsked u then mask ||| 32 else mask
  let h := { u.hold with sampled := beat + 1, schedBeat := BitVec.ofNat 32 (suiteBeat s i) }
  let h :=
    if h.held then
      { h with causes := mask, orCauses := h.orCauses ||| mask, sendRelease := mask == 0, sendStart := startAllowed s i }
    else if mask ≠ 0 ∧ u.feeder.isOpen then
      { h with causes := mask, orCauses := mask, sendHold := true, firstCell := BitVec.ofNat 12 (late.min?.getD 0) }
    else { h with sendStart := startAllowed s i }
  s.setSuite i { u with hold := h }

/-- HOLD_ROOT_SAMPLE (R272, R274): the root samples once in each beat, in its cycle 12. -/
def execHoldRootSample (sid : SuiteId) (s : State) : Host.Outcome State Fault Refusal :=
  match (if (s.suite sid.val).hold.sampled = suiteWallBeat s sid.val + 1 then s.waitBoundary sid.val else some s).bind (fun s => s.waitBeat sid.val 12) with
  | none => .next s
  | some s => .next (s.rootSample sid.val)

/-- Whether a hold marks a cell: any of the suite but an IDLE one. It freezes only those that run, have halted or have faulted (R275, R312); in
a LOADING cell CELL_BEAT alone stands still (R62; DEDUCED, log 94). -/
def holdable (x : Cell) : Bool := x.state != .idle

/-- A cell that HOLD reaches (R275); a fault that the check of the held beat found is deferred (R90). -/
def holdCell (x : Cell) : Cell :=
  if holdable x then
    { x with held := true, seq := { x.seq with faults := x.seq.faults.map (fun f => { f with deferred := f.cause != 5 }) } }
  else x

/-- HOLD_BEGIN (R272, R275): at the boundary after HOLD was sent, the cells that it reaches over OPEN borders are held (R270, R285). -/
def execHoldBegin (sid : SuiteId) (s : State) : Host.Outcome State Fault Refusal :=
  if !(s.suite sid.val).hold.sendHold then .next s else
  match s.waitBoundary sid.val with
  | none => .next s
  | some s =>
    let u := s.suite sid.val
    let h := { u.hold with sendHold := false, held := true, holds := u.hold.holds + 1, run := 0, startTick := s.tick
                           timedOut := false, schedBeat := BitVec.ofNat 32 (suiteBeat s sid.val) }
    let s := s.setSuite sid.val { u with hold := h }
    .next ((treeCells s sid.val).foldl (fun s c => s.updCell c holdCell) s)

/-- The ring entry of a hold that ends (Table 7.13). -/
def holdEntry (h : Hold) : W256 :=
  BitVec.ofNat 256 (h.startTick.toNat + h.schedBeat.toNat * 2 ^ 64 + min h.run 0xFFFF * 2 ^ 96 + h.orCauses.toNat * 2 ^ 112
    + h.origin.toNat * 2 ^ 120 + h.firstCell.toNat * 2 ^ 128)

/-- The hold of a suite ends: its entry is written at HEAD (R281), and the cells that RELEASE reaches go on. -/
def State.releaseHold (s : State) (i : Nat) : State :=
  let u := s.suite i
  let h := u.hold
  let h' := { h with held := false, sendRelease := false, head := h.head + 1, ring := sset h.ring h.head.toNat (holdEntry h), origin := 0
                     wraps := if h.head = 63 then h.wraps + 1 else h.wraps }
  (treeCells s i).foldl (fun s c => s.updCell c (fun x => { x with held := false })) (s.setSuite i { u with hold := h' })

/-- The deferred faults of a cell are checked again after the hold (R90): what comes out late, and the faults that stand with those that fail
again; those that pass go. -/
def recheckFaults (x : Cell) : List LateCheck × List CheckFault :=
  let mine := x.seq.faults.filter (·.deferred)
  if mine.isEmpty then ([], x.seq.faults) else
  let a := runAhead x (x.seq.checked - 1)
  (a.late.filter (fun l => mine.any (fun f => f.cycle == l.cycle)),
   x.seq.faults.filter (fun f => !f.deferred) ++ a.faults.filter (fun f => mine.any (fun g => g.cycle == f.cycle)))

/-- HOLD_END (R274): at the boundary after RELEASE was sent, the deferred faults are checked again (R90) and issue resumes. A check that
then comes out late in any cell holds the suite for another beat, and every deferred fault stays deferred (DESIGN CHOICE, log 94). -/
def execHoldEnd (sid : SuiteId) (s : State) : Host.Outcome State Fault Refusal :=
  let h := (s.suite sid.val).hold
  if !h.held || !h.sendRelease then .next s else
  match s.waitBoundary sid.val with
  | none => .next s
  | some s =>
    let cells := (treeCells s sid.val).filter (fun c => (s.cell c).state == .running)
    if cells.any (fun c => !(recheckFaults (s.cell c)).1.isEmpty) then
      let s := cells.foldl (fun s c => s.updCell c (fun x => { x with seq := { x.seq with late := x.seq.late ++ (recheckFaults x).1 } })) s
      .next (s.updSuite sid.val (fun u => { u with hold := { u.hold with sendRelease := false } }))
    else
      .next ((cells.foldl (fun s c => s.updCell c (fun x => { x with seq := { x.seq with faults := (recheckFaults x).2 } })) s).releaseHold sid.val)

/-- HOLD_TIMEOUT (R279): the count of held beats has reached LIMIT; suite-fatal (Table 16.2), and not set while a recovery runs
(R558). -/
def execHoldTimeout (sid : SuiteId) (s : State) : Host.Outcome State Fault Refusal :=
  let u := s.suite sid.val
  let h := u.hold
  if !h.held || h.timedOut || h.limit == 0 || decide (h.run < h.limit.toNat) || u.recov.active then .next s else
  let s := s.setSuite sid.val { u with hold := { h with timeout := true, timedOut := true } }
  .next ((s.report 6 1 2 0 (min h.run 0xFFFF) .hub (some sid.val)).suiteFault sid.val 2 false none none)

/-! ### Isolation -/

/-- Address of a bay's register block. -/
def bayRegAddr (b off : Nat) : Nat := 0x021000000000 + b * 2 ^ 20 + off

/-- The sides of a write that may open (R286, R287): both bays belong to one suite. -/
def mayOpen (s : State) (b : Nat) (want : BitVec 4) : BitVec 4 :=
  (List.range 4).foldl (fun (m : BitVec 4) d =>
    let ok := match bayNext b d with
      | some n => (s.bay b).owner.isSome && decide ((s.bay b).owner = (s.bay n).owner)
      | none => false
    if want.getLsbD d && ok then m ||| BitVec.ofNat 4 (2 ^ d) else m) 0

/-- Whether a bay's clock runs. -/
def bayClocked (y : Bay) : Bool := y.power == .on && y.lock

/-- A write of a bay's BAY_ISO through the PF (R286–R288, Table 7.16). -/
def State.writeIso (s : State) (b : BayId) (v : W64) : State :=
  let y := s.bay b.val
  let want := fld v 0 4
  let ok := mayOpen s b.val want
  let y := { y with viol := y.viol &&& ~~~ (fld v 16 4) }
  let y := if bayClocked y then { y with isoReq := some ok } else { y with iso := ok, isoReq := none }
  let s := s.setBay b.val y
  if ok = want then s else s.logEvent 3 (bayRegAddr b.val 0) want.toNat none

/-- BAY_ISO_WRITE (R280, R287): the sides that may not open stay CLOSED and are logged; the state changes at the bay's next beat
boundary, or at once when its clock is stopped. -/
def execBayIsoWrite (f : HostFn) (b : BayId) (v : W64) (s : State) : Host.Outcome State Fault Refusal :=
  if !s.answers f then .next s else
  let s := s.freshIn (s.bayCycle b.val)
  .next (if f ≠ .pf then s.logDiscard (some f) (bayRegAddr b.val 0x40) else s.writeIso b v)

/-- A VALID flit that a CLOSED half of bay b stops on a side (R285): counted, and reported for the suite of the bay it came from, or
to management only. -/
def State.violation (s : State) (b side origin : Nat) : State :=
  let s := s.updBay b (fun y => { y with violCount := satAdd y.violCount 1, viol := y.viol ||| BitVec.ofNat 4 (2 ^ side) })
  let s := s.countBay b 0x102 1
  match (s.bay origin).owner with
  | some i => s.suiteError 4 (s.part.toNat * 2 ^ 48 + bayRegAddr b 0x40) side (.bay (bayId b)) (some i.val)
  | none => s.report 5 4 0 (s.part.toNat * 2 ^ 48 + bayRegAddr b 0x40) side (.bay (bayId b)) none

end Sys2Proof.Machine
end

