-- ==== Sys2Proof/Machine/Mailbox.lean ====
section
/-!
DEFINITION. The Pyrno mailbox beneath its commands (R501–R512, R518–R520): rings, completions, the checks that every command meets, and
the state changes of suites and of the device (Tables 14.12, 14.13).
-/

namespace Sys2Proof.Machine

/-! ### Rings -/

/-- A function's command ring, or its completion ring. -/
def State.ring (s : State) (f : HostFn) (cpl : Bool) : Ring := sget {} s.mbox.rings (2 * fnIx f + b2n cpl)
def State.setRing (s : State) (f : HostFn) (cpl : Bool) (r : Ring) : State :=
  { s with mbox := { s.mbox with rings := sset s.mbox.rings (2 * fnIx f + b2n cpl) r } }

/-- Entries of a ring (R501). -/
def ringSize (r : Ring) : Nat := 2 ^ r.log2size.toNat

/-- Entries of a function's completion ring that hold a completion or are reserved for one, by the commands that it has taken (R502, R503). -/
def ringUsed (s : State) (f : HostFn) : Nat :=
  let r := s.ring f true
  (r.tail.toNat + ringSize r - r.head.toNat % ringSize r) % ringSize r + s.mbox.taken.countP (fun t => t.fn == f && !t.lost)

/-- The posted writes of some bytes: 512 bytes of payload each at most (R490). -/
def payloads (f : HostFn) (addr : Nat) (bytes : List Byte) : List DmaWrite :=
  (List.range (cdiv bytes.length 512)).map (fun k => ⟨f, addr + 512 * k, (bytes.drop (512 * k)).take 512⟩)

/-- A device DMA write to host memory, and a read of n bytes (R490, R492): 4,096 bytes a request at most. -/
def State.dmaWrite (s : State) (f : HostFn) (addr : Nat) (bytes : List Byte) : State :=
  { s with out := { s.out with dma := s.out.dma ++ payloads f addr bytes } }
def State.dmaRead (s : State) (f : HostFn) (addr n : Nat) : State :=
  { s with out := { s.out with reads := s.out.reads ++ (List.range (cdiv n 4096)).map (fun k => ⟨f, addr + 4096 * k, min 4096 (n - 4096 * k)⟩) } }

/-! ### Completions -/

/-- What a command answers: STATUS, ALREADY, SCOPE and STATE of a WRONG_STATE, and the RESULT bytes from byte 8 on (Table 14.9). -/
structure Reply where
  status : Nat
  already : Bool := false
  scope : Nat := 0
  code : Nat := 0
  result : List Byte := []
  deriving DecidableEq, Repr

/-- OK with RESULT bytes. -/
def okReply (result : List Byte) : Reply := { status := 0, result := result }
/-- OK with ALREADY (R520). -/
def already : Reply := { status := 0, already := true }

/-- The version of a command's session: 3.2 on a fast ring (R508). -/
def State.versionOf (s : State) (t : Taken) : Nat :=
  match t.fn, t.version with
  | .pf, some v => v.toNat
  | .pf, none => ((s.mbox.sessions.find? (fun e => e.1 == t.session.toNat)).map (fun e => e.2.version.toNat)).getD 0x0302
  | .vf _, _ => 0x0302

/-- Commands of sessions that end keep the version of their session (R507). -/
def State.keepVersions (s : State) (ends : Taken → Bool) : State :=
  { s with mbox := { s.mbox with taken := s.mbox.taken.map (fun t => if ends t then { t with version := some (BitVec.ofNat 16 (s.versionOf t)) } else t) } }

/-- A status that 2.x does not define (R510). -/
def newStatus (st : Nat) : Bool :=
  st == 0x0B || st == 0x0D || (decide (0x10 ≤ st) && decide (st ≤ 0x20)) || (decide (0x4E ≤ st) && decide (st ≤ 0x50))

/-- The reply as a session of version v sees it (R510). -/
def replyFor (v : Nat) (r : Reply) : Reply :=
  if v < 0x0300 ∧ newStatus r.status then { r with status := 4, result := slice r.result 0 22 ++ leBytes 2 r.status } else r

/-- The 32 bytes of a completion entry (Table 14.9). -/
def completionBytes (t : Taken) (phase : Bool) (r : Reply) : List Byte :=
  leBytes 2 t.cmdId.toNat ++ leBytes 2 r.status ++ [BitVec.ofNat 8 (b2n r.already + 2 * r.scope + 128 * b2n phase), BitVec.ofNat 8 r.code]
    ++ leBytes 2 t.session.toNat ++ slice r.result 0 24

/-- A command completes (R503, R504): its entry is written and TAIL advances. A command of a function that was reset, or whose completion
ring is no longer enabled, completes without an entry (R494). -/
def State.finish (s : State) (t : Taken) (r : Reply) : State :=
  let r := replyFor (s.versionOf t) r
  let s := { s with mbox := { s.mbox with taken := s.mbox.taken.filter (fun e => e.ticket != t.ticket) } }
  let q := s.ring t.fn true
  if t.lost ∨ !q.enable then s else
  let next := (q.tail.toNat + 1) % ringSize q
  let s := s.dmaWrite t.fn (q.addr.toNat * 4096 + 32 * q.tail.toNat) (completionBytes t q.phase r)
  let s := s.setRing t.fn true { q with tail := BitVec.ofNat 16 next, phase := if next = 0 then !q.phase else q.phase }
  if t.noint then s else s.msix t.fn 0

/-! ### State changes of suites and of the device -/

/-- State code of a suite (Table 14.13a). -/
def suiteCode : SuiteState → Nat
  | .none => 0
  | .empty => 1
  | .loaded => 2
  | .running => 3
  | .stopped => 4
  | .faulted => 5

/-- State code of the device (Table 14.12a). -/
def deviceCode : DeviceState → Nat
  | .off => 0
  | .maceration => 1
  | .safe => 2
  | .ready => 3
  | .active => 4
  | .draining => 5

/-- The device enters a state, which raises PF vector 2 (Table 14.14). -/
def State.setDevState (s : State) (d : DeviceState) : State :=
  if s.devState = d then s else { s with devState := d }.msix .pf 2

/-- Whether a suite is RUNNING. -/
def anyRunning (s : State) : Bool := s.suites.any (fun e => e.2.state == .running)

/-- READY and ACTIVE follow the suites (Table 14.12). -/
def State.settleActive (s : State) : State :=
  if s.devState = .ready ∨ s.devState = .active then s.setDevState (if anyRunning s then .active else .ready) else s

/-- A held lease breaks (Table 18.11). -/
def breakLease (l : Lease) : Lease := if l.held then { l with held := false, broken := true } else l

/-- Index of a lease. -/
def leaseIx (kind index : Nat) : Nat := 65536 * kind + index

/-- A suite enters a state, which raises PF and VF vector 3 (Table 14.14); its lease breaks at FAULTED and NONE (R612). -/
def State.setSuiteState (s : State) (i : Nat) (st : SuiteState) : State :=
  if (s.suite i).state = st then s else
  let s := s.updSuite i (fun u => { u with state := st })
  let k := leaseIx 2 i
  let s := if (st = .faulted ∨ st = .none) ∧ (sget {} s.mbox.leases k).held then
      { s with mbox := { s.mbox with leases := supd {} s.mbox.leases k breakLease } }
    else s
  ((s.msix .pf 3).msix (vfOf i) 3).settleActive

/-- Nominal VCORE of a step, in 10 mV (Table 15.4). -/
def stepVcore (step : BitVec 2) : Byte := if step = 0 then 62 else if step = 1 then 68 else if step = 2 then 75 else 82

/-- The bays of a suite take a power state (R530): ON needs a new lock; ASLEEP retains at 0.3 V. -/
def State.suitePower (s : State) (i : Nat) (p : BayState) : State :=
  let step := (s.suite i).freq.current
  (suiteBays s i).foldl (fun s b => s.updBay b (fun y =>
    if p = .on then (if y.power = .on then { y with step := step } else { y with power := .on, step := step, lock := false })
    else { y with power := p, lock := false, ramping := false, step := 0, vcore := if p = .asleep then 30 else 0 })) s

/-- Bits of a command's parameters: n bytes from byte i of the entry (Table 14.11). -/
def param (t : Taken) (i n : Nat) : Nat := leAt t.params i n

/-- The SUITE_STOP commands that wait for a suite are answered. -/
def State.answerStops (s : State) (i : Nat) (r : Reply) : State :=
  (s.mbox.taken.filter (fun t => t.running && t.opcode == 0x0015 && param t 8 1 == i)).foldl (fun s t => s.finish t r) s

/-- A suite stops at a boundary (Table 14.13): its bays go ASLEEP and SUITE_STOP completes. -/
def State.stopSuite (s : State) (i : Nat) : State :=
  let s := s.updSuite i (fun u => { u with stopping := false })
  (((s.setSuiteState i .stopped).suitePower i .asleep)).answerStops i (okReply [])

/-! ### Checks that every command meets -/

/-- The opcodes of Table 14.11 with the version that introduced them. -/
def cmdSince (op : Nat) : Option Nat :=
  if [0x01, 0x02, 0x03, 0x12, 0x13, 0x14, 0x15, 0x20, 0x21, 0x33, 0x60, 0x70].contains op then some 0x0200
  else if [0x10, 0x11, 0x30, 0x31, 0x34, 0x40, 0x41, 0x42, 0x43, 0x50, 0x51].contains op then some 0x0300
  else if op = 0x32 then some 0x0301
  else if op = 0x52 ∨ op = 0x53 then some 0x0302
  else none

/-- The suite that a command targets (R505). -/
def cmdSuite (t : Taken) : Option Nat :=
  let op := t.opcode.toNat
  match t.fn with
  | .vf s => if op = 0x20 ∨ op = 0x21 then some s.val else none
  | .pf =>
    if [0x11, 0x12, 0x13, 0x14, 0x15, 0x20, 0x21, 0x31, 0x32].contains op then some (param t 8 1)
    else if op = 0x30 ∧ param t 8 1 = 1 then some (param t 9 1)
    else if op = 0x60 ∧ param t 8 1 = 2 then some (param t 9 1)
    else if op = 0x33 ∧ param t 8 1 ≠ 0xFF then some (param t 8 1)
    else none

/-- The loader's commands, which run one at a time (R505). -/
def isLoader (t : Taken) : Bool := [0x10, 0x11, 0x12, 0x13].contains t.opcode.toNat

/-- Device-targeted commands that run one at a time (R505). -/
def isSerial (t : Taken) : Bool :=
  (cmdSuite t).isNone && (cmdSince t.opcode.toNat).isSome && !([0x01, 0x02, 0x03, 0x60, 0x33].contains t.opcode.toNat)

/-- DEVICE_RESET MODE 0, which a drain executes (Table 14.12b). -/
def isWarm (t : Taken) : Bool := t.opcode == 0x0070 && param t 8 1 == 0

/-- Whether a taken command may start (R505). -/
def mayStart (s : State) (t : Taken) : Bool :=
  let before := s.mbox.taken.filter (fun e => decide (e.ticket < t.ticket))
  !t.running
    && !before.any (fun e => e.fn == t.fn && !e.running)
    && !(isLoader t && before.any isLoader)
    && !before.any (fun e => e.fn == t.fn && (cmdSuite t).isSome && cmdSuite e == cmdSuite t)
    && !(isSerial t && !isWarm t && before.any isSerial)

/-- The commands that go on after they have started: IMAGE_LOAD, and submissions and cancellations that wait for a commit (R515). -/
def goesOn (t : Taken) : Bool := t.running && [0x12, 0x20, 0x21].contains t.opcode.toNat

/-- The taken command of a ticket, of an opcode and variant, that may start or go on. -/
def startable (s : State) (ticket op : Nat) (sel : Taken → Bool) : Option Taken :=
  (s.mbox.taken.find? (fun t => t.ticket == ticket && t.opcode.toNat == op && sel t)).bind (fun t => if mayStart s t || goesOn t then some t else none)

/-- Whether a device state executes a command (Table 14.12b). -/
def stateExecutes (s : State) (t : Taken) : Bool :=
  let op := t.opcode.toNat
  let basic := [0x01, 0x02, 0x03, 0x60].contains op
  match s.devState with
  | .off => false
  | .maceration => basic
  | .safe => basic || [0x40, 0x41, 0x42].contains op || isWarm t
  | .ready => true
  | .active => true
  | .draining => basic || op == 0x33 || isWarm t || (op == 0x70 && param t 8 1 == 2 && s.quiesced)

/-- Whether another session holds a lease. -/
def leasedAway (s : State) (t : Taken) (kind index : Nat) : Bool :=
  let l := sget {} s.mbox.leases (leaseIx kind index)
  l.held && t.fn == .pf && l.session != t.session

/-- A session that is open (R508). -/
def sessionOpen (s : State) (t : Taken) : Bool := s.mbox.sessions.any (fun e => e.1 == t.session.toNat)

/-- Bytes of a command entry that carry a parameter, with their bits: n whole bytes from byte i on. -/
def whole (i n : Nat) : List (Nat × Nat) := (List.range n).map (fun k => (i + k, 255))

/-- Whether the reserved bits of a command entry are 0 (Table 14.8). -/
def reservedClear (t : Taken) (used : List (Nat × Nat)) : Bool :=
  (List.range 56).all (fun k =>
    let b := param t (8 + k) 1
    let m := ((used.find? (fun u => u.1 == 8 + k)).map (·.2)).getD 0
    b &&& (255 - m) == 0)
  && param t 2 1 / 2 == 0 && param t 3 1 == 0

/-- The checks before a command's own, in order (DESIGN CHOICE, log 41): ring, session, version, exclusive lease, device state, suite lease,
reserved bits. none: it goes on. -/
def gate (s : State) (t : Taken) (used : List (Nat × Nat)) : Option Reply :=
  let op := t.opcode.toNat
  let v := s.versionOf t
  let since := (cmdSince op).getD 0
  if t.fn ≠ .pf ∧ op ≠ 0x20 ∧ op ≠ 0x21 then some { status := 3 }
  else if t.fn = .pf ∧ !t.lost ∧ op ≠ 1 ∧ op ≠ 2 ∧ !sessionOpen s t then some { status := 5 }
  else if op ≠ 1 ∧ t.fn = .pf ∧ v < since then some { status := 3 }
  else if leasedAway s t 0 0 ∧ !([0x01, 0x02, 0x03, 0x60, 0x33].contains op) then some { status := 0x0A }
  else if !stateExecutes s t then some { status := 1, scope := 0, code := deviceCode s.devState }
  else if (match cmdSuite t with
    | some i => leasedAway s t 2 i
    | none => false) then some { status := 0x0A }
  else if !reservedClear t used ∨ ((op = 1 ∨ t.fn ≠ .pf) ∧ t.session ≠ 0) then some { status := 4 }
  else none

/-- STATUS of an opcode that Table 14.11 does not list (R508, R510, Table 14.10): as of any command that its ring, its session or a lease
refuses, else BAD_OPCODE. -/
def unlistedStatus (s : State) (t : Taken) : Nat :=
  if t.fn ≠ .pf then 3 else if !t.lost ∧ !sessionOpen s t then 5 else if s.versionOf t < 0x0300 then 3 else if leasedAway s t 0 0 then 0x0A else 2

/-- A command row: the taken entry of its ticket starts, when it may, meets the common checks, and has its effect; or it goes on. -/
def runCommand (s : State) (ticket op : Nat) (sel : Taken → Bool) (used : Taken → List (Nat × Nat)) (run : Taken → State → State) : State :=
  match startable s ticket op sel with
  | none => s
  | some t =>
    match if t.running then none else gate s t (used t) with
    | some r => s.finish t r
    | none => run t s

/-- The command waits for an event before it completes. -/
def State.keepRunning (s : State) (t : Taken) : State :=
  { s with mbox := { s.mbox with taken := s.mbox.taken.map (fun e => if e.ticket = t.ticket then { e with running := true } else e) } }

/-- NO_SUITE or WRONG_STATE of a suite command (R519); none: the suite is in one of the states. -/
def suiteGate (s : State) (i : Nat) (ok : List SuiteState) : Option Reply :=
  if 32 ≤ i ∨ (s.suite i).state = .none then some { status := 8 }
  else if ok.contains (s.suite i).state then none
  else some { status := 1, scope := 1, code := suiteCode (s.suite i).state }

end Sys2Proof.Machine
end

