-- ==== Sys2Proof/Machine/Tracks.lean ====
section
/-!
DEFINITION. Flits on tracks (R253–R269): arrival in an input FIFO, the route table's phases, landing frames (R260, R637), and the
message router (R374–R376).
-/

namespace Sys2Proof.Machine

/-- A track error of a cell (R269): a bit of TRACK_STATUS and a suite error, whose INFO is the track 4 × port + track. -/
def State.trackError (s : State) (c code j : Nat) : State :=
  (s.updCell c (fun x =>
    let p := j / 4
    let x := if code = 1 then x.count 0x04B 1 else x
    { x with trk := if code = 1 then { x.trk with underrun := setPortBit x.trk.underrun p }
                    else if code = 2 then { x.trk with overrun := setPortBit x.trk.overrun p }
                    else { x.trk with uncorr := setPortBit x.trk.uncorr p } })).suiteError
    code (spadAddr s c 0) j (.cell (cellId c)) (cellSuite (s.cell c))

/-- One router message fewer is on its way to a port. -/
def Cell.came (x : Cell) (port : Nat) : Cell := { x with trk := { x.trk with coming := supd 0 x.trk.coming port (· - 1) } }

/-- The strips of remote writes whose landing frames go before their slots, by the headers among some flits that go (R402): lost, with
the reason for a cell that is not RUNNING or HELD, or of a landing discarded (DESIGN CHOICE, log 95). -/
def State.loseFlits (s : State) (reason : Nat) (fs : List Flit) : State := fs.foldl (fun s f => s.decideStrip f.strip (some reason)) s

/-- The flits that are on a cell's wires, in its FIFOs and in its landing frames. -/
def strayFlits (x : Cell) : List Flit :=
  x.trk.wires.flatMap (fun e => e.2) ++ x.trk.fifos.flatMap (fun e => e.2) ++ x.trk.frames.flatMap (fun e => e.2.filterMap id)
    ++ x.trk.landings.map (fun l => l.header)

/-- The strips of remote writes that are on their way in a cell are lost with it: no RUNNING or HELD cell will take them (R402, R459; log 95). -/
def State.loseCell (s : State) (c : Nat) : State := s.loseFlits 9 (strayFlits (s.cell c))

/-- A flit leaves on an output track (R264, R285): to the neighbour's wire, to the spine, or into the first CLOSED half, which counts those
that are VALID. -/
def State.sendFlit (s : State) (c j : Nat) (f : Flit) : State :=
  let s := if f.valid then s.updCell c (fun x => x.count 0x048 1) else s
  if j ≥ 16 then
    let s := s.loseFlits 5 [f]
    (if f.valid then s.updCell c (fun x => { x with trk := { x.trk with outlets := supd [] x.trk.outlets j (· ++ [(x.seq.cyc, f)]) } }) else s)
  else
    let b := cellBay c
    let stopped := if f.valid then (s.violation b (j / 4) b).loseFlits 5 [f] else s
    match neighbour c (j / 4) with
    | none => stopped
    | some n =>
      if cellBay n ≠ b ∧ !(s.bay b).iso.getLsbD (j / 4) then stopped
      else
        s.updCell n (fun y => { y with trk := { y.trk with wires := supd [] y.trk.wires (4 * facing (j / 4) + j % 4) (· ++ [f]) } })

/-- Whether a cell's route table acts (R263): not from DRYDOWN's issue until commit, whatever the cell meets, nor outside schedule time (R258). -/
def tracksAct (x : Cell) : Bool :=
  !x.seq.dried && (x.state == .running || x.state == .halted || x.state == .faulted)

/-- FLIT_RECEIVE (R256, R266, R268, R285): the oldest flit on an input track's wire reaches its FIFO. An idle flit of an acting entry takes
an entry there as a VALID one does, so that each pop meets the flit scheduled for it; where the FIFO is full or the route table does not
act, it goes (DEDUCED, log 22). -/
def execFlitReceive (c : CellId) (port : Fin 5) (track : Fin 4) (err : FlitErr) (s : State) : Host.Outcome State Fault Refusal :=
  let j := 4 * port.val + track.val
  match sget [] (s.cell c.val).trk.wires j with
  | [] => .next s
  | f :: rest =>
    let s := s.updCell c.val (fun x => { x with trk := { x.trk with wires := sset x.trk.wires j rest } })
    let b := cellBay c.val
    let closed : Bool := match neighbour c.val port.val with
      | some n => cellBay n != b && !(s.bay b).iso.getLsbD port.val
      | none => false
    let origin := (neighbour c.val port.val).map cellBay
    let gone := fun (s : State) => (if track.val = 2 then s.updCell c.val (fun x => x.came port.val) else s).loseFlits 5 [f]
    if closed then .next (if f.valid then gone (s.violation b port.val (origin.getD b)) else s) else
    let suite := cellSuite (s.cell c.val)
    let (f, s) : Flit × State := match err with
      | .none => (f, s)
      | .corrected => (f, (s.updCell c.val (fun x => { (x.count 0x04A 1) with trk := { x.trk with corr := satAdd x.trk.corr 1 } })).corrected 2
          (spadAddr s c.val 0) (.cell c) suite)
      | .uncorrectable seen => ({ f with data := seen, void := true }, s.trackError c.val 3 j)
    let q := sget [] (s.cell c.val).trk.fifos j
    if !f.valid ∧ (8 ≤ q.length ∨ !tracksAct (s.cell c.val)) then .next s
    else if q.length < 8 then
      .next (s.updCell c.val (fun x => { x with trk := { x.trk with fifos := sset x.trk.fifos j (q ++ [f]) } }))
    else
      .next (gone ((s.updCell c.val (fun x => { x with trk := { x.trk with
        fifoBad := if x.trk.fifoBad.contains j then x.trk.fifoBad else j :: x.trk.fifoBad } })).trackError c.val 2 j))

/-! ### Landing frames -/

/-- A landing frame is complete (R260, R637): its strip waits for the landing slot in the next cycle, unless its header is missing or
VOID or its run is not of five entries. -/
def State.endFrame (s : State) (c j octant : Nat) (fs : List (Option Flit)) : State :=
  let x := s.cell c
  let gone := fun (s : State) => s.loseFlits 5 (fs.filterMap id)
  let bad := gone (s.suiteError 6 (spadAddr s c 0) j (.cell (cellId c)) (cellSuite x))
  match fs with
  | some h :: data =>
    if data.length ≠ 4 then bad
    else if h.void then gone (s.trackError c 3 j)
    else
      let s := (if data.all (·.isSome) then s else s.trackError c 1 j).loseFlits 5 (data.filterMap id)
      s.updCell c (fun x => { x with trk := { x.trk with landings := x.trk.landings ++ [⟨octant, x.obs.wall + 1, h, data⟩] } })
  | _ => if fs.length ≠ 5 || fs.any (·.isSome) then bad else s

/-- A flit, or none, that an entry with ACT 2 has popped (R260, R637). -/
def State.landEntry (s : State) (c j e : Nat) (f : Option Flit) : State :=
  let x := s.cell c
  let f := f.filter (·.valid)
  let first := nbit e 10
  let last := nbit e 9
  let open_ := sget [] x.trk.frames j
  if !first && open_.isEmpty then
    (if f.isSome then (s.suiteError 6 (spadAddr s c 0) j (.cell (cellId c)) (cellSuite x)).loseFlits 5 f.toList else s)
  else
    let fs := if first then [f] else if open_.length < 6 then open_ ++ [f] else open_
    let s := s.loseFlits 5 (if first then open_.filterMap id else if open_.length < 6 then [] else f.toList)
    let keep := fun (v : List (Option Flit)) => s.updCell c (fun x => { x with trk := { x.trk with frames := sset x.trk.frames j v } })
    if last then (keep []).endFrame c j (nbits e 11 3) fs else keep fs

/-! ### Channels -/

/-- A popped flit enters a receive channel, or the queue that the channel is bound to (R366, R367, R369). -/
def State.pushRecv (s : State) (c ch : Nat) (f : Flit) : State :=
  let s := s.loseFlits 5 [f]
  let f := { f with strip := none }
  let x := s.cell c
  match x.bound ch with
  | some q =>
    let m := if f.void then bareMessage 3 else f.data
    let s := s.setCell c { x with trk := { x.trk with arrivals := x.trk.arrivals ++ [⟨.rxChannel, q, m, none⟩] } }
    if f.void then s.suiteError 9 (spadAddr s c 0) q (.cell (cellId c)) (cellSuite x) else s
  | none =>
    let l := sget [] x.trk.recvCh ch
    if l.length < 20 then s.setCell c { x with trk := { x.trk with recvCh := sset x.trk.recvCh ch (l ++ [f]) } }
    else
      let s := s.setCell c { x with trk := { x.trk with
        recvBad := if x.trk.recvBad.contains ch then x.trk.recvBad else ch :: x.trk.recvBad } }
      match x.channelPort c false ch with
      | some p => s.trackError c 2 (4 * p)
      | none => s

/-- A flit popped from a send channel for an output track (R366, R367). -/
def State.popSend (s : State) (c ch : Nat) : Option Flit × State :=
  let x := s.cell c
  match sget [] x.trk.sendCh ch with
  | [] => (none, s)
  | f :: r =>
    (some { f with void := f.void || x.trk.sendBad.contains ch }, s.setCell c { x with trk := { x.trk with sendCh := sset x.trk.sendCh ch r } })

/-! ### The route table -/

/-- The phase of a cell's present cycle: its place in the beat (R258, R273). -/
def State.phase (s : State) (u : Suite) (x : Cell) : Nat :=
  if x.held then s.now / cycleLen u.freq.current % 16 else x.seq.cyc % 16

/-- Whether input entry e of track j pops its own FIFO (R259, R261, R262, R374). -/
def pops (x : Cell) (j e : Nat) : Bool :=
  let act := nbits e 14 2
  (act == 1 && !x.inLanding j && !(j % 4 == 2 && nbits e 6 3 == 7 && ((sget [] x.trk.fifos j).head?.map (·.valid)).getD false
    && decide (2 ≤ (sget [] x.trk.router (j / 4)).length))) || act == 2

/-- Output entry e of track j sends (R259, R262). -/
def sends (c j e : Nat) : Bool :=
  nbit e 15 && (nbits e 13 2 == 1 || (nbits e 13 2 == 0 && hasTrack false c (4 * nbits e 10 3)) || (nbits e 13 2 == 2 && j % 4 == 2))

/-- The flits that a phase pops: FIFO number and flit, VOID after an overrun (R268). -/
def headsOf (x : Cell) (js : List Nat) : SMap Flit :=
  (List.range 20).filterMap (fun j =>
    if js.contains j then
      (sget [] x.trk.fifos j).head?.map (fun f => (j, { f with void := f.void || x.trk.fifoBad.contains j }))
    else none)

/-- An idle flit (R255). -/
def idleFlit : Flit := ⟨0, false, false, false, none⟩

/-- One output entry acts with the popped flits (R259, R267, R367). One of the message router sends its message when ROUTER_FORWARD has
given it one in this cycle, and otherwise an idle flit (R267). -/
def State.actOutput (s : State) (c : Nat) (heads : SMap Flit) (je : Nat × Nat) : State :=
  let (j, e) := je
  if nbits e 13 2 = 2 then
    (if (s.cell c).trk.routed.any (fun r => r.1 == j / 4 && r.2 == (s.cell c).obs.wall) then s else s.sendFlit c j idleFlit) else
  let (f, s) := if nbits e 13 2 = 0 then ((heads.find? (fun h => h.1 == 4 * nbits e 10 3 + nbits e 8 2)).map (fun h => h.2), s)
    else s.popSend c (nbits e 5 3)
  match f with
  | some f => s.sendFlit c j f
  | none =>
    if (s.cell c).outLanding j then s.sendFlit c j idleFlit else
    let (v, s) := s.voidFlit
    (s.trackError c 1 j).sendFlit c j v

/-- One input entry acts with the popped flits (R259, R260, R267, R374). -/
def State.actInput (s : State) (c : Nat) (heads : SMap Flit) (je : Nat × Nat) : State :=
  let (j, e) := je
  let f := (heads.find? (fun h => h.1 == j)).map (·.2)
  if nbits e 14 2 = 2 then s.landEntry c j e f else
  let ch := nbits e 6 3
  if j % 4 = 2 ∧ ch = 7 then
    match f.filter (·.valid) with
    | some f => (s.loseFlits 5 [f]).updCell c (fun x => { (x.came (j / 4)) with trk := { (x.came (j / 4)).trk with router := supd [] x.trk.router (j / 4) (· ++ [f.data]) } })
    | none => s
  else
    match f with
    | some f => if f.valid then s.pushRecv c ch f else s
    | none =>
      let (v, s) := s.voidFlit
      (s.trackError c 1 j).pushRecv c ch v

/-- The output and input entries of phase ph with their tracks and words (Tables 7.1–7.3). -/
def Cell.outsOf (x : Cell) (c ph : Nat) : List (Nat × Nat × Nat) :=
  (List.range 20).filterMap (fun j => if hasTrack true c j then some (j, 0x800 + (16 * j + ph) / 2, x.outEntry (16 * j + ph)) else none)
def Cell.insOf (x : Cell) (c ph : Nat) : List (Nat × Nat × Nat) :=
  (List.range 20).filterMap (fun j => if hasTrack false c j then some (j, 0x8A0 + (16 * j + ph) / 2, x.inEntry (16 * j + ph)) else none)

/-- The tracks of the output entries of phase ph that would act but for a word that fails its parity: they send an idle flit (R92). OUT_LANDING
and IN_LANDING are read in every cycle that reads an entry, and a failing one stops all entries of its direction (DESIGN CHOICE, log 92). -/
def Cell.outsFailed (x : Cell) (c ph : Nat) : List Nat :=
  ((x.outsOf c ph).filter (fun e => (x.parityBad e.2.1 || x.parityBad 0x940) && sends c e.1 e.2.2 && (!x.held || x.outLanding e.1))).map (·.1)

/-- The entries that act in phase ph: not those whose word fails its parity (R92), and in a hold only those of landing tracks (R276). -/
def Cell.outsActing (x : Cell) (c ph : Nat) : List (Nat × Nat) :=
  ((x.outsOf c ph).filter (fun e => !x.parityBad e.2.1 && !x.parityBad 0x940 && sends c e.1 e.2.2 && (!x.held || x.outLanding e.1))).map (fun e => (e.1, e.2.2))
def Cell.insActing (x : Cell) (c ph : Nat) : List (Nat × Nat) :=
  ((x.insOf c ph).filter (fun e => !x.parityBad e.2.1 && !x.parityBad 0x941 && pops x e.1 e.2.2 && (!x.held || x.inLanding e.1))).map (fun e => (e.1, e.2.2))

/-- The FIFOs that some entries name: each is popped once (R259). -/
def namedFifos (outs ins : List (Nat × Nat)) : List Nat :=
  (outs.filter (fun e => nbits e.2 13 2 == 0)).map (fun e => 4 * nbits e.2 10 3 + nbits e.2 8 2) ++ ins.map (·.1)

/-- The present phase of a cell's route table (R259, R275, R276, R92). The OUT_LANDING and IN_LANDING words are read in every cycle of a table that
acts, whether it has entries or not (DESIGN CHOICE, log 92). -/
def State.runPhase (s : State) (c : Nat) (u : Suite) : State :=
  let x := s.cell c
  let ph := s.phase u x
  let bad := ((x.outsOf c ph ++ x.insOf c ph).map (fun (e : Nat × Nat × Nat) => e.2.1) ++ [0x940, 0x941]).find? x.parityBad
  let outs := x.outsActing c ph
  let ins := x.insActing c ph
  let heads := headsOf x (namedFifos outs ins)
  let x := x.count 0x049 (heads.countP (fun h => h.2.valid))
  let x := { x with trk := { x.trk with
    fifos := heads.foldl (fun m h => sset m h.1 ((sget [] m h.1).drop 1)) x.trk.fifos
    phaseDone := some x.obs.wall } }
  let s := s.setCell c x
  let s := outs.foldl (fun s e => s.actOutput c heads e) s
  let s := (x.outsFailed c ph).foldl (fun s j => s.sendFlit c j idleFlit) s
  -- a copy that an entry without landing takes is not the frame's, while another entry sends the flit on
  let copies := heads.map (fun h => if outs.any (fun e => nbits e.2 13 2 == 0 && 4 * nbits e.2 10 3 + nbits e.2 8 2 == h.1)
    then (h.1, { h.2 with strip := none }) else h)
  let s := ins.foldl (fun s e => s.actInput c (if nbits e.2 14 2 = 2 then heads else copies) e) s
  match bad with
  | some k => s.parityFault c 2 (4 * k)
  | none => s

/-- ROUTE_TABLE_PHASE (R259): each cell cycle carries out its phase once; a second one in a cycle is that of the next cycle. -/
def execRouteTablePhase (c : CellId) (s : State) : Host.Outcome State Fault Refusal :=
  match s.runningSuite (s.cell c.val) with
  | none => .next s
  | some u =>
    let len := cycleLen u.freq.current
    let s := if (s.cell c.val).trk.phaseDone = some (s.cell c.val).obs.wall then s.advance ((s.now / len + 1) * len - s.now) else s
    let x := s.cell c.val
    match s.runningSuite x with
    | none => .next s
    | some u => .next (if tracksAct x then s.runPhase c.val u else s)

/-! ### The message router -/

/-- The output port that a message takes from a cell: X first, then Y (R375); 4 is the cell itself. -/
def routePort (c dst : Nat) : Nat :=
  if cellX c < cellX dst then 1 else if cellX dst < cellX c then 3
  else if cellY c < cellY dst then 2 else if cellY dst < cellY c then 0 else 4

/-- Whether schedule cycle t of a cell is an OPEN slot of the main context (R80). -/
def openAt (x : Cell) (t : Nat) : Bool :=
  match x.seq.openNop with
  | some o => decide (o.first ≤ t) && decide (t < o.first + o.n)
  | none => false

/-- Whether a neighbour's router has a free entry for a port, messages on the way to it counted (R375). -/
def routerRoom (y : Cell) (port : Nat) : Bool := decide ((sget [] y.trk.router port).length + sget 0 y.trk.coming port < 2)

/-- Whether the message router of a cell may send on a port k cycles from now (R375): an OPEN slot whose phase gives the port's track 2 to
the router, in which the phase has not been carried out and nothing sent. -/
def routerSlot (x : Cell) (p k : Nat) : Bool :=
  let t := x.seq.cyc + k
  let i := 64 * p + 32 + t % 16
  let e := x.outEntry i
  openAt x t && nbit e 15 && nbits e 13 2 == 2 && !x.parityBad (0x800 + i / 2)
    && x.trk.phaseDone != some (x.obs.wall + k) && !(x.trk.routed.any (fun r => r.1 == p && r.2 == x.obs.wall + k))

/-- ROUTER_FORWARD (R375, R376): the oldest message of a router input goes on: into this cell's queue, or one hop in an OPEN slot. After
DRYDOWN's issue no track acts (R263). -/
def execRouterForward (c : CellId) (input : Fin 5) (s : State) : Host.Outcome State Fault Refusal :=
  let x := s.cell c.val
  if x.state ≠ .running ∨ x.held then .next s else
  match sget [] x.trk.router input.val with
  | [] => .next s
  | m :: rest =>
    let q := mDstQueue m
    let p := routePort c.val (q / 256)
    let take := fun (x : Cell) => { x with trk := { x.trk with router := sset x.trk.router input.val rest } }
    if p = 4 then
      .next (s.updCell c.val (fun x => { take x with trk := { (take x).trk with arrivals := x.trk.arrivals ++ [⟨.router, q % 256, m, none⟩] } }))
    else
      match neighbour c.val p, findBelow 64 (routerSlot x p) with
      | some n, some k =>
        match s.waitCycle c.val (x.seq.cyc + k) with
        | none => .next s
        | some s1 =>
          let y := s1.cell c.val
          if y.state ≠ .running ∨ y.seq.dried ∨ y.held ∨ !routerSlot y p 0 ∨ !routerRoom (s1.cell n) (facing p) then .next s1 else
          let y := take y
          let s2 := s1.setCell c.val { y with trk := { y.trk with routed := sset y.trk.routed p y.obs.wall } }
          let s3 := s2.updCell n (fun z => { z with trk := { z.trk with coming := supd 0 z.trk.coming (facing p) (· + 1) } })
          .next (s3.sendFlit c.val (4 * p + 2) ⟨m, true, false, false, none⟩)
      | _, _ => .next s

end Sys2Proof.Machine
end

