-- ==== Sys2Proof/Machine/Streams.lean ====
section
/-!
DEFINITION. The slots of the memory ports (R326, R329, R338–R341) and the stream contexts: descriptors, reads, delivery as landing
frames, and writes (R343–R360).
-/

namespace Sys2Proof.Machine

/-- Time passes to a slot of a port, whose entry writes then in force are in force. -/
def State.waitSlot (s : State) (port n : Nat) : State :=
  let s := s.waitUntil (25 * n)
  s.updPort port (fun q => settleSlots q n)

/-! ### Contexts -/

/-- The unit of a context in an error record. -/
def ctxUnit : StreamCtx → UnitRef
  | .se e c => .stream e c
  | .gacon g _ => .gaconPort g 0

/-- Local address of a context's CTX_STATUS register. -/
def ctxAddr : StreamCtx → Nat
  | .se e c => 0x022000000000 + e.val * 2 ^ 16 + 0x3000 + 8 * c.val
  | .gacon g c => 0x023000000000 + g.val * 2 ^ 20 + 0x3000 + 8 * c.val

/-- A context reports ERR (Table 9.9); ERR 1, 2 and 4 are job faults of its suite (Table 16.2). -/
def State.ctxError (s : State) (x : StreamCtx) (err : Nat) (suite : Option Nat) : State :=
  let s := s.updStream x (fun v => { v with err := BitVec.ofNat 4 err })
  let addr := s.part.toNat * 2 ^ 48 + ctxAddr x
  if err = 3 then s.suiteError 15 addr err (ctxUnit x) suite else
  match suite with
  | some i => (s.report 5 15 2 addr err (ctxUnit x) suite).suiteFault i 2 true none none
  | none => s.report 5 15 2 addr err (ctxUnit x) none

/-- Whether a context may begin its next descriptor: the one before has read or written its last tile (R344), and none has stopped it (R347). -/
def canBegin (v : StreamState) : Bool := !v.voided && !v.active && v.err != 1 && v.wcb.isEmpty && v.dropped.isEmpty

/-- A descriptor begins (R344). -/
def beginDesc (v : StreamState) (d : BitVec 512) : StreamState :=
  let n := v.serial + 1
  let gone := v.dlvs.isEmpty
  { v with queue := v.queue.drop 1, active := true, desc := d, serial := n, rdTile := 0, indices := [], idxTiles := 0, taken := 0, wrTile := 0
           dropped := [], tiles := 0
           dlvs := if dWrites d then v.dlvs else v.dlvs ++ [(n, d)]
           dlvTile := if gone then 0 else v.dlvTile, dlvStrip := if gone then 0 else v.dlvStrip }

/-- DESCRIPTOR_START (R344, R345): at the context's first owned slot from START_BEAT on; a descriptor that breaks its table is refused
with ERR 2, and one whose VALID is 0 is not run. -/
def execDescriptorStart (x : StreamCtx) (s : State) : Host.Outcome State Fault Refusal :=
  let v := s.stream x
  match v.queue, s.ctxSuite x with
  | d :: rest, some i =>
    if !canBegin v then .next s else
    let port := ctxPort x
    let gacon := decide (port = 12)
    let slot := match x with
      | .se e c => s.nextSlot port (fun _ n k => match k with
          | some (_, a) => a.toNat == seAgent e.val c.val && decide (slotClass s.repair.split n < 2)
          | none => false)
      | .gacon _ _ => some s.slotNow
    match slot with
    | none => .next s
    | some n =>
      let s := if gacon then s else s.waitSlot port n
      if suiteBeat s i < dStart d then .next s
      else if !nbit d.toNat 0 then .next (s.setStream x { v with queue := rest })
      else if dBad d i port then .next ((s.setStream x { v with queue := rest }).ctxError x 2 (some i))
      else .next (s.setStream x (beginDesc v d))
  | _, _ => .next s

/-! ### Reads -/

/-- What a read of a tile's granules has brought so far. -/
structure TileAcc where
  st : State
  data : List (List Byte)
  granules : SMap GranuleState

/-- An item queued for maintenance on a granule's pseudo-channel. -/
def queueMaint (q : MemPort) (granule : Nat) (i : MaintItem) : MemPort := { q with maint := supd [] q.maint (granule % 64) (· ++ [i]) }

/-- A stack is retired with one of its pseudo-channels (R569): every RUNNING suite with a window in it is suite-fatal. -/
def State.retireStack (s : State) (p : PortId) (pc : Fin 64) : State :=
  let s := s.updPort p.val (fun q => { q with retired := true })
  let s := s.report 8 4 2 0 0 (.memPort p (some pc)) none
  (List.range 32).foldl (fun s i =>
    if (s.suite i).state = .running ∧ (s.suite i).windows.any (fun w => w.stack == p.val) then s.suiteFault i 2 false none none else s) s

/-- An uncorrectable result of granule n: its pseudo-channel is lost when 16 of its banks have given one within 1 ms (R569, Table 9.2). -/
def State.noteUncorr (s : State) (p n : Nat) : State :=
  let q := s.port p
  let pc := n % 64
  let bank := n / 64 % 32
  let l := (q.badBanks.filter (fun e => decide (s.now ≤ e.2.2 + 15000000) && !(e.1 == pc && e.2.1 == bank))) ++ [(pc, bank, s.now)]
  let s := s.setPort p { q with badBanks := l }
  if !q.retired && decide (16 ≤ l.countP (fun e => e.1 == pc)) then s.retireStack (Fin.ofNat 12 p) (Fin.ofNat 64 pc) else s

/-- An uncorrectable granule is final (Table 9.3). -/
def State.finalUncorr (s : State) (p n suite : Nat) : State :=
  let a := p * 2 ^ 36 + n * 64
  (s.updPort p (fun q => { q with uncorr := satAdd q.uncorr 1, eccValid := true, eccAddr := BitVec.ofNat 48 a })).report 4 5 0
    (s.part.toNat * 2 ^ 48 + a) 1 (.memPort (Fin.ofNat 12 p) (some (Fin.ofNat 64 n))) (some suite)

/-- A corrected granule (Table 9.3): counted, logged, and to be written back. -/
def State.fixGranule (s : State) (p n : Nat) (d : List Byte) (suite : Option Nat) : State :=
  let seen := (s.port p).symbols n
  (s.updPort p (fun q => queueMaint { q with corr := satAdd q.corr 1 } n (.writeBack n d seen))).corrected 3
    (s.part.toNat * 2 ^ 48 + p * 2 ^ 36 + n * 64) (.memPort (Fin.ofNat 12 p) (some (Fin.ofNat 64 n))) suite

/-- What the read of a granule brings: its bytes, a wait for its re-read, or VOID. -/
inductive Got where
  | data (bytes : List Byte)
  | wait
  | void
  deriving DecidableEq, Repr

/-- A poison pattern read for a suite (Table 9.3). -/
def State.poisonRead (s : State) (p n suite : Nat) : State :=
  (s.updPort p (fun q => { q with poisonRd := satAdd q.poisonRd 1 })).report 4 6 0 (s.part.toNat * 2 ^ 48 + p * 2 ^ 36 + n * 64) 1
    (.memPort (Fin.ofNat 12 p) (some (Fin.ofNat 64 n))) (some suite)

/-- The first read of granule n for a suite (R329, Table 9.3); again is the item of its re-read. -/
def State.firstRead (s : State) (p n suite : Nat) (again : MaintItem) : Got × State :=
  match (s.port p).granule n with
  | .good d => (.data d, s)
  | .corrected d => (.data d, s.fixGranule p n d (some suite))
  | .poison => (.void, s.poisonRead p n suite)
  | .uncorrectable =>
    let s := s.noteUncorr p n
    if withinAllotment (s.suite suite) 2 then
      (.wait, (s.updPort p (fun q => queueMaint { q with retry := satAdd q.retry 1 } n again)).boundedCause suite 2)
    else (.void, (s.finalUncorr p n suite).updPort p (fun q => queueMaint q n (.scrub n)))

/-- The re-read of granule n, whose result is final (R329). -/
def State.secondRead (s : State) (p n suite : Nat) : Option (List Byte) × State :=
  match (s.port p).granule n with
  | .good d => (some d, s)
  | .corrected d => (some d, s.fixGranule p n d (some suite))
  | .poison => (none, s.poisonRead p n suite)
  | .uncorrectable => (none, ((s.noteUncorr p n).finalUncorr p n suite).updPort p (fun q => queueMaint q n (.poison n false)))

/-- One granule of a stream read (R329). -/
def readGranule (p suite : Nat) (id : ReadId) (base : Nat) (acc : TileAcc) (g : Nat) : TileAcc :=
  match acc.st.firstRead p (base + g) suite (.reread (base + g) id) with
  | (.data d, s) => { acc with st := s, data := acc.data ++ [d] }
  | (.wait, s) => { st := s, data := acc.data ++ [List.replicate 64 0], granules := acc.granules ++ [(g, .retry)] }
  | (.void, s) => { st := s, data := acc.data ++ [List.replicate 64 0], granules := acc.granules ++ [(g, .void)] }

/-- Pseudo-channels whose granule a refresh displaces from slot n of a port (R339). -/
def displaced (q : MemPort) (n : Nat) : List Nat := (q.rfmTaken.filter (fun r => r.1 == n)).map (·.2)

/-- The stack of a port may report errors of its own on-die ECC in a slot (Table 9.10): how many, the spec leaves open (log 1, log 100). -/
def State.stackReports (s : State) (p : Nat) : State :=
  let (r, s) := s.fresh
  s.updPort p (fun q => { q with stackReport := satAdd q.stackReport (r.toNat % 65) })

/-- The tiles of a buffer that are not delivered by a moment. -/
def stillHeld (l : List TileRead) (now : Nat) : List TileRead := l.filter (fun r => r.gone.all (fun t => decide (now < t)))

/-- A tile read in slot n for a suite's context (R326, R329, R339): granules that a refresh displaces wait for maintenance. -/
def State.readTile (s : State) (p suite n : Nat) (id : ReadId) (a : Nat) : State :=
  let base := stackOff a / 4096 * 64
  let out := displaced (s.port p) n
  let acc := (List.range 64).foldl (fun (acc : TileAcc) g =>
    if out.contains g then
      { st := acc.st.updPort p (fun q => queueMaint q (base + g) (.displacedRead (base + g) id))
        data := acc.data ++ [List.replicate 64 0], granules := acc.granules ++ [(g, .retry)] }
    else readGranule p suite id base acc g) ⟨s, [], []⟩
  ((acc.st.updPort p (fun q => { q with reads := stillHeld q.reads s.now ++ [⟨id, n + 48, false, acc.data.flatten, acc.granules, none⟩] })).stackReports p).meterHbm suite

/-- The index array's next tile that the next data tile of a context needs (R348). -/
def needsIndex (v : StreamState) : Bool :=
  let e := (if dWrites v.desc then v.wrTile else v.rdTile) / dElem v.desc
  dIndexed v.desc && !dIdxSp v.desc && decide (e < dCount v.desc 0) && decide (v.idxTiles ≤ e / 1024)

/-- Tiles of a context that are read and, at a moment, not fully delivered (R349). -/
def inBufferOf (l : List TileRead) (x : StreamCtx) (now : Nat) : Nat := ((stillHeld l now).filter (fun r => r.id.ctx == x && !r.id.index)).length

/-- What a context does in an owned read slot. -/
inductive SlotUse where
  | nothing
  | blocked
  | bad (a : Int)
  | index (a : Nat)
  | data (a : Nat)
  deriving DecidableEq, Repr

/-- What a context reads in an owned slot (R347–R349); held: its tiles that are read and not delivered. A descriptor that has ended, or whose
context is voided, still reads the indices of the strips it accepted, for they are written (R358, R360). -/
def readUse (v : StreamState) (held : Nat) (legal : Bool → Int → Option Nat) : SlotUse :=
  let d := v.desc
  let runs := v.active && !v.voided
  if !runs && !(dWrites d && !v.wcb.isEmpty) then .nothing else
  if needsIndex v then
    (let at_ := (dIdx d : Int) + 4096 * v.idxTiles
     match legal false at_ with
     | some a => .index a
     | none => .bad at_)
  else if !runs ∨ dWrites d ∨ dTiles d ≤ v.rdTile then .nothing
  else if dDepth d < held then .blocked
  else match dTileAddr d v.indices v.rdTile with
    | none => .blocked
    | some a => match legal (dKind d == 4) a with
      | some n => .data n
      | none => .bad a

/-- Whether a local address is among the resources of a suite (R36). -/
def ownsLocal (s : State) (i n : Nat) : Bool :=
  match decodeLocal n with
  | .hbm a => inWindow (s.suite i) a
  | .spad c _ => cellSuite (s.cell c) == some i
  | .cell c _ => cellSuite (s.cell c) == some i
  | .barrier b _ => (s.suite i).barBlocks.contains (b / 256)
  | .builder j _ => j == i
  | _ => false

/-- DETAIL of a cell's request for a local address (R36): 1 where nothing is mapped, 2 outside the suite's resources. -/
def requestDetail (s : State) (i : Nat) (a : Int) : Option Nat :=
  if a < 0 ∨ decodeLocal a.toNat = .nowhere then some 1 else if ownsLocal s i a.toNat then none else some 2

/-- The collection cell whose indices ask for a tile at an address of this part that its suite may not address takes the fault of R36. No one
instruction asks for it: the record names the cell's next one (DESIGN CHOICE, log 20). -/
def State.faultAsker (s : State) (x : StreamCtx) (i : Nat) (a : Int) : State :=
  let d := (s.stream x).desc
  let part := if ctxPort x = 12 then (s.part.toNat : Int) else 0
  if !dIndexed d ∨ !dIdxSp d ∨ a / 2 ^ 48 ≠ part then s else
  match requestDetail s i (a % 2 ^ 48) with
  | none => s
  | some k =>
    let c := dIdx d % 2 ^ 12
    s.takeFault c 1 k (a % 2 ^ 48).toNat false (nextAt (s.cell c))

/-- The context stops before an access at an address outside its windows (R347), and a cell that asked for it faults (R36); strips that it
has accepted are still written (R358), but those whose index array is outside, which have no address (log 97). -/
def State.stopContext (s : State) (x : StreamCtx) (i : Nat) (a : Int) : State :=
  ((s.faultAsker x i a).updStream x (fun v =>
    if needsIndex v then { v with active := false, wcb := [], dropped := [] } else { v with active := false })).ctxError x 1 (some i)

/-- A tile more is read: the descriptor is no longer active once its last one is. -/
def countRead (v : StreamState) : StreamState :=
  { v with rdTile := v.rdTile + 1, active := decide (v.rdTile + 1 < dTiles v.desc) }

/-- Whether a stack serves traffic: trained, not retired, not in self-refresh (R533, R569). -/
def stackServes (q : MemPort) : Bool := !q.selfRefresh && !q.retired

/-- What the context does in the next owned read slot of a port (R338, R340, R349). -/
def State.readSlot (s : State) (p : PortId) : State :=
  if !stackServes (s.port p.val) then s else
  match s.nextSlot p.val (fun _ i k => slotClass s.repair.split i == 0 && k.isSome) with
  | none => s
  | some n =>
    let s := s.waitSlot p.val n
    let s := s.updPort p.val (fun q => { q with lastSlot := some n })
    let q := s.port p.val
    match (q.slots.find? (fun e => e.1 == slotIx q n)).map (·.2) with
    | none => s
    | some (su, ag) =>
      let i := su.toNat
      let x := agentCtx p.val ag
      let v := s.stream x
      let idle := fun (s : State) => s.countDev 0x201 p.val 1
      match readUse v (inBufferOf q.reads x s.now) (fun row a => legalTile (s.suite i) p.val row a) with
      | .nothing => (idle s)
      | .blocked => (idle (s.setStream x { v with missed := satAdd v.missed 1 }))
      | .bad a => (idle (s.stopContext x i a))
      | .index a =>
        let s := s.setStream x { v with idxTiles := v.idxTiles + 1 }
        ((s.readTile p.val i n ⟨x, v.serial, true, v.idxTiles⟩ a).countDev 0x200 p.val 1)
      | .data a =>
        let s := s.setStream x (countRead v)
        ((s.readTile p.val i n ⟨x, v.serial, false, v.rdTile⟩ a).countDev 0x200 p.val 1)

/-- The words of an index tile; a VOID granule's are open (log 1). -/
def indexWords (s : State) (r : TileRead) : List W32 × State :=
  (List.range 64).foldl (fun (acc : List W32 × State) g =>
    let gone := r.granules.any (fun e => e.1 == g && e.2 == .void)
    (List.range 16).foldl (fun (acc : List W32 × State) j =>
      if gone then
        let (v, s) := acc.2.fresh
        (acc.1 ++ [v.setWidth 32], s)
      else (acc.1 ++ [BitVec.ofNat 32 (leAt r.data (64 * g + 4 * j) 4)], acc.2)) acc) ([], s)

/-- Index tiles of port p whose granules are all known join their contexts' index values (R348). -/
def State.settleIndex (s : State) (p : Nat) : State :=
  (s.port p).reads.foldl (fun s r =>
    if r.id.index && r.inBuffer && r.granules.all (fun e => e.2 != .retry) && decide ((s.stream r.id.ctx).indices.length = 1024 * r.id.k) then
      let (ws, s) := indexWords s r
      let s := s.updPort p (fun q => { q with reads := q.reads.filter (fun e => e.id != r.id) })
      s.updStream r.id.ctx (fun v => if v.serial = r.id.serial then { v with indices := v.indices ++ ws } else v)
    else s) s

/-- TILE_READ_RETURN (R326): the oldest tile under way is in the return buffer 48 slots after its slot began. -/
def execTileReadReturn (p : PortId) (s : State) : Host.Outcome State Fault Refusal :=
  match (s.port p.val).reads.find? (fun r => !r.inBuffer) with
  | none => .next s
  | some r =>
    let s := s.waitUntil (25 * r.arrives)
    let s := s.updPort p.val (fun q => { q with reads := q.reads.map (fun e => if e.id = r.id then { e with inBuffer := true } else e) })
    .next (s.settleIndex p.val)

/-! ### Delivery -/

/-- The header flit of a context's landing frame (Table 9.8). -/
def streamHeader (d : BitVec 512) (pgen k strip suite sender : Nat) : W256 :=
  landHeader (dAddr d + 4096 * (k % dPanes d) + 128 * strip) (dTarget d) suite (b2n (dProv d)) sender k ||| BitVec.ofNat 256 (pgen * 2 ^ 40)

/-- The five flits of a landing frame; the flits of VOID granules carry VOID, and their data is open (R330). -/
def frameFlits (s : State) (hdr : W256) (prov : Bool) (strip : List Byte) (void : List Nat) : List Flit × State :=
  let (l, s) := (List.range 4).foldl (fun (acc : List Flit × State) j =>
    if void.contains (j / 2) then
      let (f, s) := acc.2.voidFlit
      (acc.1 ++ [{ f with prov := prov }], s)
    else (acc.1 ++ [⟨BitVec.ofNat 256 (leAt strip (32 * j) 32), true, prov, false, none⟩], acc.2)) ([], s)
  (⟨hdr, true, prov, false, none⟩ :: l, s)

/-- A frame reaches the inlet of an injection cell on a track (R32, R353): a foreign suite tag discards it. -/
def State.toInlet (s : State) (cell track suite : Nat) (fs : List Flit) : State :=
  let b := cellBay cell
  if (s.bay b).owner.map (fun o => o.val) ≠ some suite then
    (s.suiteError 5 (spadAddr s cell 0) 0 (.cell (cellId cell)) (some suite)).loseFlits 5 fs
  else
    (s.updCell cell (fun y => { y with trk := { y.trk with wires := supd [] y.trk.wires (16 + track) (· ++ fs) } })).countBay b 0x100 1

/-- The strips of the tile being delivered whose granules wait. -/
def stripKnown (r : TileRead) (strip : Nat) : Bool :=
  r.inBuffer && (List.range (2 * strip + 2)).all (fun g => !r.granules.any (fun e => e.1 == g && e.2 == .retry))

/-- A context's next strip is delivered: the tile, and the descriptor, may end with it. -/
def countStrip (v : StreamState) (d : BitVec 512) : StreamState :=
  if v.dlvStrip < 31 then { v with dlvStrip := v.dlvStrip + 1 }
  else
    let t := v.dlvTile + 1
    let v := { v with dlvStrip := 0, tiles := if v.dlvs.head?.any (fun (e : Nat × BitVec 512) => e.1 == v.serial) then v.tiles + 1 else v.tiles }
    if t < dTiles d then { v with dlvTile := t } else { v with dlvTile := 0, dlvs := v.dlvs.drop 1 }

/-- The return buffer that holds a context's tiles, and the same with a tile removed. -/
def State.ctxReads (s : State) : StreamCtx → List TileRead
  | .se e _ => (s.port (e.val / 8)).reads
  | .gacon g _ => (s.gport g.val).reads
def State.dropRead (s : State) (id : ReadId) : State :=
  match id.ctx with
  | .se e _ => s.updPort (e.val / 8) (fun q => { q with reads := q.reads.filter (fun r => r.id != id) })
  | .gacon g _ => s.updGport g.val (fun q => { q with reads := q.reads.filter (fun r => r.id != id) })

/-- A tile whose last frame is sent: the moment from which it is delivered (R349). -/
def State.endRead (s : State) (id : ReadId) (t : Nat) : State :=
  let mark := fun (l : List TileRead) => l.map (fun r => if r.id = id then { r with gone := some t } else r)
  match id.ctx with
  | .se e _ => s.updPort (e.val / 8) (fun q => { q with reads := mark q.reads })
  | .gacon g _ => s.updGport g.val (fun q => { q with reads := stillHeld (mark q.reads) s.now })

/-- SENDER of a context's landing frames (Table 9.8). -/
def ctxSender : StreamCtx → Nat
  | .se e _ => e.val
  | .gacon g _ => 0x80 + g.val

/-- The cycle of a suite's bays in which a frame scheduled for a beat and phase is placed, 8 cycles before its phase at the earliest and
2 at the latest, with the wall beat of its phase and how far schedule time is there (R353, R355); none while it must wait. now: the present cycle of the
bays. The third value counts the schedule cycles that have begun by then: in a hold, those before the held beat. -/
def frameMoment (v : StreamState) (held : Bool) (now cyc beat phase due schedBeat : Nat) : Option (Nat × Nat × Nat) :=
  let w := now + 2 + (phase + 30 - now % 16) % 16
  let w := if held then w else w + cdiv ((16 * beat + phase) - (cyc + (w - now))) 16 * 16
  let w := if v.frameBeat ≠ beat ∧ w / 16 = v.frameWall then w + 16 else w
  if held ∧ !decide (due < schedBeat) then none
  else some (w - 8, w / 16, if held then 16 * schedBeat else cyc + (w - now) + 1)

/-- PGEN of a context when some schedule cycles have begun (R354): a notice acts in cycle 0 of its beat. -/
def ctxPgen (v : StreamState) (begun : Nat) : Nat := (v.pgen.toNat + (v.notices.filter (fun n => decide (16 * n < begun))).length) % 16

/-- The notices that have taken effect are counted in PGEN (R354). -/
def settlePgen (v : StreamState) (begun : Nat) : StreamState :=
  { v with pgen := BitVec.ofNat 4 (ctxPgen v begun), notices := v.notices.filter (fun n => !decide (16 * n < begun)) }

/-- SPINE_FRAME_SEND (R351–R355): a context's next strip goes to the injection cell as a landing frame. -/
def execSpineFrameSend (x : StreamCtx) (s : State) : Host.Outcome State Fault Refusal :=
  let v := s.stream x
  match v.dlvs, s.ctxSuite x with
  | (serial, d) :: _, some i =>
    let u := s.suite i
    if v.voided ∨ !dReads d ∨ u.state ≠ .running then .next s else
    let id : ReadId := ⟨x, serial, false, v.dlvTile⟩
    match (s.ctxReads x).find? (fun r => r.id == id) with
    | none => .next s
    | some r =>
      if !stripKnown r v.dlvStrip then .next s else
      let ts := dTrackList d
      let f := v.dlvStrip / ts.length
      let track := nth ts (v.dlvStrip % ts.length) 0
      let due := dDue0 d + v.dlvTile * dTileBeats d
      let beat := due + f / dFpb d
      let phase := dPhase d + 5 * (f % dFpb d)
      let len := cycleLen u.freq.current
      let cell := dRowCell d
      match frameMoment v u.hold.held (s.now / len) (s.cell cell).seq.cyc beat phase due (suiteBeat s i) with
      | none => .next s
      | some (n, wall, at_) =>
        let s := s.waitUntil (n * len)
        let void := (List.range 2).filter (fun h => r.granules.any (fun e => e.1 == 2 * v.dlvStrip + h && e.2 == .void))
        let (fs, s) := frameFlits s (streamHeader d (ctxPgen (s.stream x) at_) v.dlvTile v.dlvStrip i (ctxSender x)) (dProv d)
          (slice r.data (128 * v.dlvStrip) 128) void
        let s := if v.dlvStrip < 31 then s else s.endRead id (16 * (wall + 1) * len)
        let now := suitePassed s i
        let s := s.updStream x (fun v => { countStrip (settlePgen v now) d with frameBeat := beat, frameWall := wall })
        .next (s.toInlet cell track i fs)
  | _, _ => .next s

/-! ### Indices and strips from collection cells -/

/-- The flits of outlet track j of a cell in the cycles from t to t + 3, none where the track carried an idle flit. -/
def outletFrame (y : Cell) (j t : Nat) : List (Option Flit) :=
  (List.range 4).map (fun k => ((sget [] y.trk.outlets j).find? (fun e => e.1 == t + k)).map (·.2))

/-- The flits of a frame leave the outlet. -/
def takeOutlet (y : Cell) (j t : Nat) : Cell :=
  { y with trk := { y.trk with outlets := sset y.trk.outlets j ((sget [] y.trk.outlets j).filter (fun e => decide (e.1 < t) || decide (t + 4 ≤ e.1))) } }

/-- The first frame on some outlet tracks that starts at one of some phases from schedule cycle from_ on: its cycle and track. -/
def firstFrame (y : Cell) (tracks phases : List Nat) (from_ : Nat) : Option (Nat × Nat) :=
  let l := tracks.flatMap (fun tr => ((sget [] y.trk.outlets (16 + tr)).filter (fun e => decide (from_ ≤ e.1) && phases.contains (e.1 % 16))).map (fun e => (e.1, tr)))
  l.foldl (fun (b : Option (Nat × Nat)) e => match b with
    | none => some e
    | some f => if e.1 < f.1 ∨ (e.1 = f.1 ∧ e.2 < f.2) then some e else some f) none

/-- A frame that a cell of a foreign bay sends is not taken (R32). -/
def spineTagOk (s : State) (cell suite : Nat) : Bool := (s.bay (cellBay cell)).owner.map (fun o => o.val) == some suite

/-- INDEX_FRAME_RECEIVE (R348): a frame of 32 indices from the named collection cell, outlet track and phase. -/
def execIndexFrameReceive (x : StreamCtx) (s : State) : Host.Outcome State Fault Refusal :=
  let v := s.stream x
  let d := v.desc
  if !v.active ∨ v.voided ∨ !dIndexed d ∨ !dIdxSp d then .next s else
  let cell := dIdx d % 2 ^ 12
  let tr := nbits (dIdx d) 12 2
  match firstFrame (s.cell cell) [tr] [nbits (dIdx d) 16 4] 0, s.ctxSuite x with
  | some (t, _), some i =>
    (match s.waitCycle cell (t + 4) with
     | none => .next s
     | some s =>
       let fs := outletFrame (s.cell cell) (16 + tr) t
       let s := s.updCell cell (fun y => takeOutlet y (16 + tr) t)
       if !spineTagOk s cell i then .next (s.suiteError 5 (spadAddr s cell 0) 0 (.cell (cellId cell)) (some i)) else
       let (ws, s) := fs.foldl (fun (acc : List W32 × State) f =>
         let (f, s) := match f with
           | some f => if f.void then acc.2.voidFlit else (f, acc.2)
           | none => acc.2.voidFlit
         (acc.1 ++ (List.range 8).map (fun k => fld f.data (32 * k) 32), s)) ([], s)
       let s := s.countBay (cellBay cell) 0x101 1
       .next (s.updStream x (fun v => { v with indices := (v.indices ++ ws).take (dCount d 0) })))
  | _, _ => .next s

/-- Strips in the write-combining buffer of an engine (R358). -/
def State.wcbUse (s : State) (x : StreamCtx) : Nat :=
  (List.range 16).foldl (fun n c => n + (s.stream (match x with
    | .se e _ => .se e (Fin.ofNat 16 c)
    | .gacon g _ => .gacon g (Fin.ofNat 16 c))).wcb.length) 0

/-- WRITE_STRIP_TAKE (R357–R359): a write context takes the next frame of its tracks and phases; its strip is accepted, or dropped at
a full buffer. -/
def execWriteStripTake (x : StreamCtx) (s : State) : Host.Outcome State Fault Refusal :=
  let v := s.stream x
  let d := v.desc
  if !v.active ∨ v.voided ∨ !dWrites d ∨ 32 * dTiles d ≤ v.taken then .next s else
  let cell := dRowCell d
  let phases := (List.range (dFpb d)).map (fun j => dPhase d + 4 * j)
  match firstFrame (s.cell cell) (dTrackList d) phases (16 * dDue0 d), s.ctxSuite x with
  | some (t, tr), some i =>
    (match s.waitCycle cell (t + 4) with
     | none => .next s
     | some s =>
       let fs := outletFrame (s.cell cell) (16 + tr) t
       let s := s.updCell cell (fun y => takeOutlet y (16 + tr) t)
       if !spineTagOk s cell i then .next (s.suiteError 5 (spadAddr s cell 0) 0 (.cell (cellId cell)) (some i)) else
       let void := (List.range 2).filter (fun h => (List.range 2).any (fun k => match nth fs (2 * h + k) none with
         | some f => f.void
         | none => true))
       let bytes := fs.flatMap (fun f => leBytes 32 ((f.map (·.data.toNat)).getD 0))
       let tile := v.taken / 32
       let row := v.taken % 32
       let s := s.countBay (cellBay cell) 0x101 1
       if s.wcbUse x < 64 then
         .next (s.updStream x (fun v => { v with taken := v.taken + 1, wcb := v.wcb ++ [⟨tile, row, bytes, void, false⟩] }))
       else
         .next ((s.updStream x (fun v => { v with taken := v.taken + 1, dropped := v.dropped ++ [(tile, row)] })).ctxError x 3 (some i)))
  | _, _ => .next s

/-! ### Writes -/

/-- The tile that a context may write now (R358, R359): the first of those whose strips were taken, accepted or dropped, and are not written;
none while its strips are still to come. -/
def tileReady (v : StreamState) : Option Nat :=
  let ended := !v.active || v.voided || decide (32 * dTiles v.desc ≤ v.taken)
  let tiles := v.wcb.map (fun w => w.tile) ++ v.dropped.map (fun e => e.1)
  match tiles with
  | [] => none
  | a :: l =>
    let t := l.foldl min a
    if ended || tiles.countP (fun k => k == t) == 32 then some t else none

/-- The granules of a tile to be written: bytes, or none for the poison pattern. -/
def tileGranules (v : StreamState) (t : Nat) : List (Nat × Option (List Byte)) :=
  (v.wcb.filter (fun w => w.tile == t)).flatMap (fun w =>
    (List.range 2).map (fun h => (2 * w.row + h, if w.void.contains h then none else some (slice w.bytes (64 * h) 64))))
  ++ (v.dropped.filter (fun e => e.1 == t)).flatMap (fun e => [(2 * e.2, none), (2 * e.2 + 1, none)])

/-- A tile more is written; the descriptor ends with its last one (R344). -/
def countWrite (v : StreamState) (t : Nat) : StreamState :=
  { v with wcb := v.wcb.filter (fun w => w.tile != t), dropped := v.dropped.filter (fun e => e.1 != t), wrTile := t + 1
           tiles := v.tiles + 1, active := v.active && decide (t + 1 < dTiles v.desc) }

/-- One granule of a write: codeword or poison pattern (R333, R357). -/
def storeGranule (q : MemPort) (n : Nat) (d : Option (List Byte)) : MemPort :=
  match d with
  | some b => q.putGranule n b
  | none => q.putPoison n

/-- Granules from base on are stored in slot n of a port; those that a refresh displaces move in the next maintenance slot (R339). item: the
item of a remote WRITE that each granule is. -/
def storeGranules (q : MemPort) (n base : Nat) (item : Nat → Option WriteItem) (gr : List (Nat × Option (List Byte))) : MemPort :=
  let out := displaced q n
  gr.foldl (fun q e =>
    if out.contains ((base + e.1) % 64) then queueMaint q (base + e.1) (.displacedWrite (base + e.1) e.2 (item e.1))
    else storeGranule q (base + e.1) e.2) q

/-- What the context does in the next owned write slot of a port (R338, R358). -/
def State.writeSlot (s : State) (p : PortId) : State :=
  if !stackServes (s.port p.val) then s else
  match s.nextSlot p.val (fun _ i k => slotClass s.repair.split i == 1 && k.isSome) with
  | none => s
  | some n =>
    let s := s.waitSlot p.val n
    let s := s.updPort p.val (fun q => { q with lastSlot := some n })
    let q := s.port p.val
    match (q.slots.find? (fun e => e.1 == slotIx q n)).map (·.2) with
    | none => s
    | some (su, ag) =>
      let i := su.toNat
      let x := agentCtx p.val ag
      let v := s.stream x
      match tileReady v with
      | none => s
      | some t =>
        match dTileAddr v.desc v.indices t with
        -- no index of an ended descriptor is to come from a cell (DESIGN CHOICE, log 97): the tile has no address
        | none => (if (v.active && !v.voided) || !dIdxSp v.desc then s else s.setStream x (countWrite v t))
        | some a =>
          match legalTile (s.suite i) p.val false a with
          | none => ((s.setStream x (countWrite v t)).stopContext x i a)
          | some a =>
            let q := storeGranules q n (stackOff a / 64) (fun _ => none) (tileGranules v t)
            ((((s.setPort p.val q).setStream x (countWrite v t)).meterHbm i).countDev 0x202 p.val 1)

/-- The next owned slot of a suite at a port, of the classes that ok names, that its context leaves idle (R340, R498, R593). -/
def State.idleSlot (s : State) (p i : Nat) (ok : Nat → Bool) : Option Nat :=
  if !stackServes (s.port p) then none else
  s.nextSlot p (fun q n k =>
    let c := slotClass s.repair.split n
    ok c && (match k with
      | none => false
      | some (su, ag) =>
        let x := agentCtx p ag
        let v := s.stream x
        su.toNat == i && (if c = 1 then (tileReady v).isNone
          else [.nothing, .blocked].contains (readUse v (inBufferOf q.reads x (25 * n)) (fun row a => legalTile (s.suite i) p row a)))))

/-- The suite in whose window a local HBM address lies. -/
def windowSuite (s : State) (a : Nat) : Option Nat := findBelow 32 (fun i => inWindowBytes (s.suite i) a)
  where inWindowBytes (u : Suite) (a : Nat) : Bool := u.windows.any (fun w => decide (w.base * 2 ^ 24 ≤ a) && decide (a < (w.base + w.extents) * 2 ^ 24))

/-- A host access to 8 bytes of HBM in slot n of a port (R498). -/
def State.hostSlot (s : State) (p n : Nat) (h : HostWait) : State :=
  let s := (s.waitSlot p n).updPort p (fun q => { q with lastSlot := some n })
  let cls := slotClass s.repair.split (slotIx (s.port p) n)
  let s := s.countDev (if cls = 0 then 0x200 else 0x202) p 1
  match h.value with
  | some v => s.hbmWrite (h.addr / 8 * 8) (leBytes 8 v.toNat)
  | none => s.giveRead (BitVec.ofNat 64 (s.hbmNat (h.addr / 8 * 8) 8))

/-- The oldest host access that waits at a port is served in the next owned slot of its window's suite that its context leaves idle, if one is
in sight (R498); one whose window has gone is unmapped and ends. -/
def State.serveHost (s : State) (p : Nat) : State :=
  match s.mbox.waits.find? (fun h => stackOf h.addr == p) with
  | none => s
  | some h =>
    let done := fun (s : State) => ({ s with mbox := { s.mbox with waits := s.mbox.waits.erase h } } : State)
    match windowSuite s h.addr with
    | none => done (if h.value.isSome then s else s.giveRead (BitVec.ofNat 64 (2 ^ 64 - 1)))
    | some i =>
      match s.idleSlot p i (fun k => decide (k < 2)) with
      | none => s
      | some n => done (s.hostSlot p n h)

/-- READ_SLOT (R338, R340, R349): the next owned read slot of a port; a host access that waits may come after it. -/
def execReadSlot (p : PortId) (s : State) : Host.Outcome State Fault Refusal := .next ((s.readSlot p).serveHost p.val)

/-- WRITE_SLOT (R338, R358): the next owned write slot of a port; a host access that waits may come after it. -/
def execWriteSlot (p : PortId) (s : State) : Host.Outcome State Fault Refusal := .next ((s.writeSlot p).serveHost p.val)

/-! ### Maintenance -/

/-- The place of an item in the order of R338, R339: of one place, the first queued comes first, so displaced granules move in slot order
(R326). -/
def maintRank : MaintItem → Nat
  | .displacedRead _ _ => 0
  | .displacedWrite _ _ _ => 0
  | .displacedFetch _ _ => 0
  | .reread _ _ => 1
  | .rowReread _ _ => 1
  | .poison _ _ => 2
  | .writeBack _ _ _ => 2
  | .rfm => 3
  | .scrub _ => 4

/-- The item that a pseudo-channel serves next, and the rest. -/
def pickMaint (l : List MaintItem) : Option (MaintItem × List MaintItem) :=
  (findBelow 5 (fun r => l.any (fun i => maintRank i == r))).bind (fun r =>
    (l.findIdx? (fun i => maintRank i == r)).bind (fun k => (l[k]?).map (fun i => (i, dropAt l k))))

/-- A granule of a tile under way is known: its data, or VOID. -/
def State.resolve (s : State) (p : Nat) (id : ReadId) (g : Nat) (d : Option (List Byte)) : State :=
  s.updPort p (fun q => { q with reads := q.reads.map (fun r =>
    if r.id = id then
      (match d with
       | some b => { r with data := r.data.take (64 * g) ++ slice b 0 64 ++ r.data.drop (64 * g + 64), granules := r.granules.filter (fun e => e.1 != g) }
       | none => { r with granules := r.granules.map (fun e => if e.1 = g then (g, .void) else e) })
    else r) })

/-- The suite whose window holds a local HBM address. -/
def State.windowSuite (s : State) (a : Nat) : Option Nat := findBelow 32 (fun i => (s.suite i).state != .none && inWindow (s.suite i) a)

/-- A scrub read of a granule (R332). -/
def State.scrubGranule (s : State) (p n : Nat) : State :=
  let a := p * 2 ^ 36 + n * 64
  match (s.port p).granule n with
  | .good _ => s
  | .poison => s
  | .corrected d => s.fixGranule p n d (s.windowSuite a)
  | .uncorrectable =>
    let s := (s.noteUncorr p n).updPort p (fun q => queueMaint { q with scrubUncorr := satAdd q.scrubUncorr 1 } n (.poison n true))
    s.report 4 4 0 (s.part.toNat * 2 ^ 48 + a) 1 (.memPort (Fin.ofNat 12 p) (some (Fin.ofNat 64 n))) (s.windowSuite a)

/-- A granule as a remote READ returns it, and whether it is marked (Table 12.7). -/
def fetchGranule (q : MemPort) (n : Nat) : List Byte × Bool :=
  match q.granule n with
  | .good d => (d, false)
  | .corrected d => (d, false)
  | _ => (List.replicate 64 0, true)

/-- A granule joins a remote READ that waits for it; with the last one the RETURN leaves (R339, R457). -/
def State.serveFetch (s : State) (p n serial : Nat) : State :=
  let q := s.port p
  match q.fetches.find? (fun f => f.serial == serial) with
  | none => s
  | some f =>
    let g := n % 64
    let (d, bad) := fetchGranule q n
    let f := { f with data := f.data.take (64 * g) ++ d ++ f.data.drop (64 * g + 64), waiting := f.waiting.filter (fun k => k != g)
                      poison := if bad then f.poison ||| (1#64 <<< g) else f.poison }
    if f.waiting.isEmpty then
      (s.updPort p (fun q => { q with fetches := q.fetches.filter (fun e => e.serial != serial) })).sendTxn f.port f.vc (returnTxn f.txn (some (f.data, f.poison)))
    else s.updPort p (fun q => { q with fetches := q.fetches.map (fun e => if e.serial = serial then f else e) })

/-- One maintenance item is served (R329, R338). -/
def State.serveMaint (s : State) (p : Nat) (i : MaintItem) : State :=
  match i with
  | .displacedRead n id =>
    (match s.firstRead p n ((s.ctxSuite id.ctx).getD 0) (.reread n id) with
     | (.data d, s) => s.resolve p id (n % 64) (some d)
     | (.wait, s) => s
     | (.void, s) => s.resolve p id (n % 64) none)
  | .displacedWrite n d item =>
    let s := s.updPort p (fun q => storeGranule q n d)
    (match item with
     | some k => s.decideItem k none
     | none => s)
  | .displacedFetch n k => s.serveFetch p n k
  | .reread n id =>
    let (d, s) := s.secondRead p n ((s.ctxSuite id.ctx).getD 0)
    s.resolve p id (n % 64) d
  | .rowReread n i =>
    let (d, s) := s.secondRead p n i
    s.updSuite i (fun u => { u with feeder := { u.feeder with rowReads := sset u.feeder.rowReads (p * 2 ^ 30 + n) (some d) } })
  | .poison n scrub => s.updPort p (fun q =>
    { q.putPoison n with scrubbed := if scrub then n :: q.scrubbed.filter (· != n) else q.scrubbed.filter (· != n) })
  | .writeBack n d seen => s.updPort p (fun q => if q.symbols n = seen then q.putGranule n d else q)
  | .rfm => s
  | .scrub n => s.scrubGranule p n

/-- Tiles of a stack that the scrubber should have read by now (R332). -/
def scrubDue (s : State) : Nat := s.tick.toNat * 2 ^ 24 / 2160000000000

/-- MAINTENANCE_SLOT (R332, R338): in the next maintenance slot each pseudo-channel serves its first waiting item; the others take the
scrub read that is due. -/
def execMaintenanceSlot (p : PortId) (s : State) : Host.Outcome State Fault Refusal :=
  if !stackServes (s.port p.val) then .next s else
  match s.nextSlot p.val (fun _ i _ => slotClass s.repair.split i == 3) with
  | none => .next s
  | some n =>
    let s := s.waitSlot p.val n
    let scrub := decide ((s.port p.val).scrubPos ≤ scrubDue s)
    let pos := (s.port p.val).scrubPos % 2 ^ 24
    let s := s.updPort p.val (fun q => { q with lastSlot := some n, scrubPos := if scrub then q.scrubPos + 1 else q.scrubPos })
    let waiting := (List.range 64).filter (fun g => !(sget [] (s.port p.val).maint g).isEmpty)
    let s := (List.range 64).foldl (fun s g =>
      match pickMaint (sget [] (s.port p.val).maint g) with
      | some (i, rest) =>
        let s := s.updPort p.val (fun q => { q with maint := sset q.maint g rest })
        let s := s.serveMaint p.val i
        if scrub then s.updPort p.val (fun q => queueMaint q (64 * pos + g) (.scrub (64 * pos + g))) else s
      | none => if scrub then s.scrubGranule p.val (64 * pos + g) else s) s
    .next (((s.settleIndex p.val).stackReports p.val).countDev 0x204 p.val (waiting.length + (if scrub then 64 - waiting.length else 0)))

/-- RFM_REQUEST (R339, Table 7.14): absorbed by a maintenance slot, deferred beyond the suite's allotment, or issued in the next traffic
slot, whose granule on that pseudo-channel is displaced. -/
def execRfmRequest (p : PortId) (pc : Fin 64) (absorb defer_ : Bool) (s : State) : Host.Outcome State Fault Refusal :=
  if !stackServes (s.port p.val) then .next s else
  if absorb then .next (s.updPort p.val (fun q => { q with maint := supd [] q.maint pc.val (· ++ [.rfm]) })) else
  match s.nextSlot p.val (fun _ i _ => slotClass s.repair.split i != 3) with
  | none => .next s
  | some n =>
    let q := settleSlots (s.port p.val) n
    match (q.slots.find? (fun e => e.1 == slotIx q n)).map (·.2) with
    | none => .next s
    | some (su, _) =>
      if defer_ ∧ !withinAllotment (s.suite su.toNat) 1 then .next s else
      .next ((s.updPort p.val (fun q => { q with rfmTaken := q.rfmTaken ++ [(n, pc.val)], rfmColl := satAdd q.rfmColl 1 })).boundedCause su.toNat 1)

/-- MP_SLOT_WRITE (R341, Table 9.6): management writes a slot entry, in force from the port's next period. -/
def execMpSlotWrite (f : HostFn) (p : PortId) (i : Fin 1024) (v : W16) (s : State) : Host.Outcome State Fault Refusal :=
  if !s.answers f then .next s else
  if f ≠ .pf then .next (s.logDiscard (some f) (0x022800000000 + p.val * 2 ^ 20 + 0x1000 + 2 * i.val)) else
  .next (s.updPort p.val (fun q => { q with slotReqs := q.slotReqs ++ [(i.val, v, slotPeriod q s.slotNow + 1)] }))

end Sys2Proof.Machine
end

