-- ==== Sys2Proof/Machine/Serving.lean ====
section
/-!
DEFINITION. The sequence table, step building, token records, commit, output rings and notices (R403–R431).
-/

namespace Sys2Proof.Machine

/-! ### The sequence table -/

/-- The 128 bytes of an entry (Table 11.1). -/
def seqBytes (e : SeqEntry) : List Byte :=
  let st := match e.state with
    | .free => 0
    | .queued => 1
    | .prefill => 2
    | .decode => 3
    | .retiring => 4
    | .done => 5
  leBytes 8 e.hostTag.toNat ++ leBytes 1 (st + 8 * e.cls.toNat + 32 * e.reason.toNat) ++ leBytes 1 e.outSlot.toNat ++ leBytes 2 e.stopSet.toNat
    ++ leBytes 4 e.position.toNat ++ leBytes 4 e.maxLen.toNat ++ leBytes 4 e.promptLen.toNat ++ leBytes 8 e.promptAddr.toNat ++ leBytes 8 e.kvBase.toNat
    ++ leBytes 4 e.temp.toNat ++ leBytes 4 e.topP.toNat ++ leBytes 1 e.topK.toNat ++ leBytes 7 0 ++ leBytes 8 e.seed.toNat ++ leBytes 8 e.admitTick.toNat
    ++ leBytes 4 e.generated.toNat ++ leBytes 4 e.lastToken.toNat ++ leBytes 4 e.lastStep.toNat ++ leBytes 44 0

/-! ### Building a step -/

/-- An entry as the builder projects it (R412): its state, POSITION and placed prompt tokens. -/
structure Proj where
  state : SeqState
  position : Nat
  placed : Nat
  deriving DecidableEq, Repr

/-- An entry after every built step commits, each placed decode slot and final chunk continuing (R412, R413). -/
def project (sb : Builder) (i : Nat) (e : SeqEntry) : Proj :=
  let p0 : Proj := ⟨e.state, e.position.toNat, e.position.toNat⟩
  let p := ((sb.built.flatMap (fun b => b.2)).filter (fun k => k.entry == i && k.kind != 0)).foldl (fun (p : Proj) (k : Slot) =>
    if k.kind = 1 then { p with position := p.position + 1 }
    else if k.sample then ⟨if p.state = .queued ∨ p.state = .prefill then .decode else p.state, e.promptLen.toNat + 1, e.promptLen.toNat⟩
    else { p with placed := p.placed + k.count }) p0
  if p.state = .decode ∧ p.position = e.maxLen.toNat then { p with state := .retiring } else p

/-- A step being built: decode slots, chunk slots, and page entries so far. -/
structure Build where
  dec : List Slot
  chunks : List Slot
  pages : Nat

/-- A decode slot for an entry, when a slot and its pages are left (R412). -/
def placeDecode (sb : Builder) (b : Build) (i : Nat) (p : Proj) : Build :=
  let np := cdiv p.position (2 ^ sb.log2pt)
  if b.dec.length < sb.b ∧ b.pages + np ≤ sb.pageBudget.toNat then
    { b with dec := b.dec ++ [⟨1, true, i, p.position - 1, 1, b.pages, np⟩], pages := b.pages + np }
  else b

/-- Chunk slots for an entry while slots, prompt tokens and pages are left (R412); n bounds the slots. -/
def placeChunks (sb : Builder) (i len : Nat) : Nat → Build → Nat → Build
  | 0, b, _ => b
  | n + 1, b, placed =>
    if sb.p ≤ b.chunks.length ∨ len ≤ placed then b else
    let k := min sb.l (len - placed)
    let np := cdiv (placed + k) (2 ^ sb.log2pt)
    if sb.pageBudget.toNat < b.pages + np then b else
    placeChunks sb i len n { b with chunks := b.chunks ++ [⟨2, decide (placed + k = len), i, placed, k, b.pages, np⟩], pages := b.pages + np } (placed + k)

/-- Entries in order of ADMIT_TICK, then index (R412). -/
def insAdmit (x : Nat × SeqEntry) : List (Nat × SeqEntry) → List (Nat × SeqEntry)
  | [] => [x]
  | y :: r => if x.2.admitTick < y.2.admitTick ∨ (x.2.admitTick = y.2.admitTick ∧ x.1 < y.1) then x :: y :: r else y :: insAdmit x r

/-- PAGE_FIRST of each slot: PAGES lists their pages in slot order (R409, R411), from entry n on. -/
def pageOrder (n : Nat) : List Slot → List Slot
  | [] => []
  | k :: r => { k with pageFirst := n } :: pageOrder (n + k.pages) r

/-- The slots of a step: decode slots, then chunk slots, null ones at the ends (R412). -/
def buildSlots (sb : Builder) (seqs : SMap SeqEntry) : List Slot :=
  let order := seqs.foldl (fun l e => insAdmit e l) []
  let b := [0, 1, 2, 3].foldl (fun (b : Build) c =>
    let mine := order.filter (fun e => e.2.cls.toNat == c)
    let b := mine.foldl (fun (b : Build) e =>
      let p := project sb e.1 e.2
      if p.state = .decode then placeDecode sb b e.1 p else b) b
    mine.foldl (fun (b : Build) e =>
      let p := project sb e.1 e.2
      if p.state = .queued ∨ p.state = .prefill then placeChunks sb e.1 e.2.promptLen.toNat sb.p b p.placed else b) b) ⟨[], [], 0⟩
  let null : Slot := ⟨0, false, 65536, 0, 0, 0, 0⟩
  let b := { b with dec := pageOrder 0 b.dec, chunks := pageOrder ((b.dec.map (fun (k : Slot) => k.pages)).sum) b.chunks }
  b.dec ++ List.replicate (sb.b - b.dec.length) null ++ b.chunks ++ List.replicate (sb.p - b.chunks.length) null

/-- Bytes of a region, rounded up to tiles (R409). -/
def tiles (n : Nat) : Nat := cdiv n 4096 * 4096

/-- Regions of a step block (Table 11.3): offsets of SEQIDX, PROMPT and PAGES, and the block's tiles. -/
def blockSeqidx (sb : Builder) : Nat := tiles (32 * (sb.b + sb.p))
def blockPrompt (sb : Builder) : Nat := blockSeqidx sb + tiles (4 * (sb.b + sb.p))
def blockPages (sb : Builder) : Nat := blockPrompt sb + tiles (4 * sb.p * sb.l)
def blockSize (sb : Builder) : Nat := (blockPages sb + tiles (4 * sb.pageBudget.toNat)) / 4096

/-- Address of a step's block (R409). -/
def blockAddr (sb : Builder) (n : Nat) : Nat := sb.ringAddr.toNat + n % 4 * sb.blockTiles.toNat * 4096

/-- A work record (Table 11.4, R410). -/
def workRecord (k : Slot) (e : SeqEntry) : List Byte :=
  if k.kind = 0 then leBytes 32 0 else
  let zero := e.temp.toNat % 2 ^ 31 == 0
  leBytes 2 k.entry ++ leBytes 1 (k.kind + 4 * b2n k.sample + 8 * e.cls.toNat) ++ leBytes 1 (if zero then 0 else e.topK.toNat - 1) ++ leBytes 4 k.position
    ++ leBytes 2 k.count ++ leBytes 2 0 ++ leBytes 4 k.pageFirst ++ leBytes 4 (if zero then 0x3F800000 else fnRcp 0 0 (decodeVal 0 e.temp.toNat))
    ++ leBytes 4 e.topP.toNat ++ leBytes 8 e.seed.toNat

/-- The prompt tokens of a chunk slot, padded to L tokens. -/
def chunkTokens (s : State) (sb : Builder) (k : Slot) : List Byte :=
  if k.kind = 2 then slice (s.hbmRead ((s.seqEntry k.entry).promptAddr.toNat + 4 * k.position) (4 * k.count)) 0 (4 * sb.l) else leBytes (4 * sb.l) 0

/-- The bytes of a step's block (R409–R411). -/
def blockBytes (s : State) (sb : Builder) (l : List Slot) : List Byte :=
  let recs := l.flatMap (fun k => workRecord k (s.seqEntry k.entry))
  let ix := l.flatMap (fun k => leBytes 4 k.entry)
  let prompt := (l.drop sb.b).flatMap (chunkTokens s sb)
  let pages := (l.filter (fun k => k.kind != 0)).flatMap (fun k => s.hbmRead (s.seqEntry k.entry).kvBase.toNat (4 * k.pages))
  let fill := (List.replicate (sb.pageBudget.toNat - pages.length / 4) sb.nullPage).flatMap (fun w => leBytes 4 w.toNat)
  slice recs 0 (blockSeqidx sb) ++ slice ix 0 (blockPrompt sb - blockSeqidx sb) ++ slice prompt 0 (blockPages sb - blockPrompt sb) ++ pages ++ fill

/-! ### Notices of a step, and its building -/

/-- Whether an entry still takes tokens (R417). -/
def takesToken (e : SeqEntry) : Bool := e.state == .prefill || e.state == .decode

/-- The slot zone entries of slot j (R423, Table 11.6); z bounds them. -/
def zoneList (s : State) (sb : Builder) (j z : Nat) : Nat → List Nat
  | 0 => []
  | n + 1 =>
    let w := s.hbmNat (sb.ringAddr.toNat + 4 * sb.blockTiles.toNat * 4096 + 8 * (z * j + (z - (n + 1)))) 8
    w :: (if nbit w 30 then [] else zoneList s sb j z n)

/-- The notices of a slot zone entry (R424). -/
def noticesOf (w : Nat) (commit : Bool) (step sect : Nat) : List Notice :=
  let mk := fun t => (⟨t, commit, BitVec.ofNat 32 (w / 2 ^ 32), BitVec.ofNat 32 step, BitVec.ofNat 16 sect⟩ : Notice)
  mk (.zone (cellId (w % 4096)) (Fin.ofNat 64 (nbits w 12 6)))
    :: (if nbit w 29 then [mk (.context (.se (Fin.ofNat 96 (nbits w 18 7)) (Fin.ofNat 16 (nbits w 25 4))))] else [])

/-- The notices of step n + 1's slots are decided and sent (R424). -/
def State.sendNotices (s : State) (i n : Nat) : State :=
  let u := s.suite i
  match (u.sb.built.find? (fun e => e.1 == n)).map (fun e => e.2) with
  | none => s
  | some l =>
    let live := fun (k : Slot) => k.kind != 0 && takesToken (s.seqEntry k.entry)
    let ns := (l.mapIdx (fun j k => (j, k))).flatMap (fun (e : Nat × Slot) =>
      (zoneList s u.sb e.1 u.sb.zones u.sb.zones).flatMap (fun w => noticesOf w (live e.2) n u.sb.stepFirst))
    s.setSuite i { u with sb := { u.sb with
      noticeList := u.sb.noticeList ++ ns, voided := u.sb.voided + BitVec.ofNat 32 (l.countP (fun k => !live k)) } }

/-- STEP_BUILD (R409–R413, R424): the block of the next step is written and the step marked built; a QUEUED entry that it serves is PREFILL. -/
def execStepBuild (sid : SuiteId) (s : State) : Host.Outcome State Fault Refusal :=
  let u := s.suite sid.val
  let n := nextStep u
  if !u.serving ∨ !u.sb.building ∨ u.sb.built.any (fun e => e.1 == n) then .next s else
  let l := buildSlots u.sb (suiteSeqs s u)
  let s := s.hbmWrite (blockAddr u.sb n) (blockBytes s u.sb l)
  let s := (l.filter (fun k => k.kind == 2)).foldl (fun s k =>
    let e := s.seqEntry k.entry
    if e.state = .queued then s.setSeqEntry k.entry { e with state := .prefill } else s) s
  let s := s.setSuite sid.val { u with sb := { u.sb with
    built := u.sb.built ++ [(n, l)], building := false, padded := u.sb.padded + BitVec.ofNat 32 (l.countP (fun k => k.kind == 0)) } }
  -- with no step before it to commit, its notices are decided now (R424)
  .next (if u.sb.started.isNone && u.sb.closed.isNone then s.sendNotices sid.val n else s)

/-! ### Token records -/

/-- TOKEN_RECORD_RECEIVE (R415, R416): the record next to act at a bay node, or the first released one, reaches its suite's commit queue; a
record for another suite's commit address is refused. -/
def execTokenRecordReceive (b : BayId) (s : State) : Host.Outcome State Fault Refusal :=
  match (s.bay b.val).owner with
  | none => .next s
  | some o =>
    let i := o.val
    match hubHead s i b.val with
    | some (released, c, .msg m) =>
      (match tokenTarget s m with
       | none => .next s
       | some t =>
         let s := s.takeHub i b.val released
         let u := s.suite i
         let refuse := s.suiteError 16 (mAddr m) (mTag m) (.cell c) (some i)
         if t ≠ i ∨ !u.serving ∨ 4096 ≤ u.sb.commitQ.length then .next refuse
         else .next (s.setSuite i { u with sb := { u.sb with commitQ := u.sb.commitQ ++ [m] } }))
    | _ => .next s

/-! ### Output records -/

/-- An output record that waits for its ring: Table 11.5 without PHASE in the low 128 bits, then the class, whether R428 gives its step no bound,
whether it is a SAMPLE slot's of the step that closed, that step's bound in ns, whether a recovery
lengthens it, and the tick of its start. -/
def outputRecord (e : SeqEntry) (token : Nat) (last : Bool) (sb : Builder) (slot : Bool) : W256 :=
  BitVec.ofNat 256 (e.hostTag.toNat + token * 2 ^ 64 + e.generated.toNat % 2 ^ 24 * 2 ^ 96 + e.reason.toNat * 2 ^ 120 + b2n last * 2 ^ 123
    + e.cls.toNat * 2 ^ 128 + b2n sb.spoiledClosed * 2 ^ 130 + b2n slot * 2 ^ 131 + min sb.boundClosed (2 ^ 59 - 1) * 2 ^ 132 + b2n sb.recoveredClosed * 2 ^ 191
    + sb.startClosed.toNat * 2 ^ 192)

/-- Records of an output ring, and its free entries (R421). -/
def outSize (q : OutRing) : Nat := 2 ^ q.log2size.toNat
def outFree (q : OutRing) : Nat := (q.head.toNat % outSize q + outSize q - 1 - q.tail.toNat % outSize q) % outSize q
/-- Whether a record waits for a full ring (R421, Table 11.10). -/
def ringWaits (q : OutRing) : Bool := q.enable && !q.waiting.isEmpty && outFree q == 0

/-- An event of an output ring enters the suite's error queue (R493, R495). -/
def State.ringEvent (s : State) (i ring : Nat) : State := s.suiteError 16 (s.part.toNat * 2 ^ 48 + commitAddr i) ring .hub (some i)

/-- A record goes to an output ring (R421); a ring that is not enabled discards it, with one event while it is so (R495). -/
def State.putOutput (s : State) (i : Nat) (ring : Nat) (r : W256) : State :=
  let q := sget {} (s.suite i).sb.rings ring
  if !q.enable then
    (if q.told then s else
      (s.ringEvent i ring).updSuite i (fun u => { u with sb := { u.sb with rings := supd {} u.sb.rings ring (fun q => { q with told := true }) } })) else
  -- a record that finds its ring full has no bound (R428)
  let r := if outFree q ≤ q.waiting.length then r ||| (1#256 <<< 130) else r
  s.updSuite i (fun u => { u with sb := { u.sb with rings := supd {} u.sb.rings ring (fun q => { q with waiting := q.waiting ++ [r] }) } })

/-- An entry ends without a token: REASON and a final record (R420); slot: its SAMPLE slot of the closed step brought none. -/
def State.endSeq (s : State) (i k : Nat) (st : SeqState) (reason : Nat) (slot : Bool) : State :=
  let e := { s.seqEntry k with state := st, reason := BitVec.ofNat 3 reason }
  (s.setSeqEntry k e).putOutput i e.outSlot.toNat (outputRecord e 0xFFFFFFFF true (s.suite i).sb slot)

/-- Every sequence of a suite that is not FREE or DONE ends with REASON 4 (R407, when the suite enters FAULTED). -/
def State.faultSeqs (s : State) (i : Nat) : State :=
  (suiteSeqs s (s.suite i)).foldl (fun s e =>
    if e.2.state = .free ∨ e.2.state = .done then s
    else s.endSeq i e.1 .done 4 false) s

/-! ### Commit -/

/-- Whether a token is in a stop set (R431). -/
def stops (sb : Builder) (set : W16) (token : Nat) : Bool :=
  decide (set.toNat < 64) && decide (token ≠ 0xFFFFFFFF)
    && (List.range 16).any (fun j => (sget 0xFFFFFFFF sb.stopSets (16 * set.toNat + j)).toNat == token)

/-- A token commit (R419). -/
def State.commitToken (s : State) (i n : Nat) (k : Slot) (token : Nat) : State :=
  let u := s.suite i
  let e := s.seqEntry k.entry
  let pos := if k.kind = 1 then e.position + 1 else e.promptLen + 1
  let e := { e with position := pos, generated := e.generated + 1, lastToken := BitVec.ofNat 32 token, lastStep := BitVec.ofNat 32 n, state := .decode }
  let why : BitVec 3 := if stops u.sb e.stopSet token then 1 else if e.position = e.maxLen then 2 else 0
  let e := if why = 0 then e else { e with state := .retiring, reason := why }
  let s := (s.setSeqEntry k.entry e).updSuite i (fun u => { u with meter := { u.meter with tokens := u.meter.tokens + 1 } })
  s.putOutput i e.outSlot.toNat (outputRecord e token (decide (why ≠ 0)) u.sb true)

/-- One token record of step n (R417, R418). acc: the slots of the step that a record has named. A record of R417 is discarded and counted; a
second one for a slot is discarded and reported, and counted too where it is one of R417. -/
def commitRecord (i n : Nat) (l : List Slot) (acc : State × List Nat) (m : W256) : State × List Nat :=
  let s := acc.1
  let waste := fun (s : State) => s.updSuite i (fun u => { u with sb := { u.sb with padded := u.sb.padded + 1 } })
  match (if mUser m = n then l[mTag m]? else none) with
  | none => (waste s, acc.2)
  | some k =>
    let second := acc.2.contains (mTag m)
    let s := if second then s.suiteError 16 (mAddr m) (mTag m) .hub (some i) else s
    let bad := k.kind == 0 || !k.sample || !takesToken (s.seqEntry k.entry)
    (if bad then waste s else if second then s else s.commitToken i n k (nbits m.toNat 64 32), if second then acc.2 else acc.2 ++ [mTag m])

/-- After the records of step n (R418): chunks advance their entries, and a sample slot without its record ends its entry. -/
def State.commitRest (s : State) (i : Nat) (l : List Slot) (served : List Nat) : State :=
  (l.mapIdx (fun j k => (j, k))).foldl (fun s (e : Nat × Slot) =>
    let k := e.2
    let q := s.seqEntry k.entry
    if k.kind = 0 ∨ !takesToken q then s
    else if !k.sample then (if q.state = .prefill then s.setSeqEntry k.entry { q with position := q.position + BitVec.ofNat 32 k.count } else s)
    else if served.contains e.1 then s
    else (s.endSeq i k.entry .retiring 4 true).suiteError 16 (s.part.toNat * 2 ^ 48 + commitAddr i) e.1 .hub (some i)) s

/-- RETIRING entries that no built step lists are DONE (R407). -/
def State.settleRetiring (s : State) (i : Nat) : State :=
  let u := s.suite i
  let listed : List Nat := (u.sb.built.flatMap (fun b => b.2)).map (fun k => k.entry)
  (suiteSeqs s u).foldl (fun s e => if e.2.state == .retiring && !listed.contains e.1 then s.setSeqEntry e.1 { e.2 with state := .done } else s) s

/-- STEP_COMMIT (R417–R419, R424, R426): the records of a closed step are handled in arrival order, once; records of a later step wait. -/
def execStepCommit (sid : SuiteId) (s : State) : Host.Outcome State Fault Refusal :=
  let i := sid.val
  let u := s.suite i
  match u.sb.closed with
  | none => .next s
  | some n =>
    let l := ((u.sb.built.find? (fun e => e.1 == n)).map (fun e => e.2)).getD []
    let later := fun (m : W256) => u.sb.started.any (fun k => k == mUser m && k != n)
    let mine := u.sb.commitQ.filter (fun m => !later m)
    let s := s.setSuite i { u with sb := { u.sb with commitQ := u.sb.commitQ.filter later } }
    let (s, served) := mine.foldl (commitRecord i n l) (s, [])
    let s := s.commitRest i l served
    let s := s.updSuite i (fun u => { u with sb := { u.sb with
      built := u.sb.built.filter (fun e => e.1 != n), closed := none, committed := BitVec.ofNat 32 n } })
    let s := (s.settleRetiring i).sendNotices i (n + 1)
    .next (if (s.suite i).stopping ∧ !(s.suite i).feeder.isOpen ∧ (s.suite i).state = .running then s.stopSuite i else s)

/-! ### Output rings -/

/-- SB_LAT after the issue of an EXTRAIT record of a SAMPLE slot, which carries its step's start and bound (Table 11.12, R428); a recovery
that has ended since the step's close lengthens the bound too. -/
def State.latency (s : State) (i : Nat) (r : W256) : State :=
  let u := s.suite i
  let t := s.tick.toNat - nbits r.toNat 192 64
  let bound := nbits r.toNat 132 59 + (if nbit r.toNat 191 || u.sb.recovered then 20000 else 0)
  let late := !nbit r.toNat 130 && decide (bound < 40 * (t - 1))
  s.setSuite i { u with sb := { u.sb with latLast := BitVec.ofNat 24 t, latMax := BitVec.ofNat 24 (max u.sb.latMax.toNat (min t 0xFFFFFF))
                                          misses := if late then satAdd u.sb.misses 1 else u.sb.misses } }

/-- OUTPUT_RECORD_WRITE (R421, R493): the first record that waits for a ring is written, and TAIL advances; a write that fails loses it. -/
def execOutputRecordWrite (sid : SuiteId) (ring : Fin 16) (dmaOk : Bool) (s : State) : Host.Outcome State Fault Refusal :=
  let i := sid.val
  let q := sget {} (s.suite i).sb.rings ring.val
  match q.waiting with
  | [] => .next s
  | r :: rest =>
    let next := (q.tail.toNat + 1) % outSize q
    if !q.enable ∨ outFree q = 0 then .next s else
    let put := fun (s : State) (q : OutRing) => s.updSuite i (fun u => { u with sb := { u.sb with rings := sset u.sb.rings ring.val q } })
    let s := if fld r 128 2 = 0#2 ∧ nbit r.toNat 131 then s.latency i r else s
    if !dmaOk then
      .next ((put s { q with waiting := rest }).ringEvent i ring.val)
    else
      let bytes := leBytes 16 (nbits r.toNat 0 127 + 2 ^ 127 * b2n q.phase)
      let s := s.dmaWrite (vfOf i) (q.addr.toNat * 16 + 16 * q.tail.toNat) bytes
      let s := put s { q with waiting := rest, tail := BitVec.ofNat 16 next, phase := if next = 0 then !q.phase else q.phase }
      .next (s.msix (vfOf i) 1)

/-- Local address of a suite's builder block (R430). -/
def builderAddr (i off : Nat) : Nat := 0x024000800000 + i * 2 ^ 16 + off

/-- Whether a function may write a suite's builder registers that the host owns (R430). -/
def mayBuilder (f : HostFn) (i : Nat) : Bool :=
  match f with
  | .pf => true
  | .vf k => k.val == i

/-- OUT_RING_CTL_WRITE (R430, R431, Table 11.14): setting ENABLE starts the first pass; a LOG2SIZE write to an enabled ring is discarded, and
so is one outside 4–16 (log 43). -/
def execOutRingCtlWrite (f : HostFn) (sid : SuiteId) (ring : Fin 16) (v : W64) (s : State) : Host.Outcome State Fault Refusal :=
  if !s.answers f then .next s else
  let i := sid.val
  let addr := builderAddr i (0x108 + 16 * ring.val)
  if !mayBuilder f i then .next (s.logDiscard (some f) addr) else
  let q := sget {} (s.suite i).sb.rings ring.val
  let size := fld v 0 5
  let refuse := size != q.log2size && (q.enable || decide (size.toNat < 4) || decide (16 < size.toNat))
  let on := v.getLsbD 63
  let q' := { q with enable := on, head := fld v 40 16, log2size := if refuse then q.log2size else size }
  let lost := !on && !q.waiting.isEmpty
  let q' := if on && !q.enable then { q' with tail := 0, phase := true, told := false } else if on then q' else { q' with waiting := [], told := q.told || lost }
  let s := s.updSuite i (fun u => { u with sb := { u.sb with rings := sset u.sb.rings ring.val q' } })
  let s := if lost then s.ringEvent i ring.val else s
  .next (if refuse then s.logDiscard (some f) addr else s)

/-! ### Notices -/

/-- A notice is discarded and logged (R425, Table 16.4b code 5). -/
def State.discardNotice (s : State) (addr zone : Nat) (suite : Option Nat) : State := s.logEvent 5 addr zone suite

/-- NOTICE_ARRIVAL (R130, R354, R425): a notice that a builder has sent reaches its zone or context. -/
def execNoticeArrival (t : NoticeTarget) (commit : Bool) (beat : Option W32) (step : W32) (sect : W16) (s : State) : Host.Outcome State Fault Refusal :=
  match beat, findBelow 32 (fun i => (s.suite i).sb.noticeList.any (fun n =>
    n.target == t && n.commit == commit && beat == some n.beat && n.step == step && n.sect == sect)) with
  | some nb, some i =>
    let s := s.updSuite i (fun u => { u with sb := { u.sb with noticeList := u.sb.noticeList.erase ⟨t, commit, nb, step, sect⟩ } })
    (match t with
     | .zone c z =>
       let x := s.cell c.val
       if x.epoch = step ∧ x.cfg.sect = sect then .next (s.requestNotice c.val z.val commit (some nb.toNat))
       else .next (s.discardNotice (spadAddr s c.val 0) z.val (some i))
     | .context x =>
       let u := s.suite i
       let v := s.stream x
       if u.feeder.isOpen ∧ u.feeder.current = sect.toNat ∧ u.contexts.any (fun k => k.2.2 == x) ∧ (v.active ∨ !v.dlvs.isEmpty ∨ !v.queue.isEmpty) then
         let due := suiteNextBeat s i nb.toNat
         .next (s.setStream x { v with notices := if v.notices.contains due then v.notices else v.notices ++ [due] })
       else .next (s.discardNotice (s.part.toNat * 2 ^ 48 + ctxAddr x) 0 (some i)))
  | _, _ => .next s

end Sys2Proof.Machine
end

