-- ==== Sys2Proof/Machine/Lifecycle.lean ====
section
/-!
DEFINITION. What ends a suite's work: contexts emptied (R360, R573), suite reset (R545), unloading (R487), FAULTED (R570), the end of a suite,
warm reset (R541, R543) and a device-fatal error (R574).
-/

namespace Sys2Proof.Machine

/-- The contexts that a suite holds. -/
def suiteContexts (u : Suite) : List StreamCtx := u.contexts.map (fun k => k.2.2)

/-- What of a context outlasts its descriptors: a stream engine's accepted strips, with what addresses them, wait for the context's write
slots (R358, Table 16.8). A Gacon engine's are unsent writes, which are discarded. -/
def remainder (x : StreamCtx) (v : StreamState) : StreamState :=
  if ctxPort x = 12 ∨ (v.wcb.isEmpty ∧ v.dropped.isEmpty) then { serial := v.serial } else
  { desc := v.desc, serial := v.serial, indices := v.indices, idxTiles := v.idxTiles, taken := v.taken, dropped := v.dropped, wcb := v.wcb, wrTile := v.wrTile }

/-- A context holds nothing. -/
def State.emptyContext (s : State) (x : StreamCtx) : State :=
  let ids := (s.ctxReads x).filter (fun r => r.id.ctx == x)
  (ids.foldl (fun s r => s.dropRead r.id) s).setStream x {}

/-- A context's descriptors end: its tiles are discarded, but for the index tiles of the strips that remain. -/
def State.endContext (s : State) (x : StreamCtx) : State :=
  let v := remainder x (s.stream x)
  let ids := (s.ctxReads x).filter (fun r => r.id.ctx == x && !(r.id.index && !v.wcb.isEmpty))
  (ids.foldl (fun s r => s.dropRead r.id) s).setStream x v

/-- The contexts of a suite end, voided (R360, R570) or stopped (R558): what CTX_STATUS reports of them stays. -/
def State.endContexts (s : State) (i : Nat) (voided : Bool) : State :=
  (suiteContexts (s.suite i)).foldl (fun s x =>
    let v := s.stream x
    (s.endContext x).updStream x (fun w => { w with err := v.err, missed := v.missed, tiles := v.tiles, voided := voided })) s

/-- Transactions of a suite that no port has sent yet are discarded (R573). -/
def State.dropUnsent (s : State) (i : Nat) : State :=
  { s with gacon := s.gacon.map (fun e => (e.1, { e.2 with
      txq := e.2.txq.map (fun q => (q.1, q.2.filter (fun t => !(t.arrived.isNone && t.suite.any (fun k => k.val == i))))) })) }

/-- The items at a bay node that closed sections sent: of each cell, the first as many. -/
def keepCarried : SMap Nat → List (CellId × HubItem) → List (CellId × HubItem)
  | _, [] => []
  | m, e :: r =>
    let n := sget 0 m e.1.val
    if n = 0 then keepCarried m r else e :: keepCarried (sset m e.1.val (n - 1)) r

/-- Staged effects of the open section are discarded, with those still on their way to the hub (R318, R570). -/
def State.dropStaged (s : State) (i : Nat) : State :=
  let m := (s.suite i).feeder.carried
  let s := (suiteBays s i).foldl (fun s b => s.updBay b (fun y => { y with up := keepCarried m y.up })) s
  let s := (suiteCells s i).foldl (fun s c =>
    let left := sget 0 m c - (s.bay (cellBay c)).up.countP (fun e => e.1.val == c)
    s.updCell c (fun x => { x with trk := { x.trk with outbound := x.trk.outbound.take left } })) s
  s.updSuite i (fun u => { u with feeder := { u.feeder with staged := [] } })

/-- Messages and items of a suite that are between its cells and the hub are discarded, staged effects included. -/
def State.dropItems (s : State) (i : Nat) : State :=
  let s := (suiteBays s i).foldl (fun s b => s.updBay b (fun y => { y with up := [], down := [] })) s
  s.updSuite i (fun u => { u with feeder := { u.feeder with staged := [], released := [], carried := [] } })

/-- The waiting output records of a suite are written while their rings have room (R421). -/
def State.flushOutput (s : State) (i : Nat) : State :=
  (List.range 16).foldl (fun s r =>
    (List.range (sget {} (s.suite i).sb.rings r).waiting.length).foldl (fun s _ =>
      match execOutputRecordWrite (Fin.ofNat 32 i) (Fin.ofNat 16 r) true s with
      | .next s => s
      | _ => s) s) s

/-- The sequences of a suite that are not FREE or DONE end with REASON 3 and a final record (Table 14.13). -/
def State.cancelSeqs (s : State) (i : Nat) : State :=
  (suiteSeqs s (s.suite i)).foldl (fun s e =>
    if e.2.state = .free ∨ e.2.state = .done then s else s.endSeq i e.1 .done 3 false) s

/-- The sequence-table entries of a suite's blocks read FREE (R403). -/
def State.freeSeqs (s : State) (i : Nat) : State :=
  let bs := (s.suite i).seqBlocks
  { s with seqs := s.seqs.filter (fun e => !bs.contains (e.1 / 1024)) }

/-- A cell in IDLE with every pane cleared and its registers at reset. -/
def idleCell (o : Option SuiteId) : Cell := { suite := o }

/-- What lasts of a cell whose panes are cleared: the accesses that wait (R111), and what its scrubbers have counted (R140, R141). -/
def Cell.lasting (x y : Cell) : Cell :=
  { y with accesses := x.accesses.filter (·.restored.isNone), octUsed := x.octUsed, interval := x.interval, scrubLate := x.scrubLate, uncorr := x.uncorr
           scrub := x.scrub.map (fun (e : Nat × Scrub) => (e.1, { e.2 with backs := [] })) }

/-- A cell without a configuration, in IDLE, with every pane cleared (R486, R487): its counters and tallies, its fault record and the status
of its tracks and its last configuration stay, for no reset domain of theirs is cleared (DEDUCED, log 68). -/
def unconfigured (x : Cell) : Cell :=
  x.lasting { suite := x.suite, epoch := x.epoch, vcell := x.vcell, ctrs := x.ctrs, obs := x.obs, fault := x.fault
              trk := { corr := x.trk.corr, uncorr := x.trk.uncorr, overrun := x.trk.overrun, underrun := x.trk.underrun, phaseDone := x.trk.phaseDone }
              cfg := { residue := x.cfg.residue, sect := x.cfg.sect, provDropped := x.cfg.provDropped, idErr := x.cfg.idErr, crcErr := x.cfg.crcErr, voidErr := x.cfg.voidErr } }

/-- Every cell of a suite is IDLE and cleared (R486, R487), with reset its registers too (R545). -/
def State.clearCells (s : State) (i : Nat) (reset : Bool) : State :=
  (suiteCells s i).foldl (fun s c => (s.loseCell c).updCell c (fun x => if reset then x.lasting (idleCell x.suite) else unconfigured x)) s

/-- The barriers of a suite's blocks are disarmed; GEN stays (R400). -/
def State.resetBarriers (s : State) (i : Nat) : State :=
  let bs := (s.suite i).barBlocks
  { s with barriers := s.barriers.map (fun e => if bs.contains (e.1 / 256) then (e.1, { gen := e.2.gen }) else e) }

/-- The builder at reset: the image's fields stay (Tables 11.7–11.9). -/
def resetBuilder (sb : Builder) : Builder :=
  { zones := sb.zones, xSlots := sb.xSlots, l := sb.l, p := sb.p, log2pt := sb.log2pt, b := sb.b, nullPage := sb.nullPage
    pageBudget := sb.pageBudget, blockTiles := sb.blockTiles, ringAddr := sb.ringAddr, stepFirst := sb.stepFirst }

/-- A suite's SUITE registers at reset; its image, placement and meters stay (R545, Table 15.7). -/
def resetSuite (u : Suite) : Suite :=
  { u with stopping := false, ended := false, sections := u.sections.map (fun k => { k with starts := 0 }), hold := {}, feeder := {}
           freq := { rfloor := u.freq.rfloor }, recov := {}, errq := {}, obs := {}, sb := resetBuilder u.sb, wseq := [] }

/-- A suite reset (R545). -/
def State.suiteReset (s : State) (i : Nat) : State :=
  let s := (suiteContexts (s.suite i)).foldl (fun s x => s.endContext x) s
  let s := (((s.dropUnsent i).dropItems i).clearCells i true).resetBarriers i
  let s := s.freeSeqs i
  let s := (suiteBays s i).foldl (fun s b => s.updBay b (fun y => { y with ctrs := {}, countdown := 0, eligible := [], samples := [] })) s
  (s.updSuite i resetSuite).suitePower i .asleep

/-- Every side of a suite's bays is CLOSED (R288, R486). -/
def State.closeSides (s : State) (i : Nat) : State :=
  (suiteBays s i).foldl (fun s b => s.updBay b (fun y => { y with iso := 0, isoReq := none })) s

/-- Every border inside a suite is OPEN (R486). -/
def State.openSides (s : State) (i : Nat) : State :=
  (suiteBays s i).foldl (fun s b => s.updBay b (fun y => { y with iso := mayOpen s b 0xF })) s

/-- The stacks in which a suite has windows or protected extents leave self-refresh (R533). -/
def State.wakeStacks (s : State) (i : Nat) : State :=
  let u := s.suite i
  (u.windows.map (fun w => w.stack) ++ u.protExts.map (fun p => p.1)).foldl (fun s p => s.updPort p (fun q => { q with selfRefresh := false })) s

/-- Zeros are written over a suite's windows and protected extents (R486, R487), loader work that takes their stacks out of self-refresh (R533). -/
def State.zeroSuite (s : State) (i : Nat) : State :=
  let s := s.wakeStacks i
  let u := s.suite i
  let s := u.windows.foldl (fun s w => s.hbmClear (w.base * 2 ^ 24) ((w.base + w.extents) * 2 ^ 24)) s
  u.protExts.foldl (fun s p => s.hbmClear (p.1 * 2 ^ 36 + p.2.1 * 2 ^ 24) (p.1 * 2 ^ 36 + (p.2.1 + p.2.2) * 2 ^ 24)) s

/-- What of a suite's builder no image brings: rings, stop sets, and its counts (Tables 11.10–11.14). -/
def keptBuilder (sb : Builder) : Builder :=
  { rings := sb.rings, stopSets := sb.stopSets, committed := sb.committed, voided := sb.voided, padded := sb.padded, misses := sb.misses
    latMax := sb.latMax, latLast := sb.latLast }

/-- A suite before an image is its own: no section and no run; the registers that software has written, and what has been counted, stay,
for no reset domain of theirs is cleared (DEDUCED, log 68). -/
def idleSuite (u : Suite) : Suite :=
  { u with stopping := false, ended := false, sections := [], descs := [], rowEngines := [], restores := [], feeder := {}, wseq := []
           hold := { mgmtHold := u.hold.mgmtHold, limit := u.hold.limit, timeout := u.hold.timeout, overBudget := u.hold.overBudget
                     causes := u.hold.causes, run := u.hold.run, holds := u.hold.holds, beats := u.hold.beats, wraps := u.hold.wraps
                     head := u.hold.head, ring := u.hold.ring }
           recov := { count := u.recov.count, lastNs := u.recov.lastNs }, freq := { u.freq with withheld := false } }

/-- The image of a suite is gone; its reservations stay (R487). -/
def emptySuite (u : Suite) : Suite := { idleSuite u with keySlot := 0, svn := 0, sb := keptBuilder u.sb, freq := { (idleSuite u).freq with rfloor := 0 } }

/-- IMAGE_UNLOAD's work (R487, Table 14.13): the suite is EMPTY. -/
def State.unloadSuite (s : State) (i : Nat) : State :=
  let s := s.cancelSeqs i
  let s := ((s.closeSides i).clearCells i false).dropItems i
  let s := (suiteContexts (s.suite i)).foldl (fun s x => s.emptyContext x) s
  let s := ((s.zeroSuite i).updSuite i emptySuite).setSuiteState i .empty
  s.suitePower i .off

/-- Slot entries of a suite become unassigned at the next period (R341, R487). -/
def State.freeSlots (s : State) (i : Nat) : State :=
  { s with ports := s.ports.map (fun e => (e.1, { e.2 with
      slotReqs := e.2.slotReqs ++ ((settledSlots e.2).filter (fun k => k.2.1.toNat == i)).map (fun k => (k.1, 0#16, slotPeriod e.2 s.slotNow + 1)) })) }

/-- A suite's bays and cells are in no suite; what BAY_ISO has counted stays (R288, Table 7.16), and an access that waits (R111). -/
def State.freeBays (s : State) (i : Nat) : State :=
  let s := (suiteCells s i).foldl (fun s c =>
    let s := s.loseCell c
    let x := s.cell c
    if x.accesses.isEmpty then { s with cells := sdel s.cells c } else s.setCell c (x.lasting {})) s
  (suiteBays s i).foldl (fun s b => s.updBay b (fun y => { viol := y.viol, violCount := y.violCount })) s

/-- The transmit positions placed for a suite become idle (R444, R488). -/
def State.freePositions (s : State) (i : Nat) : State :=
  (s.suite i).positions.foldl (fun s e => s.updGport e.1 (fun q => { q with txPat := e.2.foldl (fun m k => sdel m k) q.txPat })) s

/-- The barriers of a suite's blocks return to reset values (R395). -/
def State.freeBarriers (s : State) (i : Nat) : State :=
  let bs := (s.suite i).barBlocks
  { s with barriers := s.barriers.filter (fun e => !bs.contains (e.1 / 256)) }

/-- Every resource of a suite is released (R487, Table 13.13). -/
def State.freeSuite (s : State) (i : Nat) : State :=
  let s := (suiteContexts (s.suite i)).foldl (fun s x => s.emptyContext x) s
  let s := (((s.freeSlots i).freePositions i).freeSeqs i).freeBarriers i
  let s := (s.freeBays i).setSuiteState i .none
  s.setSuite i {}

/-- A suite-fatal fault (R407, R570, R573): FAULTED. -/
def State.faultSuite (s : State) (i : Nat) : State :=
  let s := (((if staging (s.suite i) then s.dropStaged i else s)).endContexts i true).dropUnsent i
  let s := s.faultSeqs i
  let s := s.updSuite i (fun u => { u with stopping := false, hold := { u.hold with held := false, sendHold := false, sendRelease := false, sendStart := false }
                                           feeder := { u.feeder with isOpen := false, configured := false }, sb := { u.sb with building := false } })
  let s := (suiteCells s i).foldl (fun s c => s.updCell c (fun x => { x with held := false })) s
  ((s.setSuiteState i .faulted).suitePower i .asleep).answerStops i { status := 1, scope := 1, code := 5 }

/-! ### Device resets -/

/-- Every suite becomes NONE, with its registers at reset (R13); the metering checkpoints of those that existed stay (R541, R615). The device
state follows by its own event. -/
def State.dropSuites (s : State) : State :=
  let s := { s with mbox := { s.mbox with load := none } }
  (s.suites.map (·.1)).foldl (fun s i =>
    let there := (s.suite i).state != .none
    let s := s.updSuite i (fun u => { savedMeter := u.savedMeter })
    if there then (s.msix .pf 3).msix (vfOf i) 3 else s) s

/-- A memory port whose slot table and buffers are at reset; HBM keeps its contents (R544). -/
def resetPort (q : MemPort) (now : Nat) (asleep : Bool) : MemPort :=
  { data := q.data, check := q.check, base := now, scrubPos := q.scrubPos, selfRefresh := asleep, retired := q.retired, noNewPlacement := q.noNewPlacement }

/-- Cells, bays, slot tables, contexts, Gacon ports, barriers and sequence entries at reset: every bay OFF, every Gacon port DOWN. -/
def State.clearDevice (s : State) (asleep : Bool) : State :=
  { s with cells := [], bays := [], streams := [], barriers := [], seqs := []
           gacon := s.gacon.map (fun e => (e.1, { out := e.2.out }))
           ports := (List.range 12).map (fun p => (p, resetPort (s.port p) s.slotNow asleep))
           domainValid := false, part := 0, routes := [], repair := { s.repair with idleSpads := [] } }

/-- Held leases break (R612). -/
def State.breakLeases (s : State) : State := { s with mbox := { s.mbox with leases := s.mbox.leases.map (fun e => (e.1, breakLease e.2)) } }

/-- Rings are disabled, sessions end, and commands in progress are lost (R506). -/
def State.endMailbox (s : State) : State :=
  { s with mbox := { leases := s.mbox.leases, sessionGen := s.mbox.sessionGen, nextTicket := s.mbox.nextTicket } }

/-- The running slot of the firmware pointer (R607): the copy with the higher sequence number that is whole. -/
def bootPtr (f : Firmware) : BootPtr :=
  if f.ptr0.ok ∧ (!f.ptr1.ok ∨ f.ptr1.seqNo ≤ f.ptr0.seqNo) then f.ptr0 else f.ptr1

/-- The registers of reset domain WARM at their reset values, and a warm reset counted with its cause (Table 15.12). -/
def State.resetRegisters (s : State) (cause : Nat) (cold retest : Bool) : State :=
  let (chal, s) := s.fresh
  { s with
    power := { s.power with warmCount := satAdd s.power.warmCount 1, cause := BitVec.ofNat 8 cause, duty := 0, cap := 3000, p10 := 0, peak := 0 }
    macer := { step := 1, cold := cold, retest := retest, started := true, startAt := s.now }
    devCtrs := {}, quiesced := false, drainMode := 0
    fw := { s.fw with reverted := false }
    mgmt := { sealClosed := s.mgmt.sealClosed, sealOpened := s.mgmt.sealOpened, loopOpen := s.mgmt.loopOpen
              present := s.mgmt.present, challenge := chal } }

/-- Whether the PCIe port may train (R523, R525): VIN12 is good and t3 has come. -/
def portPowered (s : State) : Bool := s.power.vin12Good && s.devState != .off && (s.devState != .maceration || s.macer.started || s.power.lost48)

/-- The link trains while PERST_N is high (R489): rate, width and FLIT mode are the highest that both ends have, and those of the partner are open
(log 1). -/
def State.trainLink (s : State) : State :=
  if s.power.perstLow ∨ !portPowered s ∨ s.power.linkUp then s else
  let (v, s) := s.fresh
  { s with power := { s.power with linkUp := true }
           pcie := { s.pcie with speed := 1 + v.toNat % 6, width := 2 ^ (v.toNat / 6 % 5), flitMode := v.getLsbD 63 } }

/-- The PCIe port at a warm reset (R542, Table 15.7): but for MODE 0 its configuration space is lost, and the link trains again. -/
def State.resetPcie (s : State) (cause : Nat) : State :=
  if cause = 3 then s else ({ s with pcie := {}, power := { s.power with linkUp := false } } : State).trainLink

/-- A warm reset (R541, R543): it ends in maceration, cold when it comes from SAFE (R549) or when cold maceration was under way (R550). -/
def State.warmReset (s : State) (cause : Nat) (retest : Bool) : State :=
  let cold := s.devState == .safe || (s.devState == .maceration && s.macer.cold)
  let s := (((s.dropSuites.clearDevice true).breakLeases).endMailbox).resetRegisters cause cold retest
  (s.setDevState .maceration).resetPcie cause

/-- Commands on suites end with DEVICE_LOST (R574), and with them a drain under way (DESIGN CHOICE, log 75). -/
def State.loseCommands (s : State) : State :=
  (s.mbox.taken.filter (fun t => (cmdSuite t).isSome || (t.running && t.opcode == 0x0070))).foldl (fun s t => s.finish t { status := 0x0D }) s

/-- A device-fatal error (R574): the device returns to READY; it is possible in READY, ACTIVE and DRAINING (Table 14.12). -/
def State.deviceFatal (s : State) : State :=
  let s := s.report 8 2 3 0 0 .hub none
  let s := (s.loseCommands.dropSuites).clearDevice false
  let s := { s with mgmt := { s.mgmt with alert := s.mgmt.alert ||| 0x10 }, quiesced := false, drainMode := 0 }
  s.setDevState .ready

end Sys2Proof.Machine
end

