-- ==== Sys2Proof/Machine/Repair.lean ====
section
/-!
DEFINITION. Row shifts and retired bays (R24–R29, R559–R561), and panes written from their mirrors (R562, R563, Table 13.10).
-/

namespace Sys2Proof.Machine

/-- Offset of a suite's cells from their virtual indices (R483). -/
def cellOffset (u : Suite) : Nat := 64 * (8 * (u.origin / 4)) + 16 * (u.origin % 4)
/-- Logical cell of a virtual index, and the virtual index of a logical cell (R483). -/
def logicalCell (u : Suite) (v : Nat) : Nat := v + cellOffset u
def virtualCell (u : Suite) (c : Nat) : Nat := c - cellOffset u
/-- Whether a virtual index names a cell of a suite's shape. -/
def isVirtual (u : Suite) (v : Nat) : Bool := decide (v % 64 < 16 * 2 ^ u.log2w) && decide (v / 64 < 8 * 2 ^ u.log2h)

/-- Shift position of a cell's bay row (R24). -/
def State.shiftOf (s : State) (c : Nat) : Nat := (sget 16 s.repair.shift (8 * cellBay c + cellRow c)).toNat

/-- The cell that a repair vacates (R559): the faulted cell, the eastern side of a horizontal track, or the southern row's cell of a
vertical one, which a track check names (log 52). -/
def vacated : UnitCheck → Option Nat
  | .datapath c => some c.val
  | .sramMacro c => some c.val
  | .track c false => some (if cellLx c.val = 15 then c.val else c.val + 1)
  | .track c true => some c.val
  | _ => none

/-- The bay of a unit check. -/
def checkBay : UnitCheck → Nat
  | .datapath c => cellBay c.val
  | .sramMacro c => cellBay c.val
  | .track c _ => cellBay c.val
  | .borderLane b => b.val
  | .regulatorPhase b => b.val
  | .pllLock b => b.val
  | .hubLinkLane b => b.val

/-- A bay is retired at run time (R27, R560). -/
def State.retireBay (s : State) (b : Nat) : State :=
  { s with repair := { s.repair with
      good := s.repair.good &&& ~~~ BitVec.ofNat 32 (2 ^ b)
      retiredBays := if s.repair.retiredBays.contains (bayId b) then s.repair.retiredBays else s.repair.retiredBays ++ [bayId b] } }

/-- A unit is marked in the repair log as failed at run time (R548). -/
def State.markUnit (s : State) (k : UnitCheck) (g : Nat) : State :=
  if s.repair.marks.contains (k, g) then s else { s with repair := { s.repair with marks := s.repair.marks ++ [(k, g)] } }

/-- The row of a cell is shifted, vacating its column, whose scratchpad keeps what it held (R26, R559, R561); none when the row's spare is in
use (R560). -/
def State.shiftRow (s : State) (c : Nat) : Option State :=
  if s.shiftOf c ≠ 16 then none else
  some { s with repair := { s.repair with idleSpads := sset s.repair.idleSpads (8 * cellBay c + cellRow c) ((s.cell c).mem, (s.cell c).check)
                                          shift := sset s.repair.shift (8 * cellBay c + cellRow c) (BitVec.ofNat 5 (cellLx c)) } }

/-- Whether section k lies in a restore entry's range, taken cyclically (R562). -/
def inRange (r : Restore) (k : Nat) : Bool :=
  if r.first ≤ r.last then decide (r.first ≤ k) && decide (k ≤ r.last) else decide (r.first ≤ k) || decide (k ≤ r.last)

/-- The mirror of a pane of a cell while section k is open: the local address of its tile (Table 13.10). -/
def mirrorOf (u : Suite) (c g k : Nat) : Option Nat :=
  (u.restores.find? (fun r => logicalCell u r.vcell == c && inRange r k && r.octant == g / 128 && decide (r.pane ≤ g % 128)
    && decide (g % 128 < r.pane + r.count))).bind (fun r =>
      (u.windows[r.window]?).map (fun w => w.base * 2 ^ 24 + 4096 * (r.tile + (g % 128 - r.pane))))

/-- A pane written from a tile: FULL, or POISONED where a granule of the tile cannot be read. -/
def State.fillPane (s : State) (c g a : Nat) : State :=
  let q := s.port (stackOf a)
  let bad := (List.range 64).any (fun j => match q.granule (stackOff a / 64 + j) with
    | .good _ => false
    | .corrected _ => false
    | _ => true)
  let bytes := s.hbmRead a 4096
  let at_ := paneAddr g
  s.updCell c (fun x =>
    let x := (List.range 1024).foldl (fun (x : Cell) j => x.putWord (at_ + 4 * j) (BitVec.ofNat 32 (leAt bytes (4 * j) 4))) x
    let x := x.dropBacks (fun a => a / 4096 == g)
    { x with tags := sset x.tags g (if bad then .poisoned else .full) })

/-- A cell at its new position (R562): panes with a mirror in range are filled, every other one is EMPTY. -/
def State.refillCell (s : State) (i c k : Nat) : State :=
  let u := s.suite i
  (List.range 1024).foldl (fun s g => match mirrorOf u c g k with
    | some a => s.fillPane c g a
    | none => s.updCell c (fun x => x.clearPane g)) s

/-- The panes of a cell that the reload restores from their mirrors (R563): touched or POISONED ones that have one. -/
def restoredPanes (u : Suite) (x : Cell) (c k : Nat) : List (Nat × Nat) :=
  let gs := x.touched ++ (x.tags.filter (fun e => e.2 == .poisoned && !x.touched.contains e.1)).map (·.1)
  gs.filterMap (fun g => (mirrorOf u c g k).map (fun a => (g, a)))

/-- Touched panes without a mirror are cleared at the reload commit (R563). -/
def dropTouched (u : Suite) (x : Cell) (c k : Nat) : Cell :=
  (x.touched.filter (fun g => (mirrorOf u c g k).isNone)).foldl (fun y g => y.clearPane g) x

end Sys2Proof.Machine
end

