-- ==== Sys2Proof/Machine/Reconfig.lean ====
section
/-!
DEFINITION. Reconfiguration of a cell: READY and the configuration path (R296–R302, R639), pane clearing (R303) and commit (R304, R305),
with what a commit does to zones (R121, R122) and queues (R385, R386).
-/

namespace Sys2Proof.Machine

/-! ### Row streams -/

/-- The memory port whose engine reads the row of an injection cell (R290; the spread over the die's three ports is a DESIGN CHOICE,
log 42). -/
def rowPort (c : Nat) : Nat := 3 * cellDie c + (if cellRow c < 3 then 0 else if cellRow c < 6 then 1 else 2)

/-- The injection cells of a suite whose rows a port reads. -/
def portRows (s : State) (i p : Nat) : List Nat := (suiteCells s i).filter (fun c => cellLx c == 0 && rowPort c == p)

/-- Address in the protected extents of the row stream of section k for an injection cell (R290, R486; the layout is the model's, log 42). -/
def rowStream (s : State) (i inj k : Nat) : Option Nat :=
  let p := rowPort inj
  let rows := portRows s i p
  ((s.suite i).protExts.find? (fun e => e.1 == p)).bind (fun e =>
    (rows.findIdx? (fun c => c == inj)).map (fun r => p * 2 ^ 36 + e.2.1 * 2 ^ 24 + (k * rows.length + r) * 65 * 4096))

/-- A VOID group, whose data is open (log 1). -/
def State.voidGroup (s : State) : Group × State :=
  let (l, s) := (List.range 4).foldl (fun (a : List W256 × State) _ =>
    let (f, s) := a.2.voidFlit
    (a.1 ++ [f.data], s)) ([], s)
  (⟨BitVec.ofNat 1024 (leNat (l.flatMap (fun w => leBytes 32 w.toNat))), true⟩, s)

/-- A granule of a row stream as the engine of its row has it (R290, R329): read now, or known from its re-read. -/
def State.rowGranule (s : State) (i p n : Nat) : Got × State :=
  match (s.suite i).feeder.rowReads.find? (fun e => e.1 == p * 2 ^ 30 + n) with
  | some (_, none) => (.wait, s)
  | some (_, some none) => (.void, s)
  | some (_, some (some d)) => (.data d, s)
  | none =>
    match s.firstRead p n i (.rowReread n i) with
    | (.wait, s) => (.wait, s.updSuite i (fun u => { u with feeder := { u.feeder with rowReads := sset u.feeder.rowReads (p * 2 ^ 30 + n) none } }))
    | g => g

/-- A group read from HBM for a suite (R290): none while a granule waits for its re-read; one that cannot be read makes it VOID. -/
def State.storedGroup (s : State) (i a : Nat) : Option Group × State :=
  let p := stackOf a
  let n := stackOff a / 64
  let (g0, s) := s.rowGranule i p n
  let (g1, s) := s.rowGranule i p (n + 1)
  let done := fun (s : State) => s.updSuite i (fun u => { u with feeder := { u.feeder with
    rowReads := sdel (sdel u.feeder.rowReads (p * 2 ^ 30 + n)) (p * 2 ^ 30 + n + 1) } })
  match g0, g1 with
  | .wait, _ => (none, s)
  | _, .wait => (none, s)
  | .data d, .data e => (some ⟨BitVec.ofNat 1024 (leNat (d ++ e)), false⟩, done s)
  | _, _ => let (g, s) := (done s).voidGroup
            (some g, s)

/-- The header group with EPOCH inserted (R292, Table 8.1). -/
def putEpoch (g : Group) (epoch : Nat) : Group :=
  { g with bytes := (g.bytes &&& ~~~ BitVec.ofNat 1024 ((2 ^ 32 - 1) * 2 ^ 64)) ||| BitVec.ofNat 1024 (epoch % 2 ^ 32 * 2 ^ 64) }

/-! ### READY and the path -/

/-- The READY line as the neighbour to the west sees it (R296, R639): IDLE holds it raised; it falls while 8 groups wait to go on. -/
def readyLine (x : Cell) : Bool := (x.cfg.ready || x.state == .idle) && decide (x.cfg.path.length < 8)

/-- Groups of its own block that a cell still takes. -/
def ownLeft (x : Cell) : Nat := if x.state = .idle then 130 else if x.state = .loading then 130 - x.cfg.groups else 0

/-- Whether a group may be sent to a cell: READY is raised, and with the groups on their way it still has room (R298: none is lost). -/
def canTake (x : Cell) : Bool := readyLine x && decide (x.cfg.path.length + (x.cfg.wire.length - ownLeft x) < 8)

/-- A group is on its way to a cell. -/
def Cell.pushWire (x : Cell) (g : Group) : Cell := { x with cfg := { x.cfg with wire := x.cfg.wire ++ [g] } }

/-- READY_RAISE (R296, R639): a LOADING cell with no running handler and room for a group raises READY. -/
def execReadyRaise (c : CellId) (s : State) : Host.Outcome State Fault Refusal :=
  let x := s.cell c.val
  if x.state = .loading ∧ x.seq.handler.isNone ∧ x.cfg.path.length < 8 then
    .next (s.setCell c.val { x with cfg := { x.cfg with ready := true } })
  else .next s

/-- A context of a suite that delivers a row stream (KIND 4) to an injection cell, and the tile that it delivers from. -/
def rowContext (s : State) (u : Suite) (c : Nat) : Option (StreamCtx × BitVec 512 × TileRead) :=
  u.contexts.findSome? (fun k =>
    let v := s.stream k.2.2
    match v.dlvs with
    | (serial, d) :: _ =>
      if dKind d = 4 ∧ dRowCell d = c ∧ !v.voided then
        ((s.ctxReads k.2.2).find? (fun r => decide (r.id = ⟨k.2.2, serial, false, v.dlvTile⟩) && stripKnown r v.dlvStrip)).map (fun r => (k.2.2, d, r))
      else none
    | [] => none)

/-- The stream engine that reads the row of an injection cell of a suite (R290): the rows of a port go round its eight engines (DESIGN CHOICE,
log 42). -/
def rowEngine (s : State) (i inj : Nat) : Nat :=
  8 * rowPort inj + ((portRows s i (rowPort inj)).findIdx (fun c => c == inj)) % 8

/-- The spine's next group for an injection cell of suite i (R291, R298): from a row-stream context, else from the row stream that the
feeder assigns to the row and its engine reads; none while there is none, or its granules wait. -/
def State.spineGroup (s : State) (i c : Nat) : Option Group × State :=
  let u := s.suite i
  match rowContext s u c with
  | some (x, d, r) =>
    let v := s.stream x
    let void := r.granules.any (fun e => e.1 / 2 == v.dlvStrip && e.2 == .void)
    let (g, s) := if void then s.voidGroup else (⟨BitVec.ofNat 1024 (leAt r.data (128 * v.dlvStrip) 128), false⟩, s)
    let s := if v.dlvStrip < 31 then s else s.dropRead r.id
    let g := if (32 * v.dlvTile + v.dlvStrip) % 130 = 0 then putEpoch g (nextEpoch u) else g
    (some g, s.updStream x (fun v => countStrip v d))
  | none =>
    let n := sget 0 u.feeder.rows c
    if u.state ≠ .running ∨ !u.feeder.configured ∨ 2080 ≤ n then (none, s) else
    match rowStream s i c u.feeder.next, u.rowEngines.find? (fun e => e.1 == c && e.2 / 8 == rowPort c) with
    | some a, some _ =>
      (match s.storedGroup i (a + 128 * n) with
       | (none, s) => (none, s)
       | (some g, s) => (some (if n % 130 = 0 then putEpoch g (nextEpoch u) else g),
           s.updSuite i (fun u => { u with feeder := { u.feeder with rows := sset u.feeder.rows c (n + 1) } })))
    | _, _ => (none, s)

/-- A row-stream context of another suite that delivers to an injection cell (R32). -/
def foreignRow (s : State) (i c : Nat) : Option (Nat × StreamCtx × BitVec 512 × TileRead) :=
  s.suites.findSome? (fun e => if e.1 = i then none else (rowContext s e.2 c).map (fun r => (e.1, r)))

/-- A group of another suite is discarded at the injection cell, and reported for that suite (R32). -/
def State.discardRow (s : State) (i c : Nat) : State :=
  match foreignRow s i c with
  | none => s
  | some (j, x, d, r) =>
    let s := if (s.stream x).dlvStrip < 31 then s else s.dropRead r.id
    (s.updStream x (fun v => countStrip v d)).suiteError 5 (spadAddr s c 0) 0 (.cell (cellId c)) (some j)

/-- CONFIG_GROUP_SEND (R298, R639): a group goes to the east neighbour in the row, or from the spine to the injection cell, which takes only
those of the suite that owns its bay (R32). -/
def execConfigGroupSend (c : CellId) (spine : Bool) (s : State) : Host.Outcome State Fault Refusal :=
  if spine then
    let i := (cellSuite (s.cell c.val)).getD 32
    if cellLx c.val ≠ 0 ∨ !canTake (s.cell c.val) then .next s else
    match s.spineGroup i c.val with
    | (none, s) => .next (s.discardRow i c.val)
    | (some g, s) => .next (s.updCell c.val (fun x => x.pushWire g))
  else
    match (s.cell c.val).cfg.path with
    | [] => .next s
    | g :: rest =>
      if cellLx c.val = 15 ∨ !canTake (s.cell (c.val + 1)) then .next s else
      .next ((s.updCell c.val (fun x => { x with cfg := { x.cfg with path := rest } })).updCell (c.val + 1) (fun x => x.pushWire g))

/-- A group of the cell's own block (R299–R302). -/
def Cell.takeGroup (x : Cell) (c : Nat) (g : Group) : Cell :=
  let k := x.cfg.groups
  let idBad := decide (k = 0) && (fld g.bytes 0 16 != 0xC5D1#16 || (fld g.bytes 16 12).toNat != c)
  let crc := if k = 0 then 0xFFFFFFFF else crcRun 0xEDB88320 x.cfg.crc.toNat (leBytes 128 g.bytes.toNat)
  let crcBad := decide (k = 129) && (BitVec.ofNat 32 (crc ^^^ 0xFFFFFFFF) != fld x.cfg.header 96 32)
  let q := { x.cfg with groups := k + 1, crc := BitVec.ofNat 32 crc, header := if k = 0 then g.bytes else x.cfg.header
                        keep := if k = 1 then g.bytes else x.cfg.keep, idErr := x.cfg.idErr || idBad, voidErr := x.cfg.voidErr || g.void
                        crcErr := x.cfg.crcErr || crcBad, blockErr := x.cfg.blockErr || idBad || g.void || crcBad }
  let y := { x with cfg := q }
  if k < 2 then y else
  (List.range 32).foldl (fun (y : Cell) j => y.putCfg (32 * (k - 2) + j) (BitVec.ofNat 32 (nbits g.bytes.toNat (32 * j) 32))) y

/-- A configuration block in error (R302, R553). -/
def State.configError (s : State) (c : Nat) : State :=
  match cellSuite (s.cell c) with
  | none => s.report 5 12 2 (spadAddr s c 0) 0 (.cell (cellId c)) none
  | some i =>
    let cls := if sectRecov (s.suite i) then 1 else 2
    (s.report 5 12 cls (spadAddr s c 0) 0 (.cell (cellId c)) (some i)).suiteFault i cls false none none

/-- A group with the flit of one track received in error (R256). -/
def State.flitOfGroup (s : State) (c track : Nat) (err : FlitErr) (g : Group) : Group × State :=
  match err with
  | .none => (g, s)
  | .corrected =>
    (g, (s.updCell c (fun x => { (x.count 0x04A 1) with trk := { x.trk with corr := satAdd x.trk.corr 1 } })).corrected 2
      (spadAddr s c 0) (.cell (cellId c)) (cellSuite (s.cell c)))
  | .uncorrectable seen =>
    let mask := BitVec.ofNat 1024 ((2 ^ 256 - 1) * 2 ^ (256 * track))
    (⟨(g.bytes &&& ~~~ mask) ||| BitVec.ofNat 1024 (seen.toNat * 2 ^ (256 * track)), true⟩, s.trackError c 3 ((if cellLx c = 0 then 16 else 12) + track))

/-- CONFIG_GROUP_RECEIVE (R299, R302, R639): the oldest group on its way to a cell is taken into its own block, or waits to go on. An IDLE cell
that receives a group is LOADING. -/
def execConfigGroupReceive (c : CellId) (track : Fin 4) (err : FlitErr) (s : State) : Host.Outcome State Fault Refusal :=
  match (s.cell c.val).cfg.wire with
  | [] => .next s
  | g :: rest =>
    let s := s.updCell c.val (fun x => { x with cfg := { x.cfg with wire := rest } })
    let (g, s) := s.flitOfGroup c.val track.val err g
    let s := s.countBay (cellBay c.val) 0x106 1
    let s := s.updCell c.val (fun x => if x.state = .idle then
      let y := x.startLoading
      { y with cfg := { y.cfg with ready := true } } else x)
    let x := s.cell c.val
    if x.state = .loading ∧ x.cfg.groups < 130 then
      let x := x.takeGroup c.val g
      let last := x.cfg.groups == 130
      let s := s.setCell c.val (if last then { x with cfg := { x.cfg with readyAt := max x.cfg.readyAt s.now } } else x)
      .next (if last && x.cfg.blockErr then s.configError c.val else s)
    else .next (s.setCell c.val { x with cfg := { x.cfg with path := x.cfg.path ++ [g] } })

/-! ### Clearing -/

/-- Whether every instruction that the cell issued has completed (R295). -/
def enginesIdle (x : Cell) : Bool := (pendingIssued x.eng x.seq.cyc).isEmpty

/-- Time passes to the next cycle of a cell; none while its suite does not run. -/
def State.nextCycle (s : State) (c : Nat) : Option State :=
  (s.runningSuite (s.cell c)).map (fun u =>
    let len := cycleLen u.freq.current
    s.advance ((s.now / len + 1) * len - s.now))

/-- PANE_CLEARING (R303): in the next cycle each octant takes its next pane, and clears it unless its KEEP bit is 1. -/
def execPaneClearing (c : CellId) (s : State) : Host.Outcome State Fault Refusal :=
  let x := s.cell c.val
  if x.state ≠ .loading ∨ x.cfg.groups < 2 ∨ !enginesIdle x ∨ 128 ≤ x.cfg.clearPos then .next s else
  match s.nextCycle c.val with
  | none => .next s
  | some s =>
    let x := s.cell c.val
    let k := x.cfg.clearPos
    let y := (List.range 8).foldl (fun (y : Cell) o => if x.cfg.keep.getLsbD (128 * o + k) then y else y.clearPane (128 * o + k)) x
    let q := { y.cfg with clearPos := k + 1, clearing := decide (k < 127)
                          readyAt := if k = 127 then max y.cfg.readyAt s.now else y.cfg.readyAt }
    .next (s.setCell c.val { y with cfg := q })

/-! ### Commit -/

/-- The zone of a setup word (Table 3.4); none when the word breaks it. -/
def setupZone (w : Nat) : Option Zone :=
  let count := nbits w 10 8
  if w / 2 ^ 19 ≠ 0 ∨ count = 0 ∨ 128 < count ∨ 128 < w % 128 + count then none
  else some { mode := nbit w 18, valid := true, count := BitVec.ofNat 8 count, octant := BitVec.ofNat 3 (w / 128), pane := BitVec.ofNat 7 w }

/-- The zones that a commit loads (R121, R122), with the zones to report: one report, as zone 64, where the count is too large; a zone whose word
breaks Table 3.4 reads 0 in LZ_CFG (both DESIGN CHOICE, log 92). -/
def loadZones (x : Cell) : SMap Zone × List Nat :=
  let w := x.const 383
  if w / 128 ≠ 0 ∨ 64 < w then ([], [64]) else
  (List.range w).foldl (fun (acc : SMap Zone × List Nat) z =>
    match setupZone (x.const (382 - z)) with
    | some v => (acc.1 ++ [(z, v)], acc.2)
    | none => (acc.1, acc.2 ++ [z])) ([], [])

/-- Whether a queue descriptor breaks Table 10.3 or its ring passes slot 511 (R385). -/
def qdescBad (x : Cell) (q : Nat) : Bool :=
  let d := x.qdesc q
  decide (d 0 / 8 ≠ 0) || decide (d 1 / 64 ≠ 0) || decide (d 2 / 16 ≠ 0) || decide (d 3 ≠ 0) || decide (d 5 / 2 ≠ 0) || decide (9 < d 6)
    || (List.range 9).any (fun k => d (7 + k) != 0) || decide (512 < x.qBase q + x.qSize q)

/-- The valid queues of a new configuration with their rings, and the ones refused, in queue order (R385). -/
def loadQueues (x : Cell) : SMap (Nat × Nat) × List Nat :=
  ((List.range 256).filter (fun q => x.qdesc q 0 % 2 == 1)).foldl (fun (acc : SMap (Nat × Nat) × List Nat) q =>
    let lo := x.qBase q
    let hi := lo + x.qSize q
    let clash := acc.1.any (fun r => (decide (lo < r.2.1 + 2 ^ r.2.2) && decide (r.2.1 < hi))
      || (nbit (x.qdesc q 2) 3 && nbit (x.qdesc r.1 2) 3 && x.qdesc q 2 % 8 == x.qdesc r.1 2 % 8))
    if qdescBad x q || clash then (acc.1, acc.2 ++ [q]) else (acc.1 ++ [(q, lo, x.qdesc q 6)], acc.2)) ([], [])

/-- The live state of the queues at commit (R386): a queue that changed is emptied into DROPPED; the queues that held messages are listed. -/
def keepQueues (x : Cell) (new : SMap (Nat × Nat)) : Queues × List Nat :=
  let ring := fun (m : SMap (Nat × Nat)) (q : Nat) => (m.find? (fun (e : Nat × Nat × Nat) => e.1 == q)).map (fun e => e.2)
  ((List.range 256).filter (fun q => ring x.cfg.rings q != ring new q)).foldl (fun (acc : Queues × List Nat) q =>
    let v := acc.1.qlive q
    let n := v.count + v.retained
    let base := x.qBase q
    (acc.1.setLive q { head := base, tail := base, dropped := satAdd v.dropped n }, if n = 0 then acc.2 else acc.2 ++ [q])) (x.que, [])

/-- VALID flits of some lists. -/
def validFlits (m : SMap (List Flit)) : Nat := (m.flatMap (fun e => e.2)).countP (fun f => f.valid)

/-- A parity fault that the commit itself meets, in a zone word or constant word 383 (R46, R92): taken at instruction 0. -/
def commitFault (x : Cell) : List CheckFault :=
  match ((List.range (1 + x.const 383 % 128)).map (fun z => 0xE80 + (383 - z))).find? x.parityBad with
  | some k => [⟨0, 0, false, 5, 4, 4 * k⟩]
  | none => []

/-- Suite errors of a cell, one for each INFO. -/
def State.cellErrors (s : State) (c code : Nat) (infos : List Nat) : State :=
  infos.foldl (fun s n => s.suiteError code (spadAddr s c 0) n (.cell (cellId c)) (cellSuite (s.cell c))) s

/-- A cell at commit (R50, R193, R305, R583, Table 8.2); d: the compiled duration of the section. -/
def commitCell (x : Cell) (d : Nat) (zones : SMap Zone) (rings : SMap (Nat × Nat)) (que : Queues) : Cell :=
  let h := x.cfg.header
  let prov := (x.tags.filter (fun e => e.2 == .provisional)).map (fun e => e.1)
  let gone := validFlits x.trk.fifos + validFlits x.trk.sendCh + validFlits x.trk.recvCh
  let trk := { x.trk with fifos := [], fifoBad := [], frames := [], landings := [], coming := [], sendCh := [], recvCh := [], sendBad := [], recvBad := [] }
  let cfg := { x.cfg with sect := fld h 32 16, provDropped := x.cfg.provDropped || !prov.isEmpty, queueValid := rings.map (fun e => e.1)
                          rings := rings, qdescs := rings.map (fun (e : Nat × Nat × Nat) => (e.1, (List.range 7).map (x.qdesc e.1))),
                          residue := satAdd x.cfg.residue gone, clearing := false }
  let seq : Seq := { hmsg := x.seq.hmsg, seqNo := x.seq.seqNo, faults := commitFault x }
  rebuildDispatch { x with
    state := .waitingStart, startReady := false, epoch := fld h 64 32, vcell := fld h 128 12
    tags := x.tags.filter (fun e => !prov.contains e.1), pendSeal := [], pendRelease := [], zones := zones
    seq := seq, mat := {}, eng := {}, trk := trk, que := que, cfg := cfg
    ctrs := { x.ctrs with frozen := false, prev := [] }
    obs := { x.obs with wdLimit := BitVec.ofNat 32 (cdiv d 16 + 64), wdRunning := false, busyAt := none } }

/-- CONFIG_COMMIT (R304, R305): 4 cycles after the last of the three events that R304 names, unless the block is in error. -/
def execConfigCommit (c : CellId) (s : State) : Host.Outcome State Fault Refusal :=
  let x := s.cell c.val
  if x.state ≠ .loading ∨ x.cfg.groups ≠ 130 ∨ x.cfg.blockErr ∨ x.cfg.clearPos ≠ 128 ∨ !enginesIdle x then .next s else
  match s.runningSuite x, cellSuite x with
  | some u, some i =>
    let s := s.waitUntil (x.cfg.readyAt + 4 * cycleLen u.freq.current)
    let x := s.cell c.val
    if x.state ≠ .loading then .next s else
    let x := if u.recov.active && isRedo u then dropTouched u x c.val u.feeder.current else x
    let x := { x with cfg := { x.cfg with qdescs := [] } }
    let (zones, badZones) := loadZones x
    let (rings, badQs) := loadQueues x
    let (que, dropped) := keepQueues x rings
    let gone := validFlits x.trk.fifos + validFlits x.trk.sendCh + validFlits x.trk.recvCh
    let d := (u.sections[(fld x.cfg.header 32 16).toNat]?.map (fun k => k.d)).getD 0
    let lost := x.trk.fifos.flatMap (·.2) ++ x.trk.frames.flatMap (fun e => e.2.filterMap id) ++ x.trk.landings.map (·.header)
    let s := (s.updSuite i (fun u => { u with hold := { u.hold with schedBeat := BitVec.ofNat 32 (suiteBeat s i) } })).loseFlits 9 lost
    let s := s.setCell c.val (commitCell x d zones rings que)
    .next ((((s.cellErrors c.val 8 badZones).cellErrors c.val 9 badQs).cellErrors c.val 9 dropped).cellErrors c.val 13 (List.replicate gone 0))
  | _, _ => .next s

end Sys2Proof.Machine
end

