-- ==== Sys2Proof/Machine/Sections.lean ====
section
/-!
DEFINITION. The close and the start of a section (R289–R292, R307–R311), with what happens at a close: released effects (R318), tallies
(R588), samples (R592), frequency changes (R534, R538), quarantine (R575), and the end of a suite's run (Table 14.13).
-/

namespace Sys2Proof.Machine

/-! ### Close -/

/-- Whether a cell has dried down, or halted in a FINAL section, with all its instructions complete (R307). -/
def cellClosed (x : Cell) (final : Bool) : Bool :=
  (x.state == .loading || x.state == .waitingStart || (x.state == .running && x.seq.dried) || (x.state == .halted && final)) && enginesIdle x

/-- Whether no frame of an active write context waits in a spine outlet (R307, R357). -/
def writesTaken (s : State) (u : Suite) : Bool :=
  u.contexts.all (fun k =>
    let v := s.stream k.2.2
    let d := v.desc
    !v.active || v.voided || !dWrites d || decide (32 * dTiles d ≤ v.taken)
      || (firstFrame (s.cell (dRowCell d)) (dTrackList d) ((List.range (dFpb d)).map (fun j => dPhase d + 4 * j)) (16 * dDue0 d)).isNone)

/-- The context of a closed section (R345, R379): its strips are owed to HBM; an unfinished descriptor is dropped with ERR 4. -/
def State.closeContext (s : State) (i : Nat) (x : StreamCtx) : State :=
  let v := s.stream x
  let writing := v.active && dWrites v.desc && decide (32 * dTiles v.desc ≤ v.taken)
  let bad := !v.queue.isEmpty || !v.dlvs.isEmpty || (v.active && !writing)
  let ids := (s.ctxReads x).filter (fun r => r.id.ctx == x && !(r.id.index && !v.wcb.isEmpty))
  let s := if writing then s else ids.foldl (fun s r => s.dropRead r.id) s
  let s := s.setStream x { v with queue := [], dlvs := [], dlvTile := 0, dlvStrip := 0, active := writing
                                  wcb := v.wcb.map (fun w => { w with owed := true }) }
  if bad && !v.voided then s.ctxError x 4 (some i) else s

/-- Of a suite's items on their way to the hub, those that its cells sent before the close (R318): how many for each cell. -/
def carriedItems (s : State) (i : Nat) : SMap Nat :=
  (suiteCells s i).foldl (fun m c =>
    let n := (s.cell c).trk.outbound.length + ((s.bay (cellBay c)).up.countP (fun e => e.1.val == c))
    if n = 0 then m else sset m c n) []

/-- The tallies of the closed section join their classes (R588). -/
def closeTallies (x : Cell) : Cell :=
  { x with obs := { x.obs with tdClosed := x.obs.tdClosed.mapIdx (fun k v => v + nth x.obs.tdOpen k 0), tdOpen := [0, 0, 0, 0, 0] } }

/-- The samples of a suite's bays pass to the hub, paired (R592, R593). -/
def State.passSamples (s : State) (i : Nat) : State :=
  let l := (suiteBays s i).flatMap (fun b => (s.bay b).samples)
  let l := if l.length % 2 = 1 then l ++ [0] else l
  let s := (suiteBays s i).foldl (fun s b => s.updBay b (fun y => { y with samples := [] })) s
  s.updSuite i (fun u => { u with obs := { u.obs with pendingRecs := u.obs.pendingRecs ++ l } })

/-- Whether a suite's sections are recoverable under its policy (R535, R321, R322). -/
def recovPolicy (u : Suite) : Bool := u.sections.any (fun k => k.recoverable) && decide (u.freq.rfloor ≤ u.freq.ceiling)

/-- The effective floor (R535). -/
def effFloor (u : Suite) : BitVec 2 := if recovPolicy u && decide (u.freq.floor ≤ u.freq.rfloor) then u.freq.rfloor else u.freq.floor

/-- Code of a protection cause (Table 16.4b, code 0x31). -/
def protCode : ProtCause → Nat
  | .temperature _ => 0
  | .power => 1
  | .current _ => 2

/-- Whether a protection condition concerns a suite (R538): for temperature, one with a bay on the hot die. -/
def concerns (s : State) (i : Nat) : ProtCause → Bool
  | .temperature (some d) => (suiteBays s i).any (fun b => bayDie b == d.val)
  | .temperature none => false
  | _ => true

/-- Protection overrides the policy of a suite (R538): OVERRIDDEN is set and the event is logged. -/
def State.override (s : State) (i code : Nat) : State :=
  (s.updSuite i (fun u => { u with freq := { u.freq with overridden := true } })).logEvent 0x31 0 code (some i)

/-- A condition that concerns a suite has its root raise PROTECT, and TARGET falls at its next close (R538). -/
def State.raiseProtect (s : State) (i : Nat) (c : ProtCause) : State :=
  (s.updSuite i (fun u => { u with freq := { u.freq with protect := true, protCause := protCode c, overrideDue := true } })).override i (protCode c)

/-- Protection lowers TARGET by a step at a close (R538): of the value that no POLICY_SET since the last change has moved, so that the lower
TARGET applies (Table 15.9). -/
def State.protectTarget (s : State) (i : Nat) : State :=
  let u := s.suite i
  let f := u.freq
  if !f.overrideDue then s else
  let low : BitVec 2 := if recovPolicy u then f.rfloor else 0
  let s := s.setSuite i { u with freq := { f with overrideDue := false } }
  let v := if f.base ≤ low then low else f.base - 1
  if f.target ≤ v then s else
  (s.updSuite i (fun u => { u with freq := { u.freq with target := v, base := v } })).override i f.protCause

/-- TARGET takes effect in every bay of a suite (R534): the dividers switch; after a lowering the voltage falls. -/
def State.switchStep (s : State) (i : Nat) : State :=
  let s := s.updSuite i (fun u => { u with freq := { u.freq with base := u.freq.target } })
  let f := (s.suite i).freq
  if f.current = f.target then s else
  let s := s.updSuite i (fun u => { u with freq := { f with current := f.target } })
  -- the wall cycles of the new step count anew: what is noted by them ends (R141)
  let s := (suiteCells s i).foldl (fun s c => s.updCell c (fun x => { x with scrubLate := (0, 0), octUsed := [], seq := { x.seq with lateSeen := none } })) s
  let s := s.updSuite i (fun u => { u with hold := { u.hold with sampled := 0 } })
  (suiteBays s i).foldl (fun s b => s.updBay b (fun y =>
    { y with step := f.target, vcore := if f.target < f.current then stepVcore f.target else y.vcore })) s

/-- The configurations of a suite's cells for section NEXT are loaded anew (R562, R575). -/
def State.reloadCells (s : State) (i : Nat) : State :=
  let s := (suiteCells s i).foldl (fun s c => s.updCell c (fun x =>
    let y := x.startLoading
    { y with cfg := { y.cfg with wire := [], path := [] } })) s
  s.updSuite i (fun u => { u with feeder := { u.feeder with rows := [], rowReads := [] } })

/-- A row's spare is in use, or a whole bay is suspect: the bay is retired and the suite needs relocation at its next load (R560). -/
def State.relocate (s : State) (i b : Nat) : State :=
  ((s.retireBay b).updSuite i (fun u => { u with recov := { u.recov with relocate := true } })).report 7 3 0 0 (s.suite i).recov.lastNs.toNat
    (.bay (bayId b)) (some i)

/-- Quarantine of a suspect unit at a close of suite i (R575, Table 16.9), before section next. -/
def State.quarantineUnit (s : State) (i next : Nat) (r : UnitRef) : State :=
  let done := fun (s : State) => { s with repair := { s.repair with quarantine := s.repair.quarantine.filter (fun q => q != r) } }
  match r with
  | .cell c =>
    if cellSuite (s.cell c.val) ≠ some i then s else
    let s := s.markUnit (.datapath c) 0
    (match s.shiftRow c.val with
     | some s => done ((s.refillCell i c.val next).reloadCells i)
     | none => done (s.relocate i (cellBay c.val)))
  | .bay b => if (s.bay b.val).owner.map (fun o => o.val) ≠ some i then s else done (s.relocate i b.val)
  | .memPort p (some pc) =>
    if !(s.suite i).windows.any (fun w => w.stack == p.val) then s else if (s.port p.val).retired then done s else done (s.retireStack p pc)
  | _ => s

/-- Whether a section is the last of a serving suite's step (R408). -/
def lastOfStep (u : Suite) (k : Nat) : Bool := u.serving && (u.sections[k]?.map (fun x => x.next)) == some u.sb.stepFirst

/-- Whether the open section of a suite closes now (R307). -/
def mayClose (s : State) (i : Nat) : Bool :=
  let u := s.suite i
  match u.sections[u.feeder.current]? with
  | none => false
  | some k => u.state == .running && u.feeder.isOpen && !u.recov.active && (suiteCells s i).all (fun c => cellClosed (s.cell c) k.final) && writesTaken s u

/-- A step closes (R408): its records may be handled (R417), R428's conditions are judged (ok: they hold at the close), and the cap duty withholds the next START (R537). -/
def closeStep (u : Suite) (now duty : Nat) (ok : Bool) : Suite :=
  { u with sb := { u.sb with closed := u.sb.started, started := none, stepLen := now - u.sb.stepAt, closedAt := now
                             spoiledClosed := u.sb.spoiled || !ok, startClosed := u.sb.stepStart
                             boundClosed := tStepNs u + 4000, recoveredClosed := u.sb.recovered }
           freq := { u.freq with withheld := decide (0 < duty) } }

/-- SECTION_CLOSE (R307, R318, R345, R392, R425, R534, R575, R588, R592). -/
def execSectionClose (sid : SuiteId) (s : State) : Host.Outcome State Fault Refusal :=
  let i := sid.val
  if !mayClose s i then .next s else
  let u := s.suite i
  let k := u.feeder.current
  let final := (u.sections[k]?.map (fun x => x.final)).getD false
  let carried := carriedItems s i
  let ok := r428Holds s u
  let s := (suiteCells s i).foldl (fun s c => s.updCell c (fun x =>
    let y := closeTallies x
    { y with que := y.que.closeSection })) s
  let s := (u.contexts.map (fun e => e.2.2)).foldl (fun s x => s.closeContext i x) s
  let s := s.updSuite i (fun u => { u with
    feeder := { u.feeder with isOpen := false, phase := if final then 3 else 2, staged := [], released := u.feeder.released ++ u.feeder.staged, carried := carried }
    recov := { u.recov with redo := false, fault := none, stuck := [] }
    sb := { u.sb with noticeList := u.sb.noticeList.filter (fun n => n.sect.toNat != k) } })
  let s := s.passSamples i
  let s := s.protectTarget i
  let s := if lastOfStep u k then s.updSuite i (fun u => closeStep u s.now s.power.duty.toNat ok) else s
  let s := if u.serving && !lastOfStep u k then s else s.switchStep i
  let s := s.repair.quarantine.foldl (fun s r => s.quarantineUnit i u.feeder.next r) s
  .next (if final then (s.updSuite i (fun u => { u with ended := true })).stopSuite i
    else if u.stopping ∧ !u.serving then s.stopSuite i else s)

/-! ### Start -/

/-- A context at the start of a section: its descriptors, in table order (R343); more than 8 are refused with ERR 2. -/
def State.loadContext (s : State) (i : Nat) (x : StreamCtx) (l : List (StreamCtx × BitVec 512)) : State :=
  let ds := (l.filter (fun e => e.1 == x)).map (fun e => e.2)
  let s := s.updStream x (fun v => { v with queue := if ds.length ≤ 8 then ds else [], pgen := 0, notices := [], frameBeat := 0, frameWall := 0 })
  if ds.length ≤ 8 then s else s.ctxError x 2 (some i)

/-- A recovery ends with START (R558, R564): its completion is reported. redo: the section that starts was rolled back. -/
def State.endRecovery (s : State) (i : Nat) (redo : Bool) : State :=
  let u := s.suite i
  if !u.recov.active then s else
  let ns := min ((s.now - u.recov.started) / 15) 0xFFFFF
  let unit : UnitRef := match u.recov.fault, u.recov.unit.bind vacated with
    | some f, _ => .cell (cellId f.1)
    | none, some c => .cell (cellId c)
    | none, none => .none
  let r := { u.recov with active := false, phase := 0, count := satAdd u.recov.count 1, lastNs := BitVec.ofNat 20 ns
                          redo := redo, unit := none, tests := [], shifted := [] }
  (s.setSuite i { u with recov := r, sb := { u.sb with recovered := true } }).report 7 1 0 0 ns unit (some i)

/-- A cell in beat 0 of a section (R310, R583); the messages that earlier sections left in its router are noted (R376, R393). -/
def startCell (x : Cell) : Cell :=
  { x with state := .running, held := false, startReady := false, touched := [], seq := { x.seq with cyc := 0 }
           trk := { x.trk with outlets := [], routerKept := x.trk.router }, cfg := { x.cfg with ready := false }, obs := { x.obs with wdRunning := true } }

/-- The feeder and builder at START of section k (R291, R292, R408, R412). -/
def startSection (u : Suite) (k : Nat) (now : Nat) (tick : W64) : Suite :=
  let redo := isRedo u
  let sec := u.sections[k]?
  let final := (sec.map (fun x => x.final)).getD false
  let first := u.serving && decide (k = u.sb.stepFirst) && !redo
  let f := { u.feeder with phase := 0, isOpen := true, dried := 0, current := k, next := (sec.map (fun x => x.next)).getD 0, configured := !final, rows := [], rowReads := [] }
  let sb := if first then { u.sb with started := some (nextEpoch u), stepStart := tick, stepAt := now, building := true, recovered := false, spoiled := false } else u.sb
  let same := u.serving && !first
  let h := { u.hold with sendStart := false, schedBeat := 0, occurrences := if same then u.hold.occurrences else []
                         window := if same then u.hold.window else u.hold.window + 1 }
  { u with sections := if redo then u.sections else u.sections.mapIdx (fun j x => if j = k then { x with starts := x.starts + 1 } else x)
           feeder := f, sb := sb, hold := h }

/-- SECTION_START (R291, R292, R310): at the boundary after START was sent, beat 0 of section NEXT begins in every cell together. -/
def execSectionStart (sid : SuiteId) (s : State) : Host.Outcome State Fault Refusal :=
  let i := sid.val
  if !(s.suite i).hold.sendStart then .next s else
  match s.waitBoundary i with
  | none => .next s
  | some s =>
    let s := if (s.suite i).hold.held then s.releaseHold i else s
    let u := s.suite i
    let k := u.feeder.next
    let s := s.setSuite i (startSection u k s.now s.tick)
    let s := if r428Holds s (s.suite i) then s else s.spoil i
    let s := (suiteCells s i).foldl (fun s c => s.updCell c (fun x => (startCell x).gate 0)) s
    let l := match u.sections[k]? with
      | some x => (u.descs.drop x.descFirst).take x.descCount
      | none => []
    let s := (u.contexts.map (fun e => e.2.2)).foldl (fun s x => s.loadContext i x l) s
    .next (s.endRecovery i (isRedo u))

/-! ### Beginning a run -/

/-- A suite begins to run (R464, R519, R530, R538, R591): from LOADED, or after its FINAL section, it starts at section 0; else it goes on. -/
def State.beginSuite (s : State) (i : Nat) : State :=
  let u := s.suite i
  let fresh := u.state == .loaded || u.ended
  let s := s.updSuite i (fun u => { u with
    ended := false, stopping := false
    freq := { u.freq with current := u.freq.target, base := u.freq.target }
    feeder := if fresh then { u.feeder with next := 0, configured := true, rows := [], rowReads := [], phase := 2, isOpen := false } else u.feeder
    sb := if u.serving && !u.sb.built.any (fun e => e.1 == nextStep u) then { u.sb with building := true } else u.sb
    wseq := [] })
  let s := if fresh then (suiteCells s i).foldl (fun s c => s.updCell c (fun x => if x.state = .halted then x.startLoading else x)) s else s
  let s := u.contexts.foldl (fun s k => s.updStream k.2.2 (fun v => { v with voided := false, err := 0 })) s
  let s := (suiteBays s i).foldl (fun s b => s.seedCountdown b u.obs.n.toNat) s
  let s := (s.setSuiteState i .running).suitePower i .on
  (s.power.protects.filter (concerns s i)).foldl (fun s c => s.raiseProtect i c) s

/-- REGULATOR_RAMP_DONE (R534): the voltage of the suite's TARGET step is reached; one lowered since falls after the dividers have switched. -/
def execRegulatorRampDone (b : BayId) (s : State) : Host.Outcome State Fault Refusal :=
  let y := s.bay b.val
  match y.owner with
  | some i =>
    let f := (s.suite i.val).freq
    if y.power = .on ∧ y.ramping then
      .next (s.setBay b.val { y with ramping := false, vcore := stepVcore (if f.target < f.current then f.current else f.target) })
    else .next s
  | none => .next s

/-- DUTY_WITHHOLD_END (R537): d / (16 − d) of the last step's length after its close, START is no longer withheld. -/
def execDutyWithholdEnd (sid : SuiteId) (s : State) : Host.Outcome State Fault Refusal :=
  let u := s.suite sid.val
  if !u.freq.withheld then .next s else
  let d := s.power.duty.toNat
  let s := s.waitUntil (u.sb.closedAt + cdiv (u.sb.stepLen * d) (16 - d))
  .next (s.updSuite sid.val (fun u => { u with freq := { u.freq with withheld := false } }))

end Sys2Proof.Machine
end

