-- ==== Sys2Proof/Machine/Commands.lean ====
section
/-!
DEFINITION. Mailbox commands that need no image and no key: sessions (R507–R509), status, starting and stopping suites (R519), sequences
(R405, R515), policy (R535), counters and sampling (R586, R590), leases (R611, R612), logs (R557), resets and drains (R517), with the rings
(R502, R503) and function resets (R494).
-/

namespace Sys2Proof.Machine

/-! ### Sessions and status -/

/-- The supported versions (R507), highest first. -/
def versions : List Nat := [0x0302, 0x0301, 0x0300, 0x0204, 0x0203, 0x0202, 0x0201, 0x0200]

/-- SESSION_OPEN's effect (R507–R509). -/
def openSession (t : Taken) (s : State) : State :=
  let lo := param t 8 2
  let hi := param t 10 2
  let l := sget {} s.mbox.leases (leaseIx 0 0)
  let excl := param t 12 1 == 1
  if hi < lo then s.finish t { status := 4 } else
  match versions.find? (fun v => decide (lo ≤ v) && decide (v ≤ hi)),
    (List.range 16).find? (fun k => !s.mbox.sessions.any (fun e => e.1 == k + 1)) with
  | none, _ => s.finish t { status := 6, result := leBytes 2 0x0204 ++ leBytes 2 0x0302 }
  | some _, none => s.finish t { status := 9 }
  | some v, some k =>
    if excl ∧ l.held then s.finish t { status := 0x0A } else
    let gen := s.mbox.sessionGen + 1
    let n := k + 1
    let leases := if excl then
        sset s.mbox.leases (leaseIx 0 0) { held := true, broken := false, session := BitVec.ofNat 16 n, sessionGen := gen, gen := l.gen + 1 }
      else s.mbox.leases
    let s := { s with mbox := { s.mbox with sessions := sset s.mbox.sessions n ⟨BitVec.ofNat 16 v, gen⟩, sessionGen := gen, leases := leases } }
    s.finish { t with version := some (BitVec.ofNat 16 v) } { status := if excl && l.broken then 0x0B else 0, result := leBytes 2 v ++ leBytes 2 n ++ leBytes 4 gen.toNat }

/-- SESSION_OPEN (R507). -/
def execSessionOpen (t : Nat) (s : State) : Host.Outcome State Fault Refusal :=
  .next (runCommand s t 0x01 (fun _ => true) (fun _ => whole 8 4 ++ [(12, 1)]) openSession)

/-- SESSION_CLOSE (R508, R520, R612): the session's leases are released. -/
def execSessionClose (t : Nat) (s : State) : Host.Outcome State Fault Refusal :=
  .next (runCommand s t 0x02 (fun _ => true) (fun _ => []) (fun t s =>
    if !sessionOpen s t then s.finish t already else
    let free := fun (l : Lease) => if l.held && l.session == t.session then { l with held := false } else l
    let s := s.keepVersions (fun e => e.fn == .pf && e.session == t.session)
    let s := { s with mbox := { s.mbox with sessions := sdel s.mbox.sessions t.session.toNat, leases := s.mbox.leases.map (fun (e : Nat × Lease) => (e.1, free e.2)) } }
    s.finish t (okReply [])))

/-- The suites of some states, as a bit mask. -/
def suiteMask (s : State) (p : SuiteState → Bool) : Nat :=
  (List.range 32).foldl (fun m i => if p (s.suite i).state then m + 2 ^ i else m) 0

/-- DEVICE_STATUS (R513). -/
def execDeviceStatus (t : Nat) (s : State) : Host.Outcome State Fault Refusal :=
  .next (runCommand s t 0x03 (fun _ => true) (fun _ => []) (fun t s =>
    s.finish t (okReply ([BitVec.ofNat 8 (deviceCode s.devState), s.grade, BitVec.ofNat 8 ((List.range 32).countP (fun b => s.repair.good.getLsbD b)),
        BitVec.ofNat 8 (b2n s.quiesced + 2 * b2n s.mgmt.present)]
      ++ leBytes 4 (suiteMask s (fun k => k != .none)) ++ leBytes 4 (suiteMask s (fun k => k == .running)) ++ leBytes 4 (suiteMask s (fun k => k == .faulted))
      ++ leBytes 8 s.tick.toNat))))

/-! ### Running suites -/

/-- SUITE_START (R519, R520). -/
def execSuiteStart (t : Nat) (s : State) : Host.Outcome State Fault Refusal :=
  .next (runCommand s t 0x14 (fun _ => true) (fun _ => whole 8 1) (fun t s =>
    let i := param t 8 1
    match suiteGate s i [.loaded, .stopped, .running] with
    | some r => s.finish t r
    | none => if (s.suite i).state = .running then s.finish t already else (s.beginSuite i).finish t (okReply [])))

/-- A stop asked of a RUNNING suite (Table 14.13): it takes effect at its next boundary, at once when a serving suite stands at one. -/
def State.askStop (s : State) (i : Nat) : State :=
  let u := s.suite i
  if u.serving && !u.feeder.isOpen && u.sb.closed.isNone && decide (u.feeder.next = u.sb.stepFirst) && decide (u.feeder.phase = 2) then s.stopSuite i
  else s.setSuite i { u with stopping := true }

/-- Whether a SUITE_STOP forces (R510: a 2.x session's FORCE is ignored). -/
def forces (s : State) (t : Taken) : Bool := nbit (param t 9 1) 0 && decide (0x0300 ≤ s.versionOf t)

/-- SUITE_STOP with FORCE 0 (R519, R520): it completes when the suite stops. -/
def execSuiteStop (t : Nat) (s : State) : Host.Outcome State Fault Refusal :=
  .next (runCommand s t 0x15 (fun t => !forces s t) (fun _ => [(8, 255), (9, 1)]) (fun t s =>
    let i := param t 8 1
    match suiteGate s i [.running, .stopped] with
    | some r => s.finish t r
    | none =>
      if (s.suite i).state = .stopped ∨ (s.suite i).stopping then s.finish t already
      else (s.keepRunning t).askStop i))

/-- A suite is stopped with FORCE 1 (R545, R555, R573, Table 14.13): final records, a suite reset, LOADED. -/
def State.forceStop (s : State) (i : Nat) : State :=
  let s := if (s.suite i).recov.active then s.report 7 2 0 0 (s.suite i).recov.lastNs.toNat .none (some i) else s
  let s := ((s.cancelSeqs i).flushOutput i).suiteReset i
  (s.setSuiteState i .loaded).answerStops i (okReply [])

/-- SUITE_STOP with FORCE 1 (R545). -/
def execSuiteStopForce (t : Nat) (s : State) : Host.Outcome State Fault Refusal :=
  .next (runCommand s t 0x15 (fun t => forces s t) (fun _ => [(8, 255), (9, 1)]) (fun t s =>
    let i := param t 8 1
    match suiteGate s i [.running, .stopped, .faulted] with
    | some r => s.finish t r
    | none => (s.forceStop i).finish t (okReply [])))

/-! ### Sequences -/

/-- Whether n bytes from local address a lie in one of a suite's windows. -/
def inOneWindow (u : Suite) (a n : Nat) : Bool :=
  u.windows.any (fun w => decide (w.base * 2 ^ 24 ≤ a) && decide (a + n ≤ (w.base + w.extents) * 2 ^ 24))

/-- The lowest entry of a suite's blocks in a state (R405). -/
def firstEntry (s : State) (u : Suite) (st : SeqState) : Option Nat :=
  u.seqBlocks.findSome? (fun b => findBelow 1024 (fun j => (s.seqEntry (1024 * b + j)).state == st) |>.map (1024 * b + ·))

/-- The entry that a SEQ_SUBMIT asks for (Tables 11.1, 14.11); a 2.x session's byte 9 is ignored (R510). -/
def submitted (s : State) (t : Taken) : SeqEntry :=
  let old := decide (s.versionOf t < 0x0300)
  { hostTag := BitVec.ofNat 64 (param t 16 8), state := .queued, cls := if old then 2 else BitVec.ofNat 2 (param t 9 1)
    outSlot := if old then 0 else BitVec.ofNat 4 (param t 9 1 / 4), stopSet := BitVec.ofNat 16 (param t 10 2), maxLen := BitVec.ofNat 32 (param t 12 4)
    promptLen := BitVec.ofNat 32 (param t 24 4), temp := BitVec.ofNat 32 (param t 28 4), promptAddr := BitVec.ofNat 48 (param t 32 6)
    topK := BitVec.ofNat 7 (param t 38 1), kvBase := BitVec.ofNat 48 (param t 40 6), topP := BitVec.ofNat 32 (param t 48 4)
    seed := BitVec.ofNat 64 (param t 56 8), admitTick := s.tick, lastToken := 0xFFFFFFFF }

/-- Whether the fields of an entry keep Table 11.1. -/
def entryOk (e : SeqEntry) : Bool :=
  let temp := e.temp.toNat
  decide (1 ≤ e.promptLen.toNat) && decide (e.promptLen.toNat < e.maxLen.toNat) && decide (e.maxLen.toNat ≤ 16777215)
    && (decide (temp < 0x7F800000) || decide (temp = 0x80000000)) && decide (0 < e.topP.toNat) && decide (e.topP.toNat ≤ 0x3F800000)
    && decide (1 ≤ e.topK.toNat) && decide (e.topK.toNat ≤ 64)

/-- Why a submission is refused (R405, Table 14.10): the reason in RESULT byte 8, 0 none; topK: the whole byte that the command gives. -/
def submitRefusal (u : Suite) (e : SeqEntry) (topK : Nat) : Nat :=
  let pages := cdiv e.maxLen.toNat (2 ^ u.sb.log2pt)
  if !u.serving then 6
  else if !entryOk e || decide (64 < topK) then 1
  else if 64 ≤ e.stopSet.toNat ∧ e.stopSet ≠ 0xFFFF then 2
  else if !(sget {} u.sb.rings e.outSlot.toNat).enable then 3
  else if !inOneWindow u e.promptAddr.toNat (4 * e.promptLen.toNat) || !inOneWindow u e.kvBase.toNat (4 * pages) then 4
  else 0

/-- SEQ_SUBMIT's effect (R405, R406, R515): it waits while a step is being committed. -/
def submit (t : Taken) (s : State) : State :=
  let i := (cmdSuite t).getD 0
  match suiteGate s i [.loaded, .running, .stopped] with
  | some r => s.finish t r
  | none =>
    let u := s.suite i
    if u.sb.closed.isSome then s.keepRunning t else
    let e := submitted s t
    let why := submitRefusal u e (param t 38 1)
    match (firstEntry s u .free).orElse (fun _ => firstEntry s u .done) with
    | some k =>
      if why = 0 then
        let s := s.setSeqEntry k e
        (if xOver s (s.suite i) then s.spoil i else s).finish t (okReply (leBytes 2 k))
      else s.finish t { status := 0x20, result := leBytes 1 why }
    | none => s.finish t { status := 0x20, result := leBytes 1 (if why = 0 then 5 else why) }

/-- SEQ_SUBMIT (R405). -/
def execSeqSubmit (t : Nat) (s : State) : Host.Outcome State Fault Refusal :=
  .next (runCommand s t 0x20 (fun _ => true)
    (fun t => [(8, 255), (9, if s.versionOf t < 0x0300 then 255 else 63)] ++ whole 10 29 ++ whole 40 6 ++ whole 48 4 ++ whole 56 8) submit)

/-- SEQ_CANCEL's effect (R406, R407, R515). -/
def cancel (t : Taken) (s : State) : State :=
  let i := (cmdSuite t).getD 0
  match suiteGate s i [.loaded, .running, .stopped] with
  | some r => s.finish t r
  | none =>
    let u := s.suite i
    if u.sb.closed.isSome then s.keepRunning t else
    let k := param t 12 4
    let e := s.seqEntry k
    if !u.seqBlocks.contains (k / 1024) ∨ e.state = .free ∨ e.hostTag.toNat ≠ param t 16 8 then s.finish t { status := 4 }
    else if e.state = .retiring ∨ e.state = .done then s.finish t already
    else ((s.endSeq i k (if e.state = .queued then .done else .retiring) 3 false).settleRetiring i).finish t (okReply [])

/-- SEQ_CANCEL (R515). -/
def execSeqCancel (t : Nat) (s : State) : Host.Outcome State Fault Refusal :=
  .next (runCommand s t 0x21 (fun _ => true) (fun _ => whole 8 1 ++ whole 12 12) cancel)

/-! ### Policy, counters, sampling -/

/-- The parameter bytes of POLICY_SET. -/
def policyBytes : List (Nat × Nat) := whole 8 2 ++ whole 12 5

/-- TARGET of a suite set, by a POLICY_SET or by the power-cap loop (R534): a rise starts the regulators of a RUNNING suite ramping. -/
def State.setTarget (s : State) (i : Nat) (v : BitVec 2) (policy : Bool) : State :=
  let u := s.suite i
  let s := s.setSuite i { u with freq := { u.freq with target := v, base := if policy then u.freq.base else v } }
  if u.state = .running ∧ u.freq.current < v then
    (suiteBays s i).foldl (fun s b => s.updBay b (fun y => { y with ramping := true })) s
  else s

/-- POLICY_SET of SCOPE 0, or of a SCOPE above 2, which fails (R535). -/
def execPolicySetDevice (t : Nat) (s : State) : Host.Outcome State Fault Refusal :=
  .next (runCommand s t 0x30 (fun t => param t 8 1 == 0 || decide (2 < param t 8 1)) (fun _ => policyBytes) (fun t s =>
    let cap := param t 12 2
    if param t 8 1 ≠ 0 ∨ cap < 1500 ∨ 3000 < cap then s.finish t { status := 4 }
    else ({ s with power := { s.power with cap := BitVec.ofNat 12 cap } } : State).finish t (okReply [])))

/-- POLICY_SET of SCOPE 1 (R535): TARGET is brought into the new range (R536). -/
def execPolicySetSuite (t : Nat) (s : State) : Host.Outcome State Fault Refusal :=
  .next (runCommand s t 0x30 (fun t => param t 8 1 == 1) (fun _ => policyBytes) (fun t s =>
    let i := param t 9 1
    let lo := param t 14 1
    let hi := param t 15 1
    match suiteGate s i [.empty, .loaded, .running, .stopped, .faulted] with
    | some r => s.finish t r
    | none =>
      if 3 < lo ∨ 3 < hi ∨ hi < lo then s.finish t { status := 4 } else
      let s := s.updSuite i (fun u => { u with freq := { u.freq with floor := BitVec.ofNat 2 lo, ceiling := BitVec.ofNat 2 hi } })
      let u := s.suite i
      let v := if u.freq.target < effFloor u then effFloor u else if u.freq.ceiling < u.freq.target then u.freq.ceiling else u.freq.target
      (if v = u.freq.target then s else (s.setTarget i v true).spoil i).finish t (okReply [])))

/-- POLICY_SET of SCOPE 2 (R337). -/
def execPolicySetSplit (t : Nat) (s : State) : Host.Outcome State Fault Refusal :=
  .next (runCommand s t 0x30 (fun t => param t 8 1 == 2) (fun _ => policyBytes) (fun t s =>
    if 3 < param t 16 1 then s.finish t { status := 4 }
    else ({ s with repair := { s.repair with bootSplit := BitVec.ofNat 2 (param t 16 1) } } : State).finish t (okReply [])))

/-- A counter's select register from its 16 bits (Table 17.3). -/
def ctrSelOf (v : Nat) (unit : Byte) : CtrSel := ⟨nbit v 15, nbit v 14, nbit v 13, nbit v 10, BitVec.ofNat 10 v, unit⟩

/-- COUNTER_CONFIG (R586): the select register in each named cell, and CTR_USER. -/
def execCounterConfig (t : Nat) (s : State) : Host.Outcome State Fault Refusal :=
  .next (runCommand s t 0x31 (fun _ => true) (fun _ => [(8, 255), (9, 1)] ++ whole 12 3 ++ whole 16 2) (fun t s =>
    let i := param t 8 1
    let k := param t 14 1
    let sel := param t 16 2
    match suiteGate s i [.empty, .loaded, .running, .stopped, .faulted] with
    | some r => s.finish t r
    | none =>
      let cells := if param t 12 2 = 0xFFFF then suiteCells s i else [param t 12 2]
      if 7 < k ∨ cells.any (fun c => !(suiteCells s i).contains c) ∨ (nbit sel 14 ∧ k % 2 = 0) then s.finish t { status := 4 } else
      let s := cells.foldl (fun s c => s.updCell c (fun x => { x with ctrs := { x.ctrs with sel := sset x.ctrs.sel k (ctrSelOf sel 0) } })) s
      (s.updSuite i (fun u => { u with obs := { u.obs with ctrUser := param t 9 1 == 1 } })).finish t (okReply [])))

/-- Whether a suite holds a write slot on a port. -/
def hasWriteSlot (s : State) (i p : Nat) : Bool :=
  (s.port p).slots.any (fun e => e.2.1.toNat == i && slotClass s.repair.split e.1 == 1)

/-- SAMPLE_CONFIG (R590). -/
def execSampleConfig (t : Nat) (s : State) : Host.Outcome State Fault Refusal :=
  .next (runCommand s t 0x32 (fun _ => true) (fun _ => [(8, 255), (9, 1)] ++ whole 12 6 ++ whole 20 8) (fun t s =>
    let i := param t 8 1
    let n := param t 12 4
    let recs := param t 24 4
    match suiteGate s i [.empty, .loaded, .running, .stopped, .faulted] with
    | some r => s.finish t r
    | none =>
      match (s.suite i).windows[param t 16 2]? with
      | none => s.finish t { status := 4 }
      | some w =>
        if n < 256 ∨ 16777215 < n ∨ recs % 128 ≠ 0 ∨ w.extents * 2 ^ 24 < param t 20 4 * 4096 + 32 * recs then s.finish t { status := 4 }
        else if !hasWriteSlot s i w.stack then s.finish t { status := 0x12 } else
        let s := s.updSuite i (fun u => { u with obs := { u.obs with
          sampleEn := param t 9 1 == 1, n := BitVec.ofNat 24 n, records := BitVec.ofNat 32 recs
          ringAddr := BitVec.ofNat 48 (w.base * 2 ^ 24 + 4096 * param t 20 4) } })
        s.finish t (okReply [])))

/-! ### Leases and logs -/

/-- Whether a lease resource exists (Table 18.10). -/
def leaseOk (s : State) (kind index : Nat) : Bool :=
  (kind == 0 && index == 0) || (kind == 1 && decide (index < 64)) || (kind == 2 && decide (index < 32))
    || (kind == 3 && s.store.any (fun e => e.1 == index)) || (kind == 4 && decide (index < 16))

/-- LEASE_ACQUIRE (R611, R612): the whole device is leased by SESSION_OPEN only. -/
def execLeaseAcquire (t : Nat) (s : State) : Host.Outcome State Fault Refusal :=
  .next (runCommand s t 0x52 (fun _ => true) (fun _ => whole 8 1 ++ whole 12 4) (fun t s =>
    let kind := param t 8 1
    let ix := param t 12 4
    let l := sget {} s.mbox.leases (leaseIx kind ix)
    if kind = 0 ∨ !leaseOk s kind ix then s.finish t { status := 0x3E }
    else if l.held then
      (if l.session = t.session then s.finish t { already with result := leBytes 4 l.gen.toNat } else s.finish t { status := 0x0A })
    else
      let gen := ((s.mbox.sessions.find? (fun e => e.1 == t.session.toNat)).map (fun e => e.2.gen)).getD 0
      let l' : Lease := { held := true, broken := false, session := t.session, sessionGen := gen, gen := l.gen + 1 }
      ({ s with mbox := { s.mbox with leases := sset s.mbox.leases (leaseIx kind ix) l' } } : State).finish t
        { status := if l.broken then 0x0B else 0, result := leBytes 4 l'.gen.toNat }))

/-- LEASE_RELEASE (R612). -/
def execLeaseRelease (t : Nat) (s : State) : Host.Outcome State Fault Refusal :=
  .next (runCommand s t 0x53 (fun _ => true) (fun _ => whole 8 1 ++ whole 12 4) (fun t s =>
    let kind := param t 8 1
    let ix := param t 12 4
    let l := sget {} s.mbox.leases (leaseIx kind ix)
    if !leaseOk s kind ix then s.finish t { status := 0x3E }
    else if !l.held ∨ l.session ≠ t.session then s.finish t { status := 0x3D }
    else ({ s with mbox := { s.mbox with leases := sset s.mbox.leases (leaseIx kind ix) { l with held := false } } } : State).finish t (okReply [])))

/-- The records that a LOG_READ copies: from sequence number first on, or from the oldest held, at most n. -/
def logRecords (q : RecordRing) (first n : Nat) : List (Nat × W256) := (q.records.filter (fun e => decide (first ≤ e.1))).take n

/-- LOG_READ (R557, R638). -/
def execLogRead (t : Nat) (s : State) : Host.Outcome State Fault Refusal :=
  .next (runCommand s t 0x60 (fun _ => true) (fun _ => whole 8 2 ++ whole 12 16) (fun t s =>
    let log := param t 8 1
    let i := param t 9 1
    let first := param t 12 4
    if 2 < log then s.finish t { status := 4 }
    else if log = 2 ∧ (32 ≤ i ∨ (s.suite i).state = .none) then s.finish t { status := 8 } else
    let q := if log = 0 then s.devLog else if log = 1 then s.errLog else (s.suite i).errq
    let l := logRecords q first (param t 24 4 / 32)
    let next := (l.getLast?.map (fun e => e.1 + 1)).getD first
    let q' := { q with copied := max q.copied next }
    let s := if log = 0 then { s with devLog := q' } else if log = 1 then { s with errLog := q' } else s.updSuite i (fun u => { u with errq := q' })
    let s := if l.isEmpty then s else s.dmaWrite t.fn (param t 16 8) (l.flatMap (fun e => leBytes 32 e.2.toNat))
    s.finish t (okReply (leBytes 4 (32 * l.length) ++ leBytes 4 next))))

/-! ### Device resets and drains -/

/-- The MODE of a DEVICE_RESET. -/
def resetMode (t : Taken) : Nat := param t 8 1

/-- DEVICE_RESET MODE 0 (R541): no completion is written (R506). A MODE above 4 fails. -/
def execDeviceResetWarm (t : Nat) (s : State) : Host.Outcome State Fault Refusal :=
  .next (runCommand s t 0x70 (fun t => resetMode t == 0 || decide (4 < resetMode t)) (fun _ => whole 8 1) (fun t s =>
    if resetMode t = 0 then s.warmReset 3 false else s.finish t { status := 4 }))

/-- A drain begins (Table 14.12): every RUNNING suite is asked to stop. -/
def State.beginDrain (s : State) (mode : Nat) : State :=
  let s := ({ s with drainMode := mode, drainAt := s.now }).setDevState .draining
  (List.range 32).foldl (fun s i => if (s.suite i).state = .running then s.askStop i else s) s

/-- DEVICE_RESET MODE 1 (R517). -/
def execDeviceResetDrainedWarm (t : Nat) (s : State) : Host.Outcome State Fault Refusal :=
  .next (runCommand s t 0x70 (fun t => resetMode t == 1) (fun _ => whole 8 1) (fun t s => (s.keepRunning t).beginDrain 1))

/-- DEVICE_RESET MODE 2 (R517, R520). -/
def execDeviceResetDrainedQuiesce (t : Nat) (s : State) : Host.Outcome State Fault Refusal :=
  .next (runCommand s t 0x70 (fun t => resetMode t == 2) (fun _ => whole 8 1) (fun t s =>
    if s.quiesced then s.finish t already else (s.keepRunning t).beginDrain 2))

/-- DEVICE_RESET MODE 4 (R548): not in a 2.x session. -/
def execDeviceResetRepairRetest (t : Nat) (s : State) : Host.Outcome State Fault Refusal :=
  .next (runCommand s t 0x70 (fun t => resetMode t == 4) (fun _ => whole 8 1) (fun t s =>
    if s.versionOf t < 0x0300 then s.finish t { status := 4 } else s.warmReset 10 true))

/-- DRAIN_TIMEOUT (R517): 1 s after a drain began, a suite that is still RUNNING is stopped with FORCE 1. -/
def execDrainTimeout (sid : SuiteId) (s : State) : Host.Outcome State Fault Refusal :=
  if s.devState ≠ .draining ∨ s.quiesced ∨ (s.suite sid.val).state ≠ .running then .next s else
  .next ((s.waitUntil (s.drainAt + 15000000000)).forceStop sid.val)

/-- Whether every port that is UP has sent what it had to send (Table 16.8). -/
def gaconDrained (s : State) : Bool :=
  s.gacon.all (fun e => e.2.state != .up || (e.2.txq.all (fun q => q.2.isEmpty) && e.2.cut.isEmpty && e.2.sent.isEmpty))

/-- Whether every accepted write that its suite's slots can store is stored (R358, Table 14.12, Table 16.8). -/
def writesDrained (s : State) : Bool :=
  s.suites.all (fun e => (suiteContexts e.2).all (fun x =>
    let v := s.stream x
    ctxPort x == 12 || (v.wcb.isEmpty && v.dropped.isEmpty) || !stackServes (s.port (ctxPort x)) || !hasWriteSlot s e.1 (ctxPort x)))

/-- DRAIN_COMPLETE (R517, Table 14.12): MODE 1 ends in a warm reset; MODE 2 in QUIESCED, with every stack in self-refresh and every bay OFF. -/
def execDrainComplete (s : State) : Host.Outcome State Fault Refusal :=
  if s.devState ≠ .draining ∨ s.quiesced ∨ anyRunning s ∨ !gaconDrained s ∨ !writesDrained s then .next s else
  if s.drainMode = 1 then .next (s.warmReset 4 false) else
  let s := (List.range 32).foldl (fun s i => (s.clearCells i false).suitePower i .off) s
  let s := { s with quiesced := true, ports := (List.range 12).map (fun p => (p, { s.port p with selfRefresh := true })) }
  .next ((s.mbox.taken.filter (fun t => t.running && t.opcode == 0x0070)).foldl (fun s t => s.finish t (okReply [])) s)

/-! ### Rings -/

/-- TAIL of a command ring written (Table 14.7). -/
def State.ringDoorbell (s : State) (f : HostFn) (v : W64) : State :=
  let q := s.ring f false
  let q := if v.getLsbD 63 then { q with err := false } else q
  let tail := fld v 0 16
  s.setRing f false (if ringSize q ≤ tail.toNat then { q with err := true } else { q with tail := tail })

/-- HEAD of a completion ring written (Table 14.7). -/
def State.ringHead (s : State) (f : HostFn) (v : W64) : State :=
  let q := s.ring f true
  let q := if v.getLsbD 63 then { q with err := false } else q
  let head := fld v 32 16
  s.setRing f true (if ringSize q ≤ head.toNat then { q with err := true } else { q with head := head })

/-- COMMAND_DOORBELL (R502, Table 14.7): TAIL of a command ring. -/
def execCommandDoorbell (f : HostFn) (v : W64) (s : State) : Host.Outcome State Fault Refusal :=
  .next (if s.answers f then (s.freshIn 15).ringDoorbell f v else s)

/-- COMPLETION_HEAD_WRITE (R502, Table 14.7): HEAD of a completion ring. -/
def execCompletionHeadWrite (f : HostFn) (v : W64) (s : State) : Host.Outcome State Fault Refusal :=
  .next (if s.answers f then (s.freshIn 15).ringHead f v else s)

/-- RING_ENABLE (R502, Table 14.6): a write of a ring register. -/
def execRingEnable (f : HostFn) (cpl : Bool) (v : W64) (s : State) : Host.Outcome State Fault Refusal :=
  if !s.answers f then .next s else
  let q := s.ring f cpl
  let addr : BitVec 52 := fld v 12 52
  let size : BitVec 4 := fld v 0 4
  let on := v.getLsbD 4
  let kept := q.enable && (addr != q.addr || size != q.log2size)
  let q' := if q.enable then { q with err := q.err || kept } else { q with addr := addr, log2size := size }
  let bad := on && (decide (q'.log2size.toNat < 4) || decide (12 < q'.log2size.toNat))
  let q' := if bad then { q' with enable := false, err := true }
    else if on then { q' with enable := true, head := 0, tail := 0, phase := true }
    else { q' with enable := false }
  .next (s.setRing f cpl q')

/-- Whether the mailbox is open (R516, R546, Table 15.3): from step 1 of maceration on, and while VIN48 is lost. -/
def mailboxOpen (s : State) : Bool :=
  s.devState != .off && (s.devState != .maceration || s.macer.step != 0 || s.power.lost48)

/-- COMMAND_FETCH (R493, R503): the firmware reserves a completion entry, takes the command at HEAD and advances HEAD. An entry that could
not be read completes at once; one with an unlisted opcode is taken when those before it have started (R505), and completes at once. -/
def execCommandFetch (f : HostFn) (entry : HostRead) (s : State) : Host.Outcome State Fault Refusal :=
  let q := s.ring f false
  let c := s.ring f true
  if !s.answers f ∨ !mailboxOpen s ∨ !q.enable ∨ q.head = q.tail ∨ !c.enable ∨ ringSize c ≤ ringUsed s f + 1 then .next s else
  if (cmdSince (leAt (entry.getD []) 0 2)).isNone ∧ entry.isSome ∧ s.mbox.taken.any (fun e => e.fn == f && !e.running) then .next s else
  let s := (s.setRing f false { q with head := BitVec.ofNat 16 ((q.head.toNat + 1) % ringSize q) }).dmaRead f (q.addr.toNat * 4096 + 64 * q.head.toNat) 64
  let b := slice (entry.getD []) 0 64
  let n := s.mbox.nextTicket
  let t : Taken := { ticket := n, fn := f, opcode := BitVec.ofNat 16 (leAt b 0 2), noint := nbit (leAt b 2 1) 0, cmdId := BitVec.ofNat 16 (leAt b 4 2)
                     session := BitVec.ofNat 16 (leAt b 6 2), params := b, running := false, lost := false }
  let s := { s with mbox := { s.mbox with nextTicket := n + 1, taken := s.mbox.taken ++ [t] } }
  .next (if entry.isNone then s.finish t { status := 0x0C }
    else if (cmdSince t.opcode.toNat).isNone then s.finish t { status := unlistedStatus s t } else s)

/-! ### Function Level Resets -/

/-- A function's ring registers as its reset leaves them: the pointer registers are of domain WARM (Tables 14.6, 14.7). -/
def State.resetRing (s : State) (f : HostFn) (cpl : Bool) : State :=
  let q := s.ring f cpl
  s.setRing f cpl { q with addr := 0, enable := false, log2size := 4 }

/-- A function's PCIe registers at reset. -/
def State.resetVectors (s : State) (f : HostFn) : State :=
  { s with pcie := { s.pcie with vectors := s.pcie.vectors.filter (fun e => e.1 / 8 != fnIx f) } }

/-- Commands of a function lose their completions (R494). -/
def State.loseCompletions (s : State) (f : HostFn) : State :=
  { s with mbox := { s.mbox with taken := s.mbox.taken.map (fun t => if t.fn = f then { t with lost := true } else t) } }

/-- FLR_PF (R494). -/
def execFlrPf (s : State) : Host.Outcome State Fault Refusal :=
  let s := (s.breakLeases.keepVersions (fun t => t.fn == .pf)).loseCompletions .pf
  .next ((({ s with mbox := { s.mbox with sessions := [] } }.resetRing .pf false).resetRing .pf true).resetVectors .pf)

/-- FLR_VF (R494, R495). -/
def execFlrVf (sid : SuiteId) (s : State) : Host.Outcome State Fault Refusal :=
  let f : HostFn := .vf sid
  let s := s.loseCompletions f
  let s := ((s.resetRing f false).resetRing f true).resetVectors f
  let s := { s with mbox := { s.mbox with vfApertures := sdel s.mbox.vfApertures sid.val } }
  let dead := (s.suite sid.val).sb.rings.filter (fun e => !e.2.waiting.isEmpty)
  let s := s.updSuite sid.val (fun u => { u with sb := { u.sb with
    rings := u.sb.rings.map (fun e => (e.1, { e.2 with enable := false, waiting := [], told := e.2.told || !e.2.waiting.isEmpty })) } })
  .next (dead.foldl (fun s e => s.ringEvent sid.val e.1) s)

/-- PERST_N falling (R542): a warm reset, but during maceration only of the PCIe port and its functions. -/
def execPerstN (s : State) : Host.Outcome State Fault Refusal :=
  let s := { s with power := { s.power with perstLow := true, linkUp := false } }
  if s.devState = .off then .next s
  else if s.devState = .maceration then .next { s.breakLeases.endMailbox with pcie := {} }
  else .next (s.warmReset 2 false)

/-- PERST_N rising (R489, Table 15.2): the link trains and configuration space answers, when maceration step 1 has begun. -/
def execPerstNDeassertion (s : State) : Host.Outcome State Fault Refusal :=
  .next ({ s with power := { s.power with perstLow := false } } : State).trainLink

/-- DEVICE_FATAL_ERROR (R574), in the states of Table 14.12. -/
def execDeviceFatalError (s : State) : Host.Outcome State Fault Refusal :=
  if s.devState = .ready ∨ s.devState = .active ∨ s.devState = .draining then .next s.deviceFatal else .next s

end Sys2Proof.Machine
end

