-- ==== Sys2Proof/Machine/Link.lean ====
section
/-!
DEFINITION. The Gacon link layer (R432–R444), training (R445, R446), lane failover (R448–R451) and DOMAIN_ID (R452).
-/

namespace Sys2Proof.Machine

/-! ### Link flits -/

/-- Fields of a link flit (Table 12.1, R435). -/
def lfSeq (f : BitVec 2144) : BitVec 12 := fld f 0 12
def lfAck (f : BitVec 2144) : BitVec 12 := fld f 12 12
def lfVc (f : BitVec 2144) : Nat := (fld f 24 3).toNat
def lfFirst (f : BitVec 2144) : Bool := f.getLsbD 27
def lfLast (f : BitVec 2144) : Bool := f.getLsbD 28
def lfCvc (f : BitVec 2144) : Nat := (fld f 32 3).toNat
def lfCount (f : BitVec 2144) : Nat := (fld f 35 13).toNat
def lfPayload (f : BitVec 2144) : List Byte := leBytes 256 (fld f 64 2048).toNat
/-- Payload byte i of a link flit. -/
def lfByte (f : BitVec 2144) (i : Nat) : Nat := (fld f (64 + 8 * i) 8).toNat
/-- Whether a link flit's CRC agrees (R435). -/
def lfCrcOk (f : BitVec 2144) : Bool := fld f 2112 32 == crc32c (leBytes 264 (fld f 0 2112).toNat)

/-- A link flit of a header and payload, with its CRC. -/
def linkFlit (hdr : Nat) (payload : List Byte) : BitVec 2144 :=
  let body := hdr + leNat (slice payload 0 256) * 2 ^ 64
  BitVec.ofNat 2144 (body + (crc32c (leBytes 264 body)).toNat * 2 ^ 2112)

/-- The first virtual channel with credits to return, and their number (R442). -/
def creditsOut (q : GaconPort) : Nat × Nat :=
  match findBelow 5 (fun v => nth q.giveBack v 0 != 0) with
  | some v => (v, min 8191 (nth q.giveBack v 0))
  | none => (0, 0)

/-- Subtraction at an index. -/
def subAt (l : List Nat) (v k : Nat) : List Nat := (List.range 5).map (fun i => nth l i 0 - (if i = v then k else 0))

/-- The header of the next flit of a port, and the port with the returned credits taken. -/
def nextHeader (q : GaconPort) (seqNo vc : Nat) (first last : Bool) : Nat × GaconPort :=
  let (cvc, n) := creditsOut q
  (seqNo + q.ackNo.toNat * 2 ^ 12 + vc * 2 ^ 24 + b2n first * 2 ^ 27 + b2n last * 2 ^ 28 + cvc * 2 ^ 32 + n * 2 ^ 35,
   { q with giveBack := subAt q.giveBack cvc n })

/-- A control flit for the next opportunity (R436): type and payload bytes from byte 4 on. -/
def queueControl (q : GaconPort) (type : Nat) (bytes : List Byte) : GaconPort :=
  let (h, q) := nextHeader q 0 7 false false
  { q with control := q.control ++ [linkFlit h ([BitVec.ofNat 8 type, 0, 0, 0] ++ bytes)] }

/-- A NAK of the expected SEQ (R436, R438). -/
def queueNak (q : GaconPort) (now : Nat) : GaconPort :=
  { queueControl q 1 (leBytes 2 q.expSeq.toNat) with nakOut := true, nakAt := now }

/-- ACK and returned credits of an accepted flit (R437, R442): flits leave the replay buffer when ACK advances over them (log 99). -/
def takeAck (q : GaconPort) (f : BitVec 2144) (now : Nat) : GaconPort :=
  let live := fun (k : BitVec 12) => lfAck f == q.ackSeen || decide (2048 ≤ (lfAck f - k).toNat)
  let r := q.replay.filter (fun e => live e.1)
  { q with replay := r, resend := q.resend.filter (fun e => live e.1), sent := q.sent.filter (fun e => live e.1)
           ackAt := if r.length < q.replay.length then now else q.ackAt, ackSeen := lfAck f
           credits := if lfCvc f < 5 then addAt q.credits (lfCvc f) (lfCount f) else q.credits }

/-- The suites whose traffic uses a port (R439): those with contexts of its engine, and those of which it sends a transaction. -/
def gaconSuites (s : State) (g : Nat) : List Nat :=
  let q := s.gport g
  let l := q.sent.map (fun e => e.2.2) ++ q.cut.map (fun e => e.2.txn) ++ q.txq.flatMap (fun e => e.2)
  (List.range 32).filter (fun i => l.any (fun t => t.suite.map (·.val) == some i) || (s.suite i).contexts.any (fun k => match k.2.2 with
    | .gacon h _ => h.val == g
    | _ => false))

/-- The port discards what it was to send (R451): notices for what is posted, VOID tiles for READs of this part. -/
def State.discardSends (s : State) (g : Nat) : State :=
  let q := s.gport g
  let l := q.sent.map (fun e => (e.2.1, e.2.2)) ++ q.cut.map (fun e => (e.1, e.2.txn)) ++ q.txq.flatMap (fun e => e.2.map (fun t => (e.1, t)))
  let s := s.setGport g { q with sent := [], cut := [], txq := [], replay := [], resend := [], control := [], rxSwap := none, txSwap := none, rxReplay := 0, txReplay := false, nakOut := false }
  l.foldl (fun s e =>
    let (vc, t) := e
    if txnOp t = 1 then (if txnSrc t = s.part.toNat then s.voidReturn (BitVec.ofNat 32 (txnSeq t)) else s.noRoute vc t 11)
    else if txnOp t = 2 ∨ txnOp t = 5 then s
    else s.noRoute vc t 11) s

/-- The port leaves its state for FAILED or DOWN with a FAIL_REASON (Table 12.3). -/
def State.portDown (s : State) (g : Nat) (st : PortState) (reason : Nat) : State :=
  let was := portUp (s.gport g)
  let s := s.updGport g (fun q => { q with state := st, failReason := BitVec.ofNat 4 reason })
  if was then s.discardSends g else s

/-- The lanes of a mask, in increasing order. -/
def lanes (m : BitVec 10) : List Nat := (List.range 10).filter (fun i => m.getLsbD i)

/-- The spares of a direction that have not failed (R432). -/
def spares (failed : BitVec 10) (l : List Nat) : List Nat := l.filter (fun k => !failed.getLsbD k)

/-- Ticks of a codeword of 5,440 bits on a port's lanes, at 212.5 or 106.25 Gb/s a lane (R433, R434). -/
def codewordTicks (q : GaconPort) : Nat := 48 * (if q.stLanes4 then 2 else 1) * (if q.stRate100 then 2 else 1)

/-- The number of a direction's codeword now, from that of the port's UP. -/
def codewordNow (q : GaconPort) (base : W64) (now : Nat) : W64 := base + BitVec.ofNat 64 ((now - q.upAt) / codewordTicks q)

/-- When a codeword of a direction begins; at once, for one that has passed. -/
def codewordAt (q : GaconPort) (base cw : W64) (now : Nat) : Nat :=
  if 2 ^ 63 ≤ (cw - codewordNow q base now).toNat then now else q.upAt + (cw - base).toNat * codewordTicks q

/-- The switch codeword that this end names: at least 150 ns after its own send, and within the 2 µs of a failover (R449). Which one is
open (log 1): v. -/
def switchWord (q : GaconPort) (now : Nat) (v : W64) : W64 :=
  let t := codewordTicks q
  codewordNow q q.rxWord now + BitVec.ofNat 64 (cdiv 2250 t + 1 + v.toNat % (27000 / t))

/-- FAILOVER ends when no switch and no replay is left (Table 12.3). -/
def settleFailover (q : GaconPort) : GaconPort :=
  if q.state = .failover ∧ q.rxSwap.isNone ∧ q.txSwap.isNone ∧ q.rxReplay = 0 ∧ q.txReplay = false then { q with state := .up } else q

/-- A failed lane of the receive map begins its switch (R449): a spare takes its logical lane by SWAP, or the port fails. One direction
switches one lane at a time; another waits. -/
def State.beginSwap (s : State) (g : Nat) : State :=
  let q := s.gport g
  match if q.rxSwap.isSome then none else q.rxMap.findIdx? (fun l => q.rxFailed.getLsbD l) with
  | none => s
  | some k =>
    match spares q.rxFailed q.rxSpares with
    | sp :: more =>
      if !q.features.getLsbD 4 then s.portDown g .failed 7 else
      let (v, s) := s.fresh
      let cw := switchWord q s.now v
      let q := queueControl q 2 ([1, BitVec.ofNat 8 k, BitVec.ofNat 8 sp, 0] ++ leBytes 8 cw.toNat)
      s.setGport g { q with state := .failover, rxSpares := more, rxSwap := some ⟨k, sp, cw, false⟩ }
    | [] => s.portDown g .failed 7

/-- A receive lane fails (R448, R449). -/
def State.failLane (s : State) (g lane : Nat) : State :=
  if !portUp (s.gport g) then s else
  (s.updGport g (fun q => { q with rxFailed := q.rxFailed ||| BitVec.ofNat 10 (2 ^ lane) })).beginSwap g

/-- The window of a suite at a port in which something is counted: a new one keeps of the one before what R282 and R448 ask. -/
def replayWindow (old : ReplayWin) (w : Nat) : ReplayWin :=
  if old.window = w then old
  else if old.window + 1 = w then { window := w, excess := decide (allotment 3 < old.replays), before := old.syms }
  else { window := w }

/-- A window with one replay more. -/
def countReplay (old : ReplayWin) (w : Nat) : ReplayWin :=
  let v := replayWindow old w
  { v with replays := v.replays + 1 }

/-- The lane of the receive map with the most corrected symbols in a window and the one before (R448); of equals the lowest logical one
(DESIGN CHOICE, log 87). -/
def worstLane (m : List Nat) (v : ReplayWin) : Nat :=
  let n := fun (l : Nat) => sget 0 v.syms l + sget 0 v.before l
  m.foldl (fun b l => if n b < n l then l else b) (nth m 0 0)

/-- A replay of a port is reported to the root of a suite as ORIGIN 3; a port over its allotment in two successive windows fails a lane over
(R282, R448). -/
def State.reportReplay (s : State) (g i : Nat) : State :=
  let v := countReplay (sget {} (s.gport g).wins i) (s.suite i).hold.window
  let s := (s.updGport g (fun q => { q with wins := sset q.wins i v })).boundedCause i 3
  if v.replays = allotment 3 + 1 ∧ v.excess then s.failLane g (worstLane (s.gport g).rxMap v) else s

/-- The codewords and symbols that FEC has met on a port's receive lanes are counted (R434, R448): a lane with more than 1,000,000 corrected
symbols in a millisecond fails. Milliseconds are counted from power-on (DESIGN CHOICE, log 87). -/
def State.countFec (s : State) (g : Nat) (fec : FecResult) : State :=
  let q := s.gport g
  let ms := s.now / 15000000
  let l := q.rxMap.zip fec.symbols
  let now := fun (k n : Nat) => (let e := sget (0, 0) q.laneSyms k; (ms, if e.1 = ms then e.2 + n else n))
  let s := s.updGport g (fun q => { q with
    fecCorr := satAdd q.fecCorr fec.corrected, fecUncorr := satAdd q.fecUncorr fec.uncorrectable
    laneSyms := l.foldl (fun m e => sset m e.1 (now e.1 e.2)) q.laneSyms })
  let s := if fec.symbols.isEmpty then s else (gaconSuites s g).foldl (fun s i => s.updGport g (fun q =>
    let v := replayWindow (sget {} q.wins i) (s.suite i).hold.window
    { q with wins := sset q.wins i { v with syms := l.foldl (fun m e => sset m e.1 (sget 0 m e.1 + e.2)) v.syms } })) s
  (l.filter (fun e => decide ((sget (0, 0) q.laneSyms e.1).1 ≠ ms ∨ (sget (0, 0) q.laneSyms e.1).2 ≤ 1000000) && decide (1000000 < (now e.1 e.2).2))).foldl
    (fun s e => s.failLane g e.1) s

/-- A resend of buffered flits (R438, R439): counted, and reported to the roots as ORIGIN 3 unless a lane failover caused it (R450). -/
def State.replayFrom (s : State) (g : Nat) (l : List (BitVec 12 × BitVec 2144)) : State :=
  if l.isEmpty then s.updGport g (fun q => { q with resend := l }) else
  let covered := (s.gport g).state == .failover
  let s := (s.updGport g (fun q => { q with resend := l, replays := satAdd q.replays 1, ackAt := s.now })).countDev 0x211 g 1
  if covered then s else (gaconSuites s g).foldl (fun s i => s.reportReplay g i) s

/-- Whether a part of this one is being sent or received for a suite (R613). -/
def State.meterGacon (s : State) (i n : Nat) : State :=
  s.updSuite i (fun u => { u with meter := { u.meter with gaconBytes := u.meter.gaconBytes + BitVec.ofNat 64 n } })

/-- A received transaction whose last flit has come is parsed (R456); one with a reserved OP is dropped and logged. -/
def State.assemble (s : State) (g vc : Nat) (bs : List Byte) : State :=
  let hdr := BitVec.ofNat 256 (leAt bs 0 32)
  let op := (fld hdr 0 4).toNat
  let len := (fld hdr 96 32).toNat
  let body := if op = 0 ∨ op = 2 then (bs.drop 32).take len else if op = 4 then slice bs 32 8 else if op = 1 then [] else slice bs 32 32
  let t : Txn := ⟨hdr, body, some (Fin.ofNat 16 g), none⟩
  let s := if txnSrc t = s.part.toNat then s.meterGacon (txnSuite t) (256 * txnFlits t) else s
  if op > 5 then (s.updGport g (fun q => { q with giveBack := addAt q.giveBack vc (cdiv bs.length 256) })).logEvent 0xFF 0 op none
  else s.updGport g (fun q => { q with rxq := supd [] q.rxq vc (· ++ [t]) })

/-- LINK_FLIT_RECEIVE (R438, R442, R443): a data flit that arrives intact and in order is accepted; another is discarded and, once,
answered with NAK. What FEC corrected, or could not correct, is counted (R434). -/
def execLinkFlitReceive (g : GPort) (flit : BitVec 2144) (fec : FecResult) (s : State) : Host.Outcome State Fault Refusal :=
  if !portUp (s.gport g.val) then .next s else
  let s := s.countFec g.val fec
  let q := s.gport g.val
  if !portUp q then .next s else
  let crc := lfCrcOk flit
  if !fec.lost ∧ crc ∧ 5 ≤ lfVc flit then .next s
  else if fec.lost ∨ !crc ∨ lfSeq flit ≠ q.expSeq then
    let q := if !fec.lost ∧ !crc then { q with crcErr := satAdd q.crcErr 1 } else q
    .next (s.setGport g.val (if q.nakOut then q else queueNak q s.now))
  else
    let q := takeAck q flit s.now
    let q := settleFailover { q with expSeq := q.expSeq + 1, ackNo := q.expSeq, nakOut := false, rxReplay := q.rxReplay - 1 }
    let vc := lfVc flit
    let bs := (if lfFirst flit then [] else sget [] q.rxFlits vc) ++ lfPayload flit
    if lfLast flit then .next ((s.setGport g.val { q with rxFlits := sset q.rxFlits vc [] }).assemble g.val vc bs)
    else .next (s.setGport g.val { q with rxFlits := sset q.rxFlits vc bs })

/-- The link flits of a transaction (R456): payload, FIRST, LAST. -/
def cutTxn (t : Txn) : List LinkPart :=
  let bs := leBytes 32 t.hdr.toNat ++ t.body
  let n := txnFlits t
  (List.range n).map (fun k => ⟨slice bs (256 * k) 256, k == 0, k + 1 == n⟩)

/-- Whether a virtual channel has a flit ready, and whether it may be sent (R437, R442). -/
def vcReady (q : GaconPort) (vc : Nat) : Bool := q.cut.any (fun e => e.1 == vc) || !(sget [] q.txq vc).isEmpty
def vcMay (q : GaconPort) (vc : Nat) : Bool := vcReady q vc && decide (0 < nth q.credits vc 0) && decide (q.replay.length < 512)

/-- The next data flit of a virtual channel is sent (R442, R443). -/
def State.sendData (s : State) (g vc : Nat) : State :=
  let q := s.gport g
  let (cur, q, s) : Option Cut × GaconPort × State :=
    match q.cut.find? (fun e => e.1 == vc) with
    | some (_, c) => (some c, q, s)
    | none =>
      match sget [] q.txq vc with
      | [] => (none, q, s)
      | t :: rest =>
        (some ⟨t, cutTxn t⟩, { q with txq := sset q.txq vc rest },
         match t.suite with
         | some i => s.meterGacon i.val (256 * txnFlits t)
         | none => s)
  match cur with
  | some ⟨t, p :: more⟩ =>
    let (h, q) := nextHeader q q.nextSeq.toNat vc p.first p.last
    let f := linkFlit h p.bytes
    let q := { q with
      cut := if more.isEmpty then sdel q.cut vc else sset q.cut vc ⟨t, more⟩
      sent := if p.last then q.sent ++ [(q.nextSeq, vc, t)] else q.sent
      credits := subAt q.credits vc 1, replay := q.replay ++ [(q.nextSeq, f)], nextSeq := q.nextSeq + 1
      ackAt := if q.replay.isEmpty then s.now else q.ackAt, out := q.out ++ [f] }
    (s.setGport g q).countDev 0x210 g 1
  | _ => s

/-- FLIT_OPPORTUNITY (R436, R438, R444): a control flit, a replayed flit, a data flit by the transmit pattern, or IDLE. -/
def execFlitOpportunity (g : GPort) (s : State) : Host.Outcome State Fault Refusal :=
  let q := s.gport g.val
  if !portUp q then .next s else
  let pat := (sget 4 q.txPat q.txPos).toNat
  let q := { q with txPos := (q.txPos + 1) % 64 }
  match q.control with
  | f :: rest => .next (s.setGport g.val { q with control := rest, out := q.out ++ [f] })
  | [] =>
    match q.resend with
    | (_, f) :: rest =>
      .next (s.setGport g.val (settleFailover { q with resend := rest, out := q.out ++ [f], txReplay := q.txReplay && !rest.isEmpty }))
    | [] =>
      let s := s.setGport g.val q
      let s := if vcReady q pat ∧ nth q.credits pat 0 = 0 then s.countDev 0x212 g.val 1 else s
      match if q.txSwap.isSome then none else [pat, 4, 0, 1, 2, 3].find? (vcMay q) with
      | some vc => .next (s.sendData g.val vc)
      | none =>
        let (h, q) := nextHeader (s.gport g.val) 0 7 false false
        .next (s.setGport g.val { q with out := q.out ++ [linkFlit h []] })

/-- A control flit of a type that arrives intact (R436). -/
def controlOk (q : GaconPort) (f : BitVec 2144) (type : Nat) : Bool := portUp q && lfCrcOk f && lfVc f == 7 && lfByte f 0 == type

/-- IDLE (R436): it carries ACK and returned credits. -/
def execGaconIdle (g : GPort) (flit : BitVec 2144) (s : State) : Host.Outcome State Fault Refusal :=
  let q := s.gport g.val
  .next (if controlOk q flit 0 then s.setGport g.val (takeAck q flit s.now) else s)

/-- NAK (R438): every buffered flit from the named SEQ on is sent again before any new one. -/
def execGaconNak (g : GPort) (flit : BitVec 2144) (s : State) : Host.Outcome State Fault Refusal :=
  let q := s.gport g.val
  if !controlOk q flit 1 then .next s else
  let from_ : BitVec 12 := fld flit 96 12
  let q := takeAck q flit s.now
  let q := { q with replay := q.replay.filter (fun e => decide ((e.1 - from_).toNat < 2048)), sent := q.sent.filter (fun e => decide ((e.1 - from_).toNat < 2048)) }
  let q := if q.replay.isEmpty then settleFailover { q with txReplay := false } else q
  .next ((s.setGport g.val q).replayFrom g.val q.replay)

/-- NAK_TIMEOUT (R438): 1 µs after a NAK that brought nothing, the NAK is sent again. -/
def execNakTimeout (g : GPort) (s : State) : Host.Outcome State Fault Refusal :=
  let q := s.gport g.val
  if !portUp q || !q.nakOut then .next s else
  let s := s.waitUntil (q.nakAt + 15000)
  .next (s.updGport g.val (fun q => queueNak q s.now))

/-- REPLAY_TIMEOUT (R439): ACK has not advanced for 2 µs while flits are unacknowledged. -/
def execReplayTimeout (g : GPort) (s : State) : Host.Outcome State Fault Refusal :=
  let q := s.gport g.val
  if !portUp q || q.replay.isEmpty then .next s else
  let s := s.waitUntil (q.ackAt + 30000)
  .next (s.replayFrom g.val (s.gport g.val).replay)

/-! ### Leaving UP -/

/-- PARTNER_SIGNAL_LOST (Table 12.3). -/
def execPartnerSignalLost (g : GPort) (s : State) : Host.Outcome State Fault Refusal :=
  .next (if portUp (s.gport g.val) then s.portDown g.val .failed 1 else s)

/-! ### Training -/

/-- Local address of a port's register. -/
def gcAddr (g off : Nat) : Nat := 0x023000000000 + g * 2 ^ 20 + off

/-- The fields of GC_CTL that a write sets (Table 12.9). -/
def putGcCtl (q : GaconPort) (v : W64) : GaconPort := { q with feat := fld v 8 5, rate100 := v.getLsbD 1, lanes4 := v.getLsbD 0 }

/-- A write of GC_CTL (Table 12.3, R445); with DOWN, TRAIN is not acted on. -/
def State.writeGcCtl (s : State) (f : HostFn) (g : Nat) (v : W64) : State :=
  if f ≠ .pf then s.logDiscard (some f) (gcAddr g 0) else
  let s := s.updGport g (fun q => putGcCtl q v)
  let q := s.gport g
  if v.getLsbD 62 then (if q.state = .down then s else s.portDown g .down 8)
  else if v.getLsbD 63 ∧ (q.state = .down ∨ q.state = .failed) then
    (if s.domainValid then s.setGport g { q with state := .detect, failReason := 0, rxFailed := 0, txFailed := 0 }
     else s.setGport g { q with failReason := 4 })
  else s

/-- GC_CTL_TRAIN (R445): TRAIN is written. -/
def execGcCtlTrain (f : HostFn) (g : GPort) (v : W64) (s : State) : Host.Outcome State Fault Refusal :=
  if !s.answers f then .next s else
  .next (s.writeGcCtl f g.val ((v &&& ~~~ (1#64 <<< 62)) ||| (1#64 <<< 63)))
/-- GC_CTL_DOWN (R445): DOWN is written. -/
def execGcCtlDown (f : HostFn) (g : GPort) (v : W64) (s : State) : Host.Outcome State Fault Refusal :=
  if !s.answers f then .next s else
  .next (s.writeGcCtl f g.val (v ||| (1#64 <<< 62)))

/-- DETECT (Table 12.3): signal is the lanes with partner signal within 1 ms. -/
def execDetect (g : GPort) (signal : BitVec 10) (s : State) : Host.Outcome State Fault Refusal :=
  let q := s.gport g.val
  if q.state ≠ .detect then .next s
  else if 4 ≤ (lanes signal).length then .next (s.setGport g.val { q with state := .equalise })
  else .next (s.portDown g.val .failed 1)

/-- EQUALISE (Table 12.3): the lanes that equalised within 15 ms, and whether they did so only at the 100 Gb/s class. -/
def execEqualise (g : GPort) (rxGood txGood : BitVec 10) (slow : Bool) (s : State) : Host.Outcome State Fault Refusal :=
  let q := s.gport g.val
  if q.state ≠ .equalise then .next s
  else if 4 ≤ (lanes rxGood).length ∧ 4 ≤ (lanes txGood).length then
    .next (s.setGport g.val { q with state := .negotiate, rxFailed := ~~~ rxGood, txFailed := ~~~ txGood, slow := slow })
  else .next (s.portDown g.val .failed 2)

/-- The receive buffers of the five virtual channels, in flits (Table 12.2). -/
def rxBuffers : List Nat := [256, 256, 256, 256, 64]

/-- The capability block that a port sends (R446). -/
def ownBlock (part : BitVec 6) (g : GPort) (q : GaconPort) : CapBlock :=
  { verMin := 0x10, verMax := 0x20, lanes4 := q.lanes4, rate100 := q.rate100, feat := q.feat, part, port := BitVec.ofNat 4 g.val
    goodLanes8 := decide (8 ≤ (lanes (~~~ q.rxFailed)).length) && decide (8 ≤ (lanes (~~~ q.txFailed)).length), credits := rxBuffers }

/-- NEGOTIATE (R446): the port sends its block, and the partner's capability block gives version, lanes, rate, features and credits. The M4 advertises 1.0 to 2.0. -/
def execNegotiate (g : GPort) (cap : CapBlock) (s : State) : Host.Outcome State Fault Refusal :=
  let q := s.gport g.val
  if q.state ≠ .negotiate then .next s else
  let own := ownBlock s.part g q
  let s := s.setGport g.val { q with cap := some own }
  let v := if cap.verMax ≤ own.verMax then cap.verMax else own.verMax
  let low := if cap.verMin ≤ own.verMin then own.verMin else cap.verMin
  if v < low then .next (s.portDown g.val .failed 3)
  else if cap.part = s.part then .next (s.portDown g.val .failed 5)
  else
    let full := own.goodLanes8 && cap.goodLanes8 && !q.lanes4 && !cap.lanes4
    let feats := q.feat &&& cap.feat
    .next (s.setGport g.val { q with
      state := .align, partnerPart := cap.part, partnerG := cap.port, version := v, stLanes4 := !full
      stRate100 := q.rate100 || cap.rate100 || q.slow, features := if v < 0x20 then feats &&& 0x13 else feats
      credits := (List.range 5).map (fun i => nth cap.credits i 0), cap := some own })

/-- ALIGN (Table 12.3, R432): with deskew and FEC lock within 1 ms the port is UP, SEQ and ACK at 0. The codeword numbers are open (log 1). -/
def execAlign (g : GPort) (lock : Bool) (s : State) : Host.Outcome State Fault Refusal :=
  let q := s.gport g.val
  if q.state ≠ .align then .next s
  else if !lock then .next (s.portDown g.val .failed 6)
  else
    let n := if q.stLanes4 then 4 else 8
    let (rw, s) := s.fresh
    let (tw, s) := s.fresh
    .next (s.setGport g.val { q with
      state := .up, nextSeq := 0, expSeq := 0, ackNo := 0, ackSeen := 0, upAt := s.now, rxWord := rw, txWord := tw, replay := [], resend := [], control := [], rxFlits := [], nakOut := false
      giveBack := [0, 0, 0, 0, 0], ackAt := s.now, rxSwap := none, txSwap := none, rxReplay := 0, txReplay := false
      rxMap := (lanes (~~~ q.rxFailed)).take n, rxSpares := ((lanes (~~~ q.rxFailed)).drop n).take 2, txMap := (lanes (~~~ q.txFailed)).take n })

/-- DOMAIN_ID_WRITE (R452). -/
def execDomainIdWrite (f : HostFn) (v : W64) (s : State) : Host.Outcome State Fault Refusal :=
  if !s.answers f then .next s else
  let still := (List.range 16).all (fun g => (s.gport g).state == .down || (s.gport g).state == .failed)
  if f ≠ .pf ∨ !still then .next (s.logDiscard (some f) 0x030000000020)
  else .next { s with domainValid := v.getLsbD 63, part := fld v 0 6 }

/-! ### Lane failover -/

/-- LANE_FAILURE (R448, R449): a receiver declares a lane failed. What a transmitter's lane does is declared by the other end. -/
def execLaneFailure (g : GPort) (rx : Bool) (lane : Fin 10) (s : State) : Host.Outcome State Fault Refusal :=
  .next (if rx then s.failLane g.val lane.val else s)

/-- SWAP (R449): the transmitting end answers SWAP_ACK and sends no new data until the switch. -/
def execGaconSwap (g : GPort) (flit : BitVec 2144) (s : State) : Host.Outcome State Fault Refusal :=
  let q := s.gport g.val
  if !controlOk q flit 2 then .next s else
  let k := lfByte flit 5
  let sp := lfByte flit 6
  let q := takeAck q flit s.now
  let q := { q with txFailed := q.txFailed ||| BitVec.ofNat 10 (2 ^ (nth q.txMap k 0)) }
  let q := queueControl q 3 ((lfPayload flit).drop 4 |>.take 12)
  .next (s.setGport g.val { q with state := .failover, txSwap := some ⟨k, sp, fld flit 128 64, true⟩ })

/-- SWAP_ACK (R449): it agrees to the switch whose SWAP it echoes; it carries ACK and credits. -/
def execGaconSwapAck (g : GPort) (flit : BitVec 2144) (s : State) : Host.Outcome State Fault Refusal :=
  let q := s.gport g.val
  if !controlOk q flit 3 then .next s else
  let echoes := fun (w : Swap) => lfByte flit 4 == 1 && lfByte flit 5 == w.logical && lfByte flit 6 == w.spare && fld flit 128 64 == w.codeword
  .next (s.setGport g.val { takeAck q flit s.now with rxSwap := q.rxSwap.map (fun w => { w with acked := w.acked || echoes w }) })

/-- FAILOVER_SWITCH (R449): at the named codeword an end moves the logical lane to the spare; the receiver then sends NAK, and how many flits
the partner replays is open (log 1). A switch that the other end has not acknowledged does not come (DESIGN CHOICE, log 87). -/
def execFailoverSwitch (g : GPort) (rx : Bool) (s : State) : Host.Outcome State Fault Refusal :=
  let q := s.gport g.val
  match if rx then q.rxSwap else q.txSwap with
  | none => .next s
  | some w =>
    if !w.acked then .next s else
    let s := s.waitUntil (codewordAt q (if rx then q.rxWord else q.txWord) w.codeword s.now)
    let q := s.gport g.val
    let q := { q with failovers := satAdd q.failovers 1 }
    if rx then
      let (v, s) := s.fresh
      let q := queueNak { q with rxSwap := none, rxMap := q.rxMap.set w.logical w.spare, rxReplay := v.toNat % 513 } s.now
      .next ((s.setGport g.val (settleFailover q)).beginSwap g.val)
    else .next (s.setGport g.val { q with txSwap := none, txMap := q.txMap.set w.logical w.spare, txReplay := true })

end Sys2Proof.Machine
end

