-- ==== Sys2Proof/Machine/Gacon.lean ====
section
/-!
DEFINITION. Gacon transactions at this part (R453–R466), the Gacon engines (R461–R463) and the remote slots (R338), and landing strips
(R123–R125, R257).
-/

namespace Sys2Proof.Machine

/-! ### Received transactions -/

/-- A transaction for another part (R447, R453, R454): refused without FORWARD or hops, else sent on with one hop less. -/
def State.forwardTxn (s : State) (g vc : Nat) (t : Txn) : State :=
  let s := s.endTxn g vc t
  if txnHops t = 0 then s.noRoute vc t 4
  else if !(s.gport g).features.getLsbD 0 then s.noRoute vc t 3
  else s.sendTxn g vc { t with hdr := t.hdr - BitVec.ofNat 256 (2 ^ 8), arrived := none }

/-- Whether a range lies in a window. -/
def holdsRange (w : Window) (a len : Nat) : Bool := decide (w.base * 2 ^ 24 ≤ a) && decide (a + len ≤ (w.base + w.extents) * 2 ^ 24)

/-- Whether an HBM range lies in a window that its suite's image opens to other parts (R457). -/
def remoteOpen (s : State) (write : Bool) (a len : Nat) : Bool :=
  (List.range 32).any (fun i => (s.suite i).state != .none && (s.suite i).windows.any (fun w =>
    (if write then w.remoteWr else w.remoteRd) && holdsRange w a len))

/-- Whether an HBM range lies in a window that a transaction may reach (R39, R457): one that its suite's image opens to other parts; for a
transaction of this part, one of its own suite. -/
def hbmOpen (s : State) (t : Txn) (a len : Nat) : Bool :=
  if t.arrived.isNone then (s.suite (txnSuite t)).windows.any (fun w => holdsRange w a len) else remoteOpen s (txnOp t == 0) a len

/-- Whether a transaction may reach the scratchpad of a cell (R39, R457). -/
def spadOpen (s : State) (t : Txn) (c : Nat) : Bool :=
  match cellSuite (s.cell c) with
  | none => false
  | some i => if t.arrived.isNone then i == txnSuite t else (s.suite i).remoteSpad

/-- The next remote slot of a stack's port that is assigned to Gacon port g (R458). -/
def State.remoteSlotOf (s : State) (p g : Nat) : Option Nat :=
  if !stackServes (s.port p) then none else
  s.nextSlot p (fun _ i k => slotClass s.repair.split i == 2 && (match k with
    | some (_, a) => a.toNat / 8 == g
    | none => false))

/-- The next remote slot of a die's three ports that is assigned to Gacon port g (R33, R463), with its port. -/
def State.spineSlotOf (s : State) (die g : Nat) : Option (Nat × Nat) :=
  ((List.range 3).filterMap (fun k => (s.remoteSlotOf (3 * die + k) g).map (fun n => (n, 3 * die + k)))).foldl (fun b e =>
    match b with
    | none => some e
    | some f => if e.1 < f.1 then some e else b) none

/-- A remote slot is used for a tile of its suite (R613). -/
def State.useRemoteSlot (s : State) (p n : Nat) : State :=
  let s := s.waitSlot p n
  let s := s.updPort p (fun q => { q with lastSlot := some n })
  let s := match (s.port p).slots.find? (fun e => e.1 == slotIx (s.port p) n) with
    | some e => s.meterHbm e.2.1.toNat
    | none => s
  s.countDev 0x203 p 1

/-- The granules of a WRITE, from address a, that a refresh in slot n displaces (R339). -/
def displacedItems (q : MemPort) (n a len : Nat) : List Nat :=
  (List.range (len / 64)).filter (fun k => (displaced q n).contains ((stackOff a / 64 + k) % 64))

/-- The granules of a WRITE stored in HBM in slot n (R339, R458); one of which a refresh displaces some is decided with the last of them
(R459). -/
def State.storeWrite (s : State) (g vc : Nat) (t : Txn) (n a : Nat) : State :=
  let w := (s.gport g).writes
  let late := displacedItems (s.port (stackOf a)) n a (txnLen t)
  let s := if late.isEmpty then s.endTxn g vc t else s.openWrite g vc t late
  s.updPort (stackOf a) (fun q => storeGranules q n (stackOff a / 64) (fun k => some ⟨g, w, k⟩) ((List.range (txnLen t / 64)).map (fun k =>
    (k, if (txnPoison t).getLsbD k then none else some (slice t.body (64 * k) 64)))))

/-- An inlet track for a frame of a Gacon port, which the spec leaves open (log 1). -/
def State.openTrack (s : State) : Nat × State :=
  let (v, s) := s.fresh
  (v.toNat % 4, s)

/-- The strips of a WRITE into scratchpad leave as landing frames (R458); where the cell's suite does not run, each is lost at once
with reason 9 (R123, R402, R459; log 95). w: the write's number. -/
def State.sendStrips (s : State) (g w : Nat) (t : Txn) (c a : Nat) : State :=
  if ((cellSuite (s.cell c)).map (fun i => (s.suite i).state)) ≠ some .running then
    (List.range (txnLen t / 128)).foldl (fun s k => s.decideStrip (some ⟨g, w, k⟩) (some 9)) s
  else
  let suite := (cellSuite (s.cell c)).getD 0
  (List.range (txnLen t / 128)).foldl (fun s k =>
    let hdr := landHeader (a + 128 * k) c suite (b2n (txnProv t)) (0x80 + g) 0 ||| BitVec.ofNat 256 (txnPgen t * 2 ^ 40)
    let void := (List.range 2).filter (fun h => (txnPoison t).getLsbD (2 * k + h))
    let (fs, s) := frameFlits s hdr (txnProv t) (slice t.body (128 * k) 128) void
    let fs := match fs with
      | h :: r => { h with strip := some ⟨g, w, k⟩ } :: r
      | [] => []
    let (tr, s) := s.openTrack
    s.toInlet (injection c) tr suite fs) s

/-- Scratchpad window of a local address: cell and address in it (R34). -/
def spadOf (a : Nat) : Option (Nat × Nat) :=
  if 0x010000000000 ≤ a ∧ a < 0x010400000000 then some ((a - 0x010000000000) / 2 ^ 22, a % 2 ^ 22) else none
/-- WRITE (R40, R457–R460): forwarded, refused, stored in HBM in a remote slot, or sent to a cell as landing frames. One that is addressed to the
barrier pool is refused with reason 2 (DESIGN CHOICE, log 92: R40 accepts the range, and no rule gives a WRITE or READ of it an effect). -/
def execGaconWrite (g : GPort) (vc : Vc) (s : State) : Host.Outcome State Fault Refusal :=
  match gHead s g.val vc.val 0 with
  | none => .next s
  | some t =>
    if txnDst t ≠ s.part.toNat then .next (s.forwardTxn g.val vc.val t) else
    let a := txnAddr t % 2 ^ 48
    let len := txnLen t
    if isHbm a then
      if a % 64 ≠ 0 ∨ len % 64 ≠ 0 ∨ len = 0 ∨ 4096 < a % 4096 + len ∨ !hbmOpen s t a len then .next (s.refuseTxn g.val vc.val t 2)
      else match s.remoteSlotOf (stackOf a) g.val with
        | none => .next s
        | some n => .next ((s.useRemoteSlot (stackOf a) n).storeWrite g.val vc.val t n a)
    else match spadOf a with
      | some (c, o) =>
        if !spadOpen s t c ∨ o % 128 ≠ 0 ∨ len % 128 ≠ 0 ∨ len = 0 ∨ 4096 < o % 4096 + len then .next (s.refuseTxn g.val vc.val t 2)
        else match s.spineSlotOf (cellDie c) g.val with
        | none => .next s
        | some (n, p) =>
          let w := (s.gport g.val).writes
          .next (((s.useRemoteSlot p n).openWrite g.val vc.val t (List.range (len / 128))).sendStrips g.val w t c o)
      -- a range that R40 refuses has reason 1; the barrier pool, which it accepts and where no rule gives a WRITE an effect, has 2 (DESIGN
      -- CHOICE, log 92)
      | none => .next (s.refuseTxn g.val vc.val t (if (barOf a).isSome then 2 else 1))

/-- A tile as a READ returns it, from its granules: bytes, and those that are marked (Table 12.7). -/
def markTile (l : List (List Byte × Bool)) : List Byte × W64 :=
  (l.flatMap (fun e => e.1), (l.zipIdx).foldl (fun (p : W64) e => if e.1.2 then p ||| (1#64 <<< e.2) else p) 0)

/-- A tile of HBM as a READ returns it: uncorrectable and poisoned granules are marked. -/
def State.fetchTile (s : State) (a : Nat) : List Byte × W64 :=
  markTile ((List.range 64).map (fun k => fetchGranule (s.port (stackOf a)) (stackOff a / 64 + k)))

/-- A pane as a READ returns it (R40): words corrected; granules of a POISONED pane, or with an uncorrectable word, are marked
(DESIGN CHOICE, log 98). -/
def State.fetchPane (s : State) (c o : Nat) : List Byte × W64 :=
  let x := s.cell c
  markTile ((List.range 64).map (fun k =>
    let r := x.readWords ((List.range 16).map (fun j => o + 64 * k + 4 * j))
    ((List.range 64).map (fun b => r.byte (o + 64 * k + b)), x.tag (gPane o) == .poisoned || !r.bad.isEmpty)))

/-- The answer to a READ of HBM in slot n (R457): a RETURN of its tile, which leaves when the granules that a refresh displaces have moved
(R339). -/
def State.answerRead (s : State) (g vc : Nat) (t : Txn) (n a : Nat) : State :=
  let p := stackOf a
  let (d, poison) := s.fetchTile a
  match displaced (s.port p) n with
  | [] => s.sendTxn g vc (returnTxn t (some (d, poison)))
  | out =>
    let keep := out.foldl (fun (m : W64) k => m &&& ~~~(1#64 <<< k)) poison
    s.updPort p (fun q => { out.foldl (fun (q : MemPort) k => { q with maint := supd [] q.maint k (· ++ [.displacedFetch (stackOff a / 64 + k) q.fetchSerial]) }) q with
      fetches := q.fetches ++ [⟨q.fetchSerial, g, vc, t, d, keep, out⟩], fetchSerial := q.fetchSerial + 1 })

/-- READ (R457, R461): answered with a RETURN of the tile, or of LENGTH 0. -/
def execGaconRead (g : GPort) (vc : Vc) (s : State) : Host.Outcome State Fault Refusal :=
  match gHead s g.val vc.val 1 with
  | none => .next s
  | some t =>
    let refused := ((s.endTxn g.val vc.val t).countDev 0x213 g.val 1).sendTxn g.val vc.val (returnTxn t none)
    let may := t.arrived.isNone || (s.gport g.val).features.getLsbD 1
    if txnDst t ≠ s.part.toNat then .next (if may then s.forwardTxn g.val vc.val t else refused) else
    let a := txnAddr t % 2 ^ 48
    let may := may && a % 4096 == 0
    if isHbm a then
      if !may ∨ !hbmOpen s t a 4096 then .next refused
      else match s.remoteSlotOf (stackOf a) g.val with
        | none => .next s
        | some n => .next (((s.useRemoteSlot (stackOf a) n).endTxn g.val vc.val t).answerRead g.val vc.val t n a)
    else match spadOf a with
      | none => .next refused
      | some (c, o) =>
        if !may ∨ !spadOpen s t c then .next refused
        else match s.spineSlotOf (cellDie c) g.val with
          | none => .next s
          | some (n, p) =>
            let s := s.useRemoteSlot p n
            .next ((s.endTxn g.val vc.val t).sendTxn g.val vc.val (returnTxn t (some (s.fetchPane c o))))

/-- RETURN (R462, R463): the tile joins the return buffer of the engine that asked; granules that are poisoned, or all of a LENGTH of 0,
are VOID. -/
def execGaconReturn (g : GPort) (vc : Vc) (s : State) : Host.Outcome State Fault Refusal :=
  match gHead s g.val vc.val 2 with
  | none => .next s
  | some t =>
    if txnDst t ≠ s.part.toNat then .next (s.forwardTxn g.val vc.val t) else
    let s := s.endTxn g.val vc.val t
    let tag : W32 := BitVec.ofNat 32 (txnSeq t)
    if txnLen t = 0 then .next (s.voidReturn tag) else
    let h := tag.toNat / 2 ^ 28
    let q := s.gport h
    match q.asked.find? (fun e => e.2 == tag) with
    | none => .next s
    | some (id, _) =>
      let void := (List.range 64).filter (fun k => (txnPoison t).getLsbD k)
      .next (s.setGport h { q with
        asked := q.asked.filter (fun e => e.2 != tag)
        reads := q.reads ++ [⟨id, 0, false, slice t.body 0 4096, void.map (fun k => (k, GranuleState.void)), none⟩] })

/-- MSG (R456): a message for a queue of this part, or of another. -/
def execGaconMsg (g : GPort) (vc : Vc) (s : State) : Host.Outcome State Fault Refusal :=
  match gHead s g.val vc.val 3 with
  | none => .next s
  | some t =>
    if txnDst t ≠ s.part.toNat then .next (s.forwardTxn g.val vc.val t)
    else .next ((s.endTxn g.val vc.val t).toCell (txnMsg t ||| (1#256 <<< 121)) (some vc.val))

/-- BARCMD (R396, R397, R457): a BAR_CMD value applied to a barrier of this part; reason 10 when the barrier takes no remote command. -/
def execGaconBarcmd (g : GPort) (vc : Vc) (s : State) : Host.Outcome State Fault Refusal :=
  match gHead s g.val vc.val 4 with
  | none => .next s
  | some t =>
    if txnDst t ≠ s.part.toNat then .next (s.forwardTxn g.val vc.val t) else
    .next (s.barTxn g.val vc.val t)

/-- NOTICE (R465): the message joins the error queue of the initiator's suite, or is logged. -/
def execGaconNotice (g : GPort) (vc : Vc) (s : State) : Host.Outcome State Fault Refusal :=
  match gHead s g.val vc.val 5 with
  | none => .next s
  | some t =>
    if txnDst t ≠ s.part.toNat then .next (s.forwardTxn g.val vc.val t)
    else .next ((s.endTxn g.val vc.val t).placeNotice (txnMsg t))

/-! ### The Gacon engines -/

/-- Contexts of port g's engine that are placed for a suite. -/
def gaconCtxs (u : Suite) (g : Nat) : List StreamCtx :=
  (u.contexts.map (fun k => k.2.2)).filter (fun x => match x with
    | .gacon h _ => h.val == g
    | .se _ _ => false)

/-- EPOCH of a suite's current section (R292). -/
def curEpoch (u : Suite) : Nat := ((u.sections[u.feeder.current]?).map (fun k => k.starts - 1)).getD 0

/-- A tile address of a Gacon context: any tile of another part; of this part, one of its suite's windows or of its cells' scratchpads
(R36, R39). -/
def legalDomain (s : State) (i : Nat) (_ : Bool) (a : Int) : Option Nat :=
  let n := a.toNat
  let l := n % 2 ^ 48
  let own := (inWindow (s.suite i) l && !inProtected (s.suite i) l) || (spadOf l).any (fun e => cellSuite (s.cell e.1) == some i)
  if 0 ≤ a ∧ a < 2 ^ 54 ∧ (n / 2 ^ 48 ≠ s.part.toNat ∨ own) then some n else none

/-- Tag of a READ: port, context, and a count (log 53). -/
def readTag (x : StreamCtx) (v : StreamState) : W32 :=
  match x with
  | .gacon g c => BitVec.ofNat 32 (g.val * 2 ^ 28 + c.val * 2 ^ 24 + (v.rdTile + 2 ^ 12 * v.idxTiles + 2 ^ 18 * v.serial) % 2 ^ 24)
  | .se _ _ => 0

/-- A context's next READ leaves (R349, R461, R462); at most 16 tiles of an engine are outstanding. -/
def State.askTile (s : State) (g i : Nat) (x : StreamCtx) : Option State :=
  let v := s.stream x
  let q := s.gport g
  let held := inBufferOf q.reads x s.now + (q.asked.filter (fun e => e.1.ctx == x && !e.1.index)).length
  let ask := fun (v' : StreamState) (id : ReadId) (a : Nat) =>
    let tag := readTag x v
    let s := (s.setStream x v').updGport g (fun q => { q with asked := q.asked ++ [(id, tag)] })
    some (s.sendTxn g (s.suiteVc i) ⟨txnHdr 1 7 0 0 i s.part.toNat a 4096 tag.toNat 0 0 0, [], none, some (BitVec.ofNat 5 i).toFin⟩)
  if 16 ≤ q.asked.length then none else
  match readUse v held (legalDomain s i) with
  | .index a => ask { v with idxTiles := v.idxTiles + 1 } ⟨x, v.serial, true, v.idxTiles⟩ a
  | .data a => ask (countRead v) ⟨x, v.serial, false, v.rdTile⟩ a
  | .bad a => some (s.stopContext x i a)
  | _ => none

/-- Runs of consecutive numbers in a rising list: first number and length. -/
def runs : List Nat → List (Nat × Nat)
  | [] => []
  | a :: r => match runs r with
    | (b, n) :: rest => if a + 1 = b then (a, n + 1) :: rest else (a, 1) :: (b, n) :: rest
    | [] => [(a, 1)]

/-- A remote write's tile leaves as WRITE transactions, one for each run of its accepted granules (R461). -/
def State.sendTile (s : State) (g i : Nat) (x : StreamCtx) (t a : Nat) : State :=
  let v := s.stream x
  let d := v.desc
  let u := s.suite i
  let vc := s.suiteVc i
  let gr := tileGranules v t
  let has := (List.range 64).filter (fun k => gr.any (fun e => e.1 == k))
  let key := a / 2 ^ 48 * 8 + vc
  let gen := (dNat d 176 16 + curEpoch u) % 2 ^ 16
  (runs has).foldl (fun s r =>
    let wseq := sget 0 (s.suite i).wseq key
    let bytes := (List.range r.2).flatMap (fun k => match gr.find? (fun e => e.1 == r.1 + k) with
      | some (_, some b) => b
      | _ => List.replicate 64 0)
    let poison := (List.range r.2).foldl (fun (p : W64) k => match gr.find? (fun e => e.1 == r.1 + k) with
      | some (_, some _) => p
      | _ => p ||| (1#64 <<< k)) 0
    let s := s.updSuite i (fun u => { u with wseq := sset u.wseq key (wseq + 1) })
    s.sendTxn g vc ⟨txnHdr 0 7 0 0 i s.part.toNat (a + 64 * r.1) (64 * r.2) wseq.toNat (dNat d 160 16) gen poison, bytes, none,
      some (BitVec.ofNat 5 i).toFin⟩) (s.setStream x (countWrite v t))

/-- Index tiles of a Gacon engine join their contexts' index values (R348). -/
def State.settleGaconIndex (s : State) (g : Nat) : State :=
  (s.gport g).reads.foldl (fun s r =>
    if r.id.index && decide ((s.stream r.id.ctx).indices.length = 1024 * r.id.k) then
      let (ws, s) := indexWords s r
      (s.dropRead r.id).updStream r.id.ctx (fun v => if v.serial = r.id.serial then { v with indices := v.indices ++ ws } else v)
    else s) s

/-- REMOTE_SLOT (R338, R463): the next remote slot of a port moves a tile of the named Gacon engine: a returned tile towards the spine of the
die, or a write tile of the die to the Gacon port; a READ may leave in it too. -/
def execRemoteSlot (p : PortId) (s : State) : Host.Outcome State Fault Refusal :=
  if !stackServes (s.port p.val) then .next s else
  match s.nextSlot p.val (fun _ i k => slotClass s.repair.split i == 2 && k.isSome) with
  | none => .next s
  | some n =>
    let s := s.waitSlot p.val n
    let s := s.updPort p.val (fun q => { q with lastSlot := some n })
    match ((s.port p.val).slots.find? (fun e => e.1 == slotIx (s.port p.val) n)).map (·.2) with
    | none => .next s
    | some (su, ag) =>
      let i := su.toNat
      let g := ag.toNat / 8
      let die := p.val / 3
      let s := s.settleGaconIndex g
      let xs := gaconCtxs (s.suite i) g
      let s := match xs.findSome? (fun x => s.askTile g i x) with
        | some s' => s'
        | none => s
      let here := fun (r : TileRead) => !r.inBuffer && !r.id.index && xs.contains r.id.ctx
        && (s.stream r.id.ctx).dlvs.any (fun e => e.1 == r.id.serial && cellDie (dTarget e.2) == die)
      match (s.gport g).reads.find? here with
      | some r =>
        let s := s.updGport g (fun q => { q with reads := q.reads.map (fun e => if e.id = r.id then { e with inBuffer := true } else e) })
        .next ((s.meterHbm i).countDev 0x203 p.val 1)
      | none =>
        let ready := fun (x : StreamCtx) => dWrites (s.stream x).desc && cellDie (dRowCell (s.stream x).desc) == die && (tileReady (s.stream x)).isSome
        match xs.find? ready with
        | none => .next s
        | some x =>
          let v := s.stream x
          match tileReady v with
          | none => .next s
          | some t => match dTileAddr v.desc v.indices t with
            -- the tile has no address where no index is to come (DESIGN CHOICE, log 97)
            | none => .next (if (v.active && !v.voided) || !dIdxSp v.desc then s else s.setStream x (countWrite v t))
            | some a => match legalDomain s i false a with
            | none => .next ((s.setStream x (countWrite v t)).stopContext x i a)
            | some a => .next (((s.sendTile g i x t a).meterHbm i).countDev 0x203 p.val 1)

end Sys2Proof.Machine
end

