-- ==== Sys2Proof/Machine/Images.lean ====
section
/-!
DEFINITION. Veret images: header and manifest (R467, R476, R477), their checks (R470, Table 13.2), keys (R469, R472), placement (R482, R483)
and the resources of a suite (R341, R342, R444, R481, Table 13.13).
-/

namespace Sys2Proof.Machine

/-! ### Header fields (Table 13.1) -/

def hLog2w (h : List Byte) : Nat := leAt h 11 1 % 4
def hLog2h (h : List Byte) : Nat := leAt h 11 1 / 4 % 4
def hSigner (h : List Byte) : Nat := leAt h 12 1 % 4
def hServing (h : List Byte) : Bool := nbit (leAt h 13 1) 1
def hNsect (h : List Byte) : Nat := leAt h 52 2
def hNwin (h : List Byte) : Nat := leAt h 54 1
def hNreq (h : List Byte) : Nat := leAt h 55 1
def hNbar (h : List Byte) : Nat := leAt h 56 1
def hNseq (h : List Byte) : Nat := leAt h 57 1
def hNpeer (h : List Byte) : Nat := leAt h 58 2
def hDmax (h : List Byte) : Nat := leAt h 36 4

/-- Bits that must be 0: whole bytes from lo to hi − 1, and the upper bits of some bytes. -/
def hZeroBytes : List (Nat × Nat) := [(14, 2), (17, 3), (71, 1), (74, 2), (84, 12), (160, 608), (769, 3)]
def hZeroBits : List (Nat × Nat) := [(11, 0xF0), (12, 0xFC), (13, 0xF8), (65, 0xF0), (67, 0xF0), (69, 0xF0), (70, 0xE0), (73, 0xF0), (768, 0xF8)]

/-- Check 2 of Table 13.2 fails. -/
def badFormat (h : List Byte) : Bool :=
  leAt h 5 1 != 1 || decide (1 < leAt h 4 1) || leAt h 6 2 != 1024 || leAt h 60 4 != 16 * (hNwin h + hNreq h)
    || hZeroBytes.any (fun z => leAt h z.1 z.2 != 0) || hZeroBits.any (fun z => leAt h z.1 1 &&& z.2 != 0)

/-! ### Keys (R472, R473, Table 13.3) -/

/-- The ASCII string "VERET-STORE". -/
def storeLabel : List Byte := [0x56, 0x45, 0x52, 0x45, 0x54, 0x2D, 0x53, 0x54, 0x4F, 0x52, 0x45]

/-- The key of a slot, when it is valid. -/
def keyOf (k : Keys) (slot : Nat) : Option (List Byte) :=
  if slot < 4 then (if k.fkRevoked.getLsbD slot then none else (k.fk.find? (fun e => e.1 == slot)).map (fun e => e.2))
  else if slot = 4 then k.bbk0
  else if slot = 5 then k.bbk1
  else if slot = 6 then some ((Config.hmacSha384 k.duk storeLabel).take 32)
  else none

/-- The content key of an image, when the wrap tag verifies (R469). -/
def contentKey (k : Keys) (h : List Byte) : Option (List Byte) :=
  (keyOf k (leAt h 768 1)).bind (fun key => Config.gcmOpen key (slice h 772 12) (slice h 0 768) (slice h 784 32) (slice h 816 16))

/-! ### Manifest (Tables 13.7, 13.8) -/

/-- Entry w of the window table, and entry r of the request table. -/
def winEntry (m : List Byte) (w : Nat) : List Byte := slice m (16 * w) 16
def reqEntry (h m : List Byte) (r : Nat) : List Byte := slice m (16 * (hNwin h + r)) 16

def wPort (e : List Byte) : Nat := leAt e 0 1
def wExtents (e : List Byte) : Nat := leAt e 4 4
def wTiles (e : List Byte) : Nat := leAt e 8 4
def wStepRing (e : List Byte) : Bool := nbit (leAt e 1 1) 3

/-- A request from its entry. -/
def requestOf (e : List Byte) : Request := ⟨leAt e 0 1, leAt e 1 1, leAt e 2 1, leAt e 3 1, leAt e 4 1, leAt e 5 1, leAt e 6 2, leAt e 8 1⟩

/-- The requests of an image in table order. -/
def requestsOf (h m : List Byte) : List Request := (List.range (hNreq h)).map (fun r => requestOf (reqEntry h m r))

/-- The virtual dies of a shape, and its virtual ports (R483). -/
def virtualDies (h : List Byte) : List Nat :=
  (List.range 4).filter (fun vd => decide (32 * (vd % 2) < 16 * 2 ^ hLog2w h) && decide (32 * (vd / 2) < 8 * 2 ^ hLog2h h))
def virtualPorts (h : List Byte) : List Nat := (virtualDies h).flatMap diePorts

/-- The builder's fields from a header (R409, Tables 11.7–11.9). -/
def builderOf (h : List Byte) : Builder :=
  let sb : Builder :=
    { b := leAt h 64 2, p := leAt h 66 1, log2pt := leAt h 67 1, l := leAt h 68 2, zones := leAt h 70 1, xSlots := leAt h 72 2
      pageBudget := BitVec.ofNat 32 (leAt h 76 4), nullPage := BitVec.ofNat 32 (leAt h 80 4), stepFirst := leAt h 50 2 }
  { sb with blockTiles := BitVec.ofNat 16 (blockSize sb) }

/-- Bytes of the slot zone list: at most ZONES entries of 8 bytes for each decode and chunk slot (R423). -/
def zoneListBytes (sb : Builder) : Nat := 8 * sb.zones * (sb.b + sb.p)

/-- Whether a window entry keeps its ranges. -/
def windowOk (h e : List Byte) : Bool :=
  (virtualPorts h).contains (wPort e) && decide (1 ≤ wExtents e) && decide (wExtents e ≤ 4096) && decide (wTiles e ≤ 4096 * wExtents e)
    && leAt e 1 1 / 16 == 0 && leAt e 2 2 == 0 && leAt e 12 4 == 0

/-- Whether a request entry keeps its ranges: KIND 3 names no virtual port. -/
def requestOk (h e : List Byte) : Bool :=
  let r := requestOf e
  decide (r.kind ≤ 4) && decide (r.cls ≤ 3) && (r.kind == 3 || (virtualPorts h).contains r.vport) && decide (r.vport ≤ 11) && decide (r.g ≤ 15)
    && decide (r.vengine ≤ 7) && decide (r.vctx ≤ 15) && decide (r.depth ≤ 15) && leAt e 9 7 == 0

/-- Whether the fields of a serving image keep their ranges (Table 11.7): its STEPRING window holds four step blocks and the slot zone
list (R478). -/
def servingOk (h m : List Byte) : Bool :=
  let sb := builderOf h
  let rings := ((List.range (hNwin h)).map (winEntry m)).filter wStepRing
  if !hServing h then rings.isEmpty && leAt h 50 2 == 0xFFFF else
  decide (1 ≤ sb.b) && decide (sb.b ≤ 2048) && decide (1 ≤ sb.l) && decide (sb.l ≤ 4095) && decide (sb.log2pt ≤ 12) && decide (sb.zones ≤ 16)
    && decide (sb.stepFirst < hNsect h) && decide (1 ≤ hNseq h) && rings.length == 1
    && rings.all (fun e => decide (4 * blockSize sb * 4096 + zoneListBytes sb ≤ wExtents e * 2 ^ 24))

/-- Check 12 of Table 13.2 (R476–R478), but for what the body holds. -/
def tablesOk (h m : List Byte) : Bool :=
  let wins := (List.range (hNwin h)).map (winEntry m)
  let reqs := requestsOf h m
  [24, 28, 32].contains (leAt h 10 1) && decide (1 ≤ hNsect h) && decide (hNsect h ≤ 4096) && decide (1 ≤ hNwin h) && decide (hNwin h ≤ 64)
    && decide (hNbar h ≤ 64) && decide (hNseq h ≤ 64) && decide (hNpeer h ≤ 256)
    && wins.all (windowOk h) && (List.range (hNreq h)).all (fun r => requestOk h (reqEntry h m r)) && servingOk h m
    && (List.range 12).all (fun p => decide (((wins.filter (fun e => wPort e == p)).map wExtents).sum ≤ 4096))
    && (virtualPorts h).all (fun p => reqs.any (fun r => r.kind == 1 && r.vport == p))

/-! ### Placement (R482, R483) -/

/-- The bays of a rectangle of shape W × H with origin b. -/
def rectangle (b w h : Nat) : List Nat := (List.range h).flatMap (fun j => (List.range w).map (fun i => b % 4 + i + 4 * (b / 4 + j)))

/-- The origin bay that a shape finds (R482). -/
def place (s : State) (w h : Nat) : Option Nat :=
  findBelow 32 (fun b => b % 4 % w == 0 && b / 4 % h == 0
    && (rectangle b w h).all (fun k => decide (k < 32) && s.repair.good.getLsbD k && (s.bay k).owner.isNone))

/-- The memory port of a virtual port at an origin (R483). -/
def portAt (origin vp : Nat) : Nat :=
  let vd := vp / 3
  3 * (2 * ((8 * (origin / 4) + 32 * (vd / 2)) / 32) + (16 * (origin % 4) + 32 * (vd % 2)) / 32) + vp % 3

/-- The checks of Table 13.2 in order, with their codes; SUITE_CREATE makes all but 10 and 11, IMAGE_LOAD all but 13, since its suite
is placed (DEDUCED, log 44). -/
def headerChecks (s : State) (h m : List Byte) (create : Bool) : List (Bool × Nat) :=
  let g := sget {} s.keys.signers (hSigner h)
  [(leAt h 0 4 != 0x56455254, 0x41),
   (badFormat h, 0x42),
   (leAt h 8 2 != 0x4D20, 0x43),
   (decide (s.grade.toNat < leAt h 10 1), 0x44),
   (decide (2 < hLog2w h), 0x45),
   (nbit (leAt h 13 1) 0 && slice h 20 16 != leBytes 16 s.uid.toNat, 0x46),
   (!g.valid || g.revoked || Config.sha384 (slice h 832 96) != g.digest, 0x47),
   (!Config.ecdsaP384 (slice h 832 96) (slice h 928 96) (slice h 0 768 ++ m), 0x48),
   (decide (leAt h 16 1 < g.svnFloor.toNat), 0x49),
   (!create && (keyOf s.keys (leAt h 768 1)).isNone, 0x4A),
   (!create && (contentKey s.keys h).isNone, 0x4B),
   (!tablesOk h m, 0x4C),
   (create && (place s (2 ^ hLog2w h) (2 ^ hLog2h h)).isNone, 0x4D)]

/-- The status of the first check that fails, 0 none. -/
def checkImage (s : State) (h m : List Byte) (create : Bool) : Nat :=
  (((headerChecks s h m create).find? (fun c => c.1)).map (fun c => c.2)).getD 0

/-! ### Extents -/

/-- Runs of extents in use on a stack: first extent and count. -/
def usedExtents (s : State) (p : Nat) : List (Nat × Nat) :=
  (List.range 32).flatMap (fun i =>
    let u := s.suite i
    (u.windows.filter (fun w => w.stack == p)).map (fun w => (w.base % 4096, w.extents)) ++ (u.protExts.filter (fun e => e.1 == p)).map (fun e => e.2))

/-- The lowest run of n free extents (Table 13.13). -/
def firstFit (used : List (Nat × Nat)) (n : Nat) : Option Nat :=
  ((0 :: used.map (fun e => e.1 + e.2)).filter (fun o => decide (o + n ≤ 4096) && used.all (fun e => decide (o + n ≤ e.1) || decide (e.1 + e.2 ≤ o)))).min?

/-- Runs of extents taken on a stack, by stack number, on top of those in use: requests (stack, extents) in order. -/
def takeExtents (s : State) : List (Nat × Nat) → List (Nat × Nat × Nat) → Option (List (Nat × Nat × Nat))
  | [], acc => some acc
  | (p, n) :: r, acc =>
    let q := s.port p
    if q.retired || q.noNewPlacement then none else
    match firstFit (usedExtents s p ++ (acc.filter (fun a => a.1 == p)).map (fun a => a.2)) n with
    | none => none
    | some o => takeExtents s r (acc ++ [(p, o, n)])

/-- Extents of the protected extent of a port: its row streams of every section, 65 tiles each (R290, R299; log 42). -/
def protectedSize (nsect rows : Nat) : Nat := max 1 (cdiv (nsect * rows * 65) 4096)

/-! ### Contexts -/

/-- The virtual engine of a request, 8 × VPORT + VENGINE; for a Gacon context 96 + G (log 45). -/
def requestEngine (r : Request) : Nat := if r.kind = 2 then 96 + r.g else 8 * r.vport + r.vengine

/-- The distinct (virtual engine, virtual context) pairs of some requests, in table order. -/
def requestContexts (l : List Request) : List (Nat × Nat) :=
  (l.filter (fun r => r.kind != 3)).foldl (fun a r => if a.contains (requestEngine r, r.vctx) then a else a ++ [(requestEngine r, r.vctx)]) []

/-- The physical engine of a virtual engine at an origin: its contexts. -/
def engineContext (origin ve c : Nat) : StreamCtx :=
  if ve < 96 then .se (Fin.ofNat 96 (8 * portAt origin (ve / 8) + ve % 8)) (Fin.ofNat 16 c) else .gacon (Fin.ofNat 16 (ve - 96)) (Fin.ofNat 16 c)

/-- Whether a context's engine is in quarantine (Table 16.9): no new placement. -/
def quarantined (s : State) (x : StreamCtx) : Bool :=
  s.repair.quarantine.any (fun r => match r, x with
    | .stream e _, .se f _ => e == f
    | .gaconPort g _, .gacon h _ => g == h
    | _, _ => false)

/-- Contexts taken: the lowest free one of each physical engine (Table 13.13). -/
def takeContexts (s : State) (origin : Nat) : List (Nat × Nat) → List (Nat × Nat × StreamCtx) → Option (List (Nat × Nat × StreamCtx))
  | [], acc => some acc
  | (ve, vc) :: r, acc =>
    let held := fun (x : StreamCtx) => quarantined s x || acc.any (fun a => a.2.2 == x) || s.suites.any (fun e => e.2.contexts.any (fun a => a.2.2 == x))
    match findBelow 16 (fun c => !held (engineContext origin ve c)) with
    | none => none
    | some c => takeContexts s origin r (acc ++ [(ve, vc, engineContext origin ve c)])

/-- The physical number of a virtual context of a suite. -/
def ctxNumber : StreamCtx → Nat
  | .se _ c => c.val
  | .gacon _ c => c.val

/-! ### Slots (R341, R342) -/

/-- The slots of a class in order of position. -/
def classSequence (split : BitVec 2) (cls : Nat) : List Nat := (List.range 1024).filter (fun i => slotClass split i == cls)

/-- The first free slot of a class at or after position k of its sequence, wrapping at the end. -/
def freeSlot (seq : List Nat) (q : SMap (BitVec 5 × BitVec 7)) (k : Nat) : Option Nat :=
  (seq.drop k ++ seq.take k).find? (fun i => !q.any (fun e => e.1 == i))

/-- The slots of n, of a class, for an owner; none when the share is exhausted. -/
def takeSlots (seq : List Nat) (owner : BitVec 5 × BitVec 7) (n : Nat) : List Nat → SMap (BitVec 5 × BitVec 7) → Option (SMap (BitVec 5 × BitVec 7))
  | [], q => some q
  | j :: r, q =>
    match freeSlot seq q (j * seq.length / n) with
    | none => none
    | some i => takeSlots seq owner n r (sset q i owner)

/-- AGENT of a request's entries (Table 9.6). -/
def requestAgent (ctxs : List (Nat × Nat × StreamCtx)) (r : Request) : BitVec 7 :=
  if r.kind = 2 then BitVec.ofNat 7 (8 * r.g) else
  match ctxs.find? (fun c => c.1 == requestEngine r && c.2.1 == r.vctx) with
  | some (_, _, x) => BitVec.ofNat 7 (16 * r.vengine + ctxNumber x)
  | none => 0

/-- The requests for slots in the order in which the loader places them (R341). -/
def slotOrder (l : List Request) : List Request := [0, 1, 2, 3].flatMap (fun c => l.filter (fun r => r.cls == c && decide (r.kind ≤ 2)))

/-- The slot tables of the twelve ports with a suite's requests placed. -/
def placeSlots (split : BitVec 2) (i origin : Nat) (ctxs : List (Nat × Nat × StreamCtx)) :
    List Request → SMap (SMap (BitVec 5 × BitVec 7)) → Option (SMap (SMap (BitVec 5 × BitVec 7)))
  | [], t => some t
  | r :: rest, t =>
    let p := portAt origin r.vport
    match takeSlots (classSequence split r.kind) (BitVec.ofNat 5 i, requestAgent ctxs r) r.n (List.range r.n) (sget [] t p) with
    | none => none
    | some q => placeSlots split i origin ctxs rest (sset t p q)

/-- The largest number of some slots in 48 consecutive ones of a table. -/
def inWindow48 (l : List Nat) : Nat := l.foldl (fun m i => max m (l.countP (fun k => decide ((k + 1024 - i) % 1024 < 48)))) 0

/-- Whether an engine owns too many slots (R342, R462): 8 read slots of a stream engine, 16 remote slots of a Gacon engine. -/
def enginesOver (split : BitVec 2) (t : SMap (SMap (BitVec 5 × BitVec 7))) : Bool :=
  t.any (fun e => (List.range 8).any (fun n =>
    decide (8 < inWindow48 ((e.2.filter (fun k => slotClass split k.1 == 0 && k.2.2.toNat / 16 == n)).map (fun k => k.1)))))
  || (List.range 16).any (fun g =>
    decide (16 < inWindow48 (t.flatMap (fun e => (e.2.filter (fun k => slotClass split k.1 == 2 && k.2.2.toNat / 8 == g)).map (fun k => k.1)))))

/-- The read contexts of a suite with the largest DEPTH asked for each: engine (physical port, or 12 + G), context, DEPTH. -/
def readDepths (origin : Nat) (l : List Request) : List (Nat × Nat) :=
  let rs := l.filter (fun r => r.kind == 0 || r.kind == 2)
  (requestContexts rs).map (fun c =>
    (if c.1 < 96 then portAt origin (c.1 / 8) else c.1 - 84,
     ((rs.filter (fun r => requestEngine r == c.1 && r.vctx == c.2)).map (fun r => r.depth)).foldl max 0))

/-- Whether DEPTH + 1 over the read contexts of a port would exceed 64 tiles (R342, R462). -/
def depthsOver (l : List (Nat × Nat)) : Bool :=
  (List.range 28).any (fun p => decide (64 < ((l.filter (fun e => e.1 == p)).map (fun e => e.2 + 1)).sum))

/-! ### Transmit positions (R444) -/

/-- Positions of a port's transmit pattern given to a class: n of them, spread over the pattern; channel 4 keeps one at least. -/
def takePositions (cls n : Nat) : List Nat → SMap (BitVec 3) → Option (SMap (BitVec 3))
  | [], m => some m
  | j :: r, m =>
    if 63 ≤ m.length then none else
    match (List.range 64).map (fun k => (j * 64 / n + k) % 64) |>.find? (fun k => !m.any (fun e => e.1 == k)) with
    | none => none
    | some k => takePositions cls n r (sset m k (BitVec.ofNat 3 cls))

/-- The transmit patterns with a suite's KIND 3 requests placed. -/
def placePositions : List Request → SMap (SMap (BitVec 3)) → Option (SMap (SMap (BitVec 3)))
  | [], t => some t
  | r :: rest, t =>
    match takePositions r.cls r.n (List.range r.n) (sget [] t r.g) with
    | none => none
    | some m => placePositions rest (sset t r.g m)

/-! ### Blocks -/

/-- The lowest n of 64 blocks that no suite holds. -/
def takeBlocks (used : List Nat) (n : Nat) : Option (List Nat) :=
  let l := ((List.range 64).filter (fun k => !used.contains k)).take n
  if l.length = n then some l else none

end Sys2Proof.Machine
end

