-- ==== Sys2Proof/Machine/Metering.lean ====
section
/-!
DEFINITION. Metering (R613–R618): labels, records and their MAC, period boundaries, checkpoints, and the commands that read and set them.
-/

namespace Sys2Proof.Machine

/-- The label of a tick under the mapping in force (R618). -/
def labelAt (m : Metering) (tick : W64) : Option W64 := m.label.map (fun l => l.1 + 40 * (tick - l.2))

/-- The label of a tick, 0 when none is set (Table 18.12). -/
def wallOf (m : Metering) (tick : W64) : W64 := (labelAt m tick).getD 0

/-- The ASCII string "VERET-METER". -/
def meterLabel : List Byte := [0x56, 0x45, 0x52, 0x45, 0x54, 0x2D, 0x4D, 0x45, 0x54, 0x45, 0x52]

/-- The metering key, while its FK slot is valid (R616). -/
def meterKey (s : State) : Option (List Byte) := (keyOf s.keys s.metering.keySlot.toNat).map (fun k => (Config.hmacSha384 k meterLabel).take 48)

/-- Bytes 0–143 of a record (Table 18.12). flags: bit 1 PARTIAL, 2 RESET, 4 CREATED, 5 DESTROYED. -/
def meterBody (s : State) (i : Nat) (m : Meter) (stop : W64) (flags : Nat) (nokey : Bool) : List Byte :=
  let f := flags + b2n (m.timeSets != 0) + 8 * b2n (m.noLabel || s.metering.label.isNone) + 64 * b2n nokey
  leBytes 8 s.metering.nextSeq.toNat ++ [BitVec.ofNat 8 i, BitVec.ofNat 8 f] ++ leBytes 2 s.metering.period.toNat ++ leBytes 4 m.timeSets.toNat
    ++ leBytes 8 m.tickStart.toNat ++ leBytes 8 stop.toNat ++ leBytes 8 m.wallStart.toNat ++ leBytes 8 (wallOf s.metering stop).toNat
    ++ leBytes 8 m.oldLabel.toNat ++ leBytes 8 m.newLabel.toNat
    ++ leBytes 8 m.cellBeats.toNat ++ leBytes 8 m.hbmBytes.toNat ++ leBytes 8 m.gaconBytes.toNat ++ leBytes 8 m.tokens.toNat ++ leBytes 8 m.energyMj.toNat
    ++ leBytes 8 m.gen.toNat ++ leBytes 16 s.uid.toNat ++ leBytes 16 0

/-- A record with its MAC (R616). -/
def meterRecord (s : State) (i : Nat) (m : Meter) (stop : W64) (flags : Nat) : List Byte :=
  match meterKey s with
  | some k => let b := meterBody s i m stop flags false
              b ++ slice (Config.hmacSha384 k b) 0 48
  | none => meterBody s i m stop flags true ++ leBytes 48 0

/-- A record enters the ring of 131,072 (R616). ENERGY_MJ comes from regulator telemetry: a free value (log 1). -/
def State.writeMeter (s : State) (i : Nat) (m : Meter) (stop : W64) (flags : Nat) : State :=
  let (mj, s) := s.fresh
  let r := meterRecord s i { m with energyMj := mj } stop flags
  let ring := s.metering.ring ++ [(s.metering.nextSeq.toNat, r)]
  { s with metering := { s.metering with ring := if ring.length ≤ 131072 then ring else ring.drop 1, nextSeq := s.metering.nextSeq + 1 } }

/-- The accumulators of a period that begins now. -/
def newMeter (s : State) (gen : W64) (created : Bool) : Meter :=
  { gen := gen, created := created, tickStart := s.tick, tickEnd := s.tick, wallStart := wallOf s.metering s.tick, noLabel := s.metering.label.isNone }

/-- The metering of suite i begins at its SUITE_CREATE (R613, R616). -/
def State.startMeter (s : State) (i : Nat) : State :=
  let gen := s.metering.suiteGen + 1
  let m := newMeter s gen true
  ({ s with metering := { s.metering with suiteGen := gen } }).updSuite i (fun u => { u with meter := m, savedMeter := m })

/-- A boundary closes the record of an existing suite (R615). -/
def State.closeMeter (s : State) (i : Nat) : State :=
  let m := (s.suite i).meter
  let s := s.writeMeter i m s.tick (16 * b2n m.created)
  let m' := newMeter s m.gen false
  s.updSuite i (fun u => { u with meter := m', savedMeter := m' })

/-- SUITE_DESTROY closes the record of a suite (R615). -/
def State.endMeter (s : State) (i : Nat) : State := s.writeMeter i (s.suite i).meter s.tick 34

/-- Maceration step 7 closes at the last checkpoint the record of each suite that existed (R615). -/
def State.recoverMeters (s : State) : State :=
  (List.range 32).foldl (fun s i =>
    let m := (s.suite i).savedMeter
    if m.gen = 0 then s else (s.writeMeter i m m.tickEnd 6).updSuite i (fun u => { u with savedMeter := {} })) s

/-- The suites that exist. -/
def existing (s : State) : List Nat := (List.range 32).filter (fun i => (s.suite i).state != .none)

/-- METER_PERIOD_BOUNDARY (R614, R615): at the next boundary of the period in force, the record of each suite is closed and the period that
was asked for comes into force. -/
def execMeterPeriodBoundary (s : State) : Host.Outcome State Fault Refusal :=
  if !s.power.vaonGood then .next s else
  let len := s.metering.period.toNat * 25000000
  let s := s.waitUntil ((s.now / 600 + (len - s.tick.toNat % len)) * 600)
  let s := (existing s).foldl (fun s i => s.closeMeter i) s
  .next { s with metering := { s.metering with period := s.metering.pendingPeriod.setWidth 12 } }

/-- METER_CHECKPOINT (R615): 1 s after the last, the accumulators of every suite are kept on the store die. -/
def execMeterCheckpoint (s : State) : Host.Outcome State Fault Refusal :=
  if !s.power.vaonGood then .next s else
  let s := s.waitUntil (s.metering.ckptAt + 15000000000)
  let s := { s with metering := { s.metering with ckptAt := s.now } }
  .next ((existing s).foldl (fun s i => s.updSuite i (fun u => { u with savedMeter := { u.meter with tickEnd := s.tick } })) s)

/-- METER_CTL_WRITE (R614, Table 18.13): the PF writes KEY_SLOT and PERIOD; a PERIOD outside 1–3,600 is discarded and logged. -/
def execMeterCtlWrite (f : HostFn) (v : W64) (s : State) : Host.Outcome State Fault Refusal :=
  if !s.answers f then .next s else
  let p := (fld v 0 12).toNat
  if f ≠ .pf then .next (s.logDiscard (some f) 0x0300000000B8) else
  let s := { s with metering := { s.metering with keySlot := fld v 28 2 } }
  if p = 0 ∨ 3600 < p then .next (s.logDiscard (some f) 0x0300000000B8)
  else .next { s with metering := { s.metering with pendingPeriod := BitVec.ofNat 16 p } }

/-- The records that a METER_READ copies from some records, and the SEQ after the last one examined (R617). -/
def meterPick (want : Option Nat) : Nat → List (Nat × List Byte) → Nat → List (List Byte) × Nat
  | _, [], next => ([], next)
  | 0, _, next => ([], next)
  | n + 1, (k, r) :: rest, _ =>
    if want.all (fun i => leAt r 8 1 == i) then
      let t := meterPick want n rest (k + 1)
      (r :: t.1, t.2)
    else meterPick want (n + 1) rest (k + 1)

/-- METER_READ (R617): the suite is a choice among records, and need not exist (log 46). -/
def execMeterRead (t : Nat) (s : State) : Host.Outcome State Fault Refusal :=
  .next (runCommand s t 0x33 (fun _ => true) (fun _ => whole 8 1 ++ whole 12 4 ++ whole 16 12) (fun t s =>
    let i := param t 8 1
    let first := param t 12 4
    if 31 < i ∧ i ≠ 0xFF then s.finish t { status := 4 } else
    let l := s.metering.ring.filter (fun e => decide (first ≤ e.1))
    let p := meterPick (if i = 0xFF then none else some i) (param t 24 4) l first
    let s := if p.1.isEmpty then s else s.dmaWrite .pf (param t 16 8) p.1.flatten
    s.finish t (okReply (leBytes 4 p.1.length ++ leBytes 4 p.2))))

/-- TIME_SET (R618): the label holds from the present tick on. -/
def execTimeSet (t : Nat) (s : State) : Host.Outcome State Fault Refusal :=
  .next (runCommand s t 0x34 (fun _ => true) (fun _ => whole 8 8) (fun t s =>
    let v : W64 := BitVec.ofNat 64 (param t 8 8)
    let old := wallOf s.metering s.tick
    let s := (existing s).foldl (fun s i => s.updSuite i (fun u => { u with meter := { u.meter with
      timeSets := u.meter.timeSets + 1, oldLabel := if u.meter.timeSets = 0 then old else u.meter.oldLabel, newLabel := v } })) s
    ({ s with metering := { s.metering with label := some (v, s.tick) } }).finish t (okReply (leBytes 8 s.tick.toNat))))

end Sys2Proof.Machine
end

