-- ==== Sys2Proof/Machine/Loader.lean ====
section
/-!
DEFINITION. The Veret loader (R470–R471, R474, R478–R480, R484–R488): SUITE_CREATE, SUITE_DESTROY, IMAGE_LOAD and IMAGE_UNLOAD.
-/

namespace Sys2Proof.Machine

/-! ### SUITE_CREATE -/

/-- The bay rows' injection cells of a rectangle that a port serves (R290). -/
def rowsOfPort (bays : List Nat) (p : Nat) : Nat := ((bays.flatMap bayCells).filter (fun c => cellLx c == 0 && rowPort c == p)).length

/-- What SUITE_CREATE takes for a suite (Table 13.13). -/
structure Reserved where
  suite : Nat
  origin : Nat
  extents : List (Nat × Nat × Nat)
  slots : SMap (SMap (BitVec 5 × BitVec 7))
  contexts : List (Nat × Nat × StreamCtx)
  positions : SMap (SMap (BitVec 3))
  barriers : List Nat
  seqs : List Nat

/-- The contexts of every read request at every port: those of the suites that exist and a new one's (R342). -/
def allDepths (s : State) (origin : Nat) (l : List Request) : List (Nat × Nat) :=
  (existing s).flatMap (fun i => readDepths (s.suite i).origin (s.suite i).requests) ++ readDepths origin l

/-- The resources of a new suite, or the status of the first that is exhausted (order of refusals: DESIGN CHOICE, log 44). -/
def reserve (s : State) (h m : List Byte) : Nat ⊕ Reserved :=
  let reqs := requestsOf h m
  let split := s.repair.split
  match findBelow 32 (fun i => (s.suite i).state == .none), place s (2 ^ hLog2w h) (2 ^ hLog2h h) with
  | none, _ => .inl 0x10
  | some _, none => .inl 0x4D
  | some i, some b =>
    let bays := rectangle b (2 ^ hLog2w h) (2 ^ hLog2h h)
    let wins := (List.range (hNwin h)).map (fun w => (portAt b (wPort (winEntry m w)), wExtents (winEntry m w)))
    let prot := (virtualPorts h).map (fun vp => (portAt b vp, protectedSize (hNsect h) (rowsOfPort bays (portAt b vp))))
    match takeExtents s (wins ++ prot) [] with
    | none => .inl 0x11
    | some exts =>
      match takeContexts s b (requestContexts reqs) [] with
      | none => .inl 0x13
      | some ctxs =>
        let now := (List.range 12).map (fun p => (p, settledSlots (s.port p)))
        match placeSlots split i b ctxs (slotOrder reqs) now with
        | none => .inl 0x12
        | some slots =>
          if enginesOver split slots || depthsOver (allDepths s b reqs) then .inl 0x12 else
          match placePositions (reqs.filter (fun r => r.kind == 3)) ((List.range 16).map (fun g => (g, (s.gport g).txPat))) with
          | none => .inl 0x14
          | some pos =>
            let usedBars := (existing s).flatMap (fun k => (s.suite k).barBlocks)
            let usedSeqs := (existing s).flatMap (fun k => (s.suite k).seqBlocks)
            match takeBlocks usedBars (hNbar h), takeBlocks usedSeqs (hNseq h) with
            | none, _ => .inl 0x15
            | some _, none => .inl 0x16
            | some bars, some seqs => .inr ⟨i, b, exts, slots, ctxs, pos, bars, seqs⟩

/-- The class of a suite: that of its first Gacon reservation, else of its first request (DESIGN CHOICE, log 47). -/
def suiteClass (l : List Request) : Nat :=
  match l.find? (fun r => r.kind == 3), l with
  | some r, _ => r.cls
  | none, r :: _ => r.cls
  | none, [] => 0

/-- A window of a suite from its entry and its extents. -/
def windowOf (e : List Byte) (x : Nat × Nat × Nat) : Window :=
  let f := leAt e 1 1
  ⟨nbit f 2, nbit f 0, nbit f 1, nbit f 3, wPort e, x.1, x.1 * 4096 + x.2.1, wExtents e⟩

/-- A suite as SUITE_CREATE leaves it. -/
def createdSuite (h m : List Byte) (r : Reserved) : Suite :=
  { header := h, manifest := m, origin := r.origin, log2w := hLog2w h, log2h := hLog2h h, cls := suiteClass (requestsOf h m)
    serving := hServing h, remoteSpad := nbit (leAt h 13 1) 2
    windows := (List.range (hNwin h)).map (fun w => windowOf (winEntry m w) (nth r.extents w (0, 0, 0)))
    requests := requestsOf h m, protExts := r.extents.drop (hNwin h), contexts := r.contexts, barBlocks := r.barriers, seqBlocks := r.seqs }

/-- The entries of a port that a new table adds are written from the next period on (R341). -/
def addSlots (q : MemPort) (period : Nat) (t : SMap (BitVec 5 × BitVec 7)) : MemPort :=
  let old := settledSlots q
  let new := t.filter (fun e => !old.any (fun o => o.1 == e.1))
  { q with slotReqs := q.slotReqs ++ new.map (fun (e : Nat × BitVec 5 × BitVec 7) => (e.1, BitVec.ofNat 16 (2 ^ 15 + 2 ^ 8 * e.2.1.toNat + 2 * e.2.2.toNat), period)) }

/-- The reserved resources become the suite's, which is EMPTY (R485). -/
def State.createSuite (s : State) (h m : List Byte) (r : Reserved) : State :=
  let o : SuiteId := Fin.ofNat 32 r.suite
  let bays := rectangle r.origin (2 ^ hLog2w h) (2 ^ hLog2h h)
  let s := s.setSuite r.suite { createdSuite h m r with savedMeter := (s.suite r.suite).savedMeter }
  let s := bays.foldl (fun s b => s.updBay b (fun y => { y with owner := some o, iso := 0, isoReq := none })) s
  let s := (bays.flatMap bayCells).foldl (fun s c => s.setCell c (idleCell (some o))) s
  let s := r.slots.foldl (fun s e => s.updPort e.1 (fun q => addSlots q (slotPeriod q s.slotNow + 1) e.2)) s
  let mine := r.positions.map (fun e => (e.1, (e.2.map (fun k => k.1)).filter (fun k => !((s.gport e.1).txPat.any (fun o => o.1 == k)))))
  let s := s.updSuite r.suite (fun u => { u with positions := mine })
  let s := r.positions.foldl (fun s e => s.updGport e.1 (fun q => { q with txPat := e.2 })) s
  (s.startMeter r.suite).setSuiteState r.suite .empty

/-- The header and manifest that a host buffer holds; none when a read of them failed. -/
def imageParts (b : List Byte) : Option (List Byte × List Byte) :=
  if b.length < 1024 then none else
  let n := leAt b 60 4
  if leAt b 60 4 = 16 * (hNwin b + hNreq b) ∧ b.length < 1024 + n then none else some (b.take 1024, (b.drop 1024).take n)

/-- A header check failed: logged to management (R470). -/
def State.logImage (s : State) (code : Nat) : State := s.logEvent 6 0 code none

/-- SUITE_CREATE's work on a buffer: the status, the suite and the new state. -/
def createFrom (s : State) (b : List Byte) : Nat × Nat × State :=
  match imageParts b with
  | none => (0x0C, 0, s)
  | some (h, m) =>
    let e := checkImage s h m true
    if e ≠ 0 then (e, 0, s.logImage e) else
    match reserve s h m with
    | .inl st => (st, 0, s)
    | .inr r => (0, r.suite, s.createSuite h m r)

/-- SUITE_CREATE (R470, R481, R485). -/
def execSuiteCreate (t : Nat) (buf : HostRead) (s : State) : Host.Outcome State Fault Refusal :=
  .next (runCommand s t 0x10 (fun _ => true) (fun _ => whole 8 12) (fun t s =>
    let s := s.dmaRead .pf (param t 8 8) (param t 16 4)
    match buf with
    | none => s.finish t { status := 0x0C }
    | some b =>
      let (st, i, s') := createFrom s (b.take (param t 16 4))
      s'.finish t (if st = 0 then okReply (leBytes 1 i ++ leBytes 1 (s'.suite i).origin ++ leBytes 2 (i + 1)) else { status := st })))

/-! ### The body (R479) -/

/-- Where the parts of a body plaintext stand: sections, descriptors, patches, restore entries, configuration, content, and its length. -/
structure BodyMap where
  ndesc : Nat
  npatch : Nat
  nrestore : Nat
  descs : Nat
  patches : Nat
  restores : Nat
  config : Nat
  content : Nat
  size : Nat

/-- Cells of a suite. -/
def shapeCells (u : Suite) : Nat := 16 * 2 ^ u.log2w * (8 * 2 ^ u.log2h)

/-- The virtual cells of a suite in increasing index. -/
def virtualCells (u : Suite) : List Nat := (List.range 4096).filter (isVirtual u)

/-- The parts of a body. -/
def bodyMap (u : Suite) (h m b : List Byte) : BodyMap :=
  let nd := leAt b 0 4
  let np := leAt b 4 4
  let nr := leAt b 8 4
  let descs := 16 + 16 * hNsect h
  let patches := descs + 72 * nd
  let restores := patches + 24 * np
  let config := tiles (restores + 16 * nr)
  let content := config + hNsect h * shapeCells u * 16512
  ⟨nd, np, nr, descs, patches, restores, config, content, content + 4096 * ((List.range (hNwin h)).map (fun w => wTiles (winEntry m w))).sum⟩

/-- Bytes written into a list at a position. -/
def putBytes (l : List Byte) (i : Nat) (b : List Byte) : List Byte := l.take i ++ b ++ l.drop (i + b.length)

/-! ### Patches (R480) -/

/-- Domain address of a local address. -/
def domainOf (s : State) (a : Nat) : Nat := s.part.toNat * 2 ^ 48 + a

/-- Barrier ID of a virtual barrier (R484). -/
def barrierOf (u : Suite) (v : Nat) : Nat := 256 * nth u.barBlocks (v / 256) 0 + v % 256

/-- The value of a patch record (Table 13.12), none when it is not valid. -/
def patchValue (s : State) (i : Nat) (h peers : List Byte) (ty arg add : Nat) : Option Nat :=
  let u := s.suite i
  let window := (u.windows[arg]?).bind (fun w => if add < w.extents * 2 ^ 24 then some (w.base * 2 ^ 24 + add) else none)
  let cell := if isVirtual u arg then some (logicalCell u arg) else none
  let barrier := if arg < 256 * u.barBlocks.length then some (barrierOf u arg) else none
  if ty = 1 then window
  else if ty = 2 then window.map (domainOf s)
  else if ty = 3 then (if add = 0 then cell else none)
  else if ty = 4 then (if add < 256 then cell.map (fun c => c * 256 + add) else none)
  else if ty = 5 then (if add < 0x400000 then cell.map (fun c => domainOf s (0x010000000000 + c * 2 ^ 22 + add)) else none)
  else if ty = 6 then barrier
  else if ty = 7 then barrier.map (fun b => domainOf s (0x025000000000 + 64 * b))
  else if ty = 8 then (if arg < 96 ∧ (virtualPorts h).contains (arg / 8) then some (8 * portAt u.origin (arg / 8) + arg % 8) else none)
  else if ty = 9 then (u.contexts.find? (fun c => c.1 == arg / 16 && c.2.1 == arg % 16)).map (fun c => ctxNumber c.2.2)
  else if ty = 10 then (if arg < hNpeer h then some ((leAt peers (8 * arg) 8 + add) % 2 ^ 64) else none)
  else if ty = 11 then (if u.serving then some (domainOf s (0x024000800000 + i * 2 ^ 16 + add)) else none)
  else if ty = 12 then some s.part.toNat
  else none

/-- A field of a little-endian run of bytes replaced. -/
def patchField (old : List Byte) (fshift width v : Nat) : List Byte :=
  let x := leNat old
  leBytes old.length (x % 2 ^ fshift + v % 2 ^ width * 2 ^ fshift + x / 2 ^ (fshift + width) * 2 ^ (fshift + width))

/-- A record of the patch table applied to the body and to the state, whose step ring holds the slot zone list; none when it is not valid. -/
def applyPatch (i : Nat) (h peers : List Byte) (q : BodyMap) (p : List Byte) (a : List Byte × State) : Option (List Byte × State) :=
  let u := a.2.suite i
  let target := leAt p 1 1
  let sect := leAt p 2 2
  let index := leAt p 4 4
  let off := leAt p 8 2
  let fshift := leAt p 10 1
  let width := leAt p 11 1
  let vshift := leAt p 12 1
  let n := cdiv (fshift + width) 8
  let limit := if target = 0 then 32 else 64
  let cell := (virtualCells u).findIdx? (fun v => v == index)
  let entry := fun (size : Nat) => decide (off + n ≤ size)
  let zones := u.sb.ringAddr.toNat + 4 * u.sb.blockTiles.toNat * 4096
  if width = 0 ∨ 64 < width ∨ limit < fshift + width ∨ 63 < vshift ∨ leAt p 13 3 ≠ 0 then none else
  (patchValue a.2 i h peers (leAt p 0 1) (leAt p 16 4) (leAt p 20 4)).bind (fun v =>
    let at_ := fun (pos : Nat) => some (putBytes a.1 pos (patchField (slice a.1 pos n) fshift width (v / 2 ^ vshift)), a.2)
    if target = 0 then
      match cell with
      | some k => if sect < hNsect h ∧ off < 384 then at_ (q.config + (sect * shapeCells u + k) * 16512 + 128 + 4 * (0xE80 + off)) else none
      | none => none
    else if target = 1 then (if index < q.ndesc ∧ entry 72 then at_ (q.descs + 72 * index + off) else none)
    else if target = 2 then
      (if u.serving ∧ 8 * index + 8 ≤ zoneListBytes u.sb ∧ entry 8 then
        let pos := zones + 8 * index + off
        some (a.1, a.2.hbmWrite pos (patchField (a.2.hbmRead pos n) fshift width (v / 2 ^ vshift)))
      else none)
    else if target = 3 then (if index < q.nrestore ∧ entry 16 then at_ (q.restores + 16 * index + off) else none)
    else none)

/-- The patch table applied in order. -/
def applyPatches (i : Nat) (h peers : List Byte) (q : BodyMap) : List Nat → List Byte × State → Option (List Byte × State)
  | [], a => some a
  | k :: r, a => (applyPatch i h peers q (slice a.1 (q.patches + 24 * k) 24) a).bind (applyPatches i h peers q r)

/-! ### Body tables -/

/-- Entry k of the section table (Table 13.9), none when it is out of range. -/
def sectionOf (h b : List Byte) (q : BodyMap) (k : Nat) : Option Section :=
  let e := slice b (16 + 16 * k) 16
  let d := leAt e 4 4
  let recov := nbit (leAt e 2 1) 1
  if leAt e 0 2 < hNsect h ∧ leAt e 2 1 < 4 ∧ leAt e 3 1 = 0 ∧ leAt e 8 4 + leAt e 12 2 ≤ q.ndesc ∧ leAt e 14 2 = 0
    ∧ (!recov || (decide (d ≤ hDmax h) && decide (hDmax h ≤ 15000))) then
    some ⟨leAt e 0 2, nbit (leAt e 2 1) 0, recov, d, leAt e 8 4, leAt e 12 2, 0⟩
  else none

/-- Entry k of the descriptor table (R479), with its physical context and the suite written. -/
def descOf (u : Suite) (i : Nat) (b : List Byte) (q : BodyMap) (k : Nat) : Option (StreamCtx × BitVec 512) :=
  let e := slice b (q.descs + 72 * k) 72
  let d : BitVec 512 := BitVec.ofNat 512 (leAt e 8 64)
  if leAt e 2 6 ≠ 0 ∨ dSuite d ≠ 0 then none else
  (u.contexts.find? (fun c => c.1 == leAt e 0 1 && c.2.1 == leAt e 1 1)).map (fun c => (c.2.2, d ||| BitVec.ofNat 512 (i * 2 ^ 16)))

/-- Entry k of the restore table (Table 13.10). -/
def restoreOf (u : Suite) (h b : List Byte) (q : BodyMap) (k : Nat) : Option Restore :=
  let e := slice b (q.restores + 16 * k) 16
  let r : Restore := ⟨leAt e 0 2, leAt e 2 1, leAt e 3 1, leAt e 4 1, leAt e 6 2, leAt e 8 4, leAt e 12 2, leAt e 14 2⟩
  let fits := (u.windows[r.window]?).any (fun w => decide (r.tile + r.count ≤ 4096 * w.extents))
  if isVirtual u r.vcell ∧ r.octant < 8 ∧ 1 ≤ r.count ∧ r.pane + r.count ≤ 128 ∧ fits ∧ r.first < hNsect h ∧ r.last < hNsect h then some r
  else none

/-- Every answer of a list, or none. -/
def allOf {V : Type} : List (Option V) → Option (List V)
  | [] => some []
  | none :: _ => none
  | some v :: r => (allOf r).map (fun l => v :: l)

/-! ### Windows and row streams -/

/-- The header group of a cell block (Table 8.1): EPOCH 0. -/
def blockHeader (u : Suite) (k v flags : Nat) (rest : List Byte) : List Byte :=
  leBytes 2 0xC5D1 ++ leBytes 2 (logicalCell u v) ++ leBytes 2 k ++ leBytes 1 flags ++ leBytes 1 0 ++ leBytes 4 0 ++ leBytes 4 (crc32 rest).toNat
    ++ leBytes 2 v ++ leBytes 110 0

/-- The cell block of virtual cell v, the n-th of the suite, for section k: header, KEEP map and configuration. -/
def cellBlock (u : Suite) (q : BodyMap) (b : List Byte) (k v n flags : Nat) : List Byte :=
  let rest := slice b (q.config + (k * shapeCells u + n) * 16512) 16512
  blockHeader u k v flags rest ++ rest

/-- The stream engine of each row of a suite, by its injection cell (R290). -/
def rowEngines (s : State) (i : Nat) : SMap Nat :=
  ((suiteCells s i).filter (fun c => cellLx c == 0)).foldl (fun m c => sset m c (rowEngine s i c)) []

/-- The row streams of section k written into the protected extents (R299, R486). -/
def State.writeRows (s : State) (i : Nat) (q : BodyMap) (b : List Byte) (k : Nat) (sec : Section) : State :=
  let u := s.suite i
  let vs := virtualCells u
  let flags := b2n sec.recoverable + 2 * b2n sec.final
  ((suiteCells s i).filter (fun c => cellLx c == 0)).foldl (fun s c =>
    match rowStream s i c k with
    | none => s
    | some a =>
      let row := (List.range 16).flatMap (fun j =>
        let v := virtualCell u (c + j)
        match vs.findIdx? (fun w => w == v) with
        | some n => cellBlock u q b k v n flags
        | none => [])
      s.hbmWrite a row) s

/-- The content segment written into the windows; their other tiles are zeros (R486). -/
def State.writeWindows (s : State) (i : Nat) (m : List Byte) (q : BodyMap) (b : List Byte) : State :=
  ((List.range (s.suite i).windows.length).foldl (fun (a : Nat × State) w =>
    let n := 4096 * wTiles (winEntry m w)
    let base := (nth ((s.suite i).windows.map (fun x => x.base)) w 0) * 2 ^ 24
    (a.1 + n, a.2.hbmWrite base (slice b a.1 n))) (q.content, s)).2

/-! ### IMAGE_LOAD -/

/-- The chunks of a body's ciphertext decrypted in order (R469); fuel bounds their number. -/
def openChunks (cek h : List Byte) : Nat → Nat → List Byte → Option (List Byte)
  | 0, _, _ => some []
  | n + 1, j, c =>
    if c.isEmpty then some [] else
    let k := min c.length (2 ^ 20 + 16)
    (Config.gcmOpen cek (slice h 152 8 ++ leBytes 4 j) (slice h 0 128) (c.take (k - 16)) (slice (c.take k) (k - 16) 16)).bind (fun p =>
      (openChunks cek h n (j + 1) (c.drop k)).map (fun r => p ++ r))

/-- The recovery floor of an image (R321): the lowest step at which DMAX_CYCLES take at most 10 µs. -/
def recoveryFloor (dmax : Nat) : BitVec 2 := if dmax ≤ 7500 then 0 else if dmax ≤ 10000 then 1 else if dmax ≤ 12500 then 2 else 3

/-- A suite's builder as the loader sets it (R409): rings and stop sets stay. -/
def loadedBuilder (u : Suite) (h : List Byte) : Builder :=
  if !hServing h then keptBuilder u.sb else
  let ring := ((u.windows.find? (fun w => w.stepRing)).map (fun w => w.base * 2 ^ 24)).getD 0
  let k := keptBuilder u.sb
  { builderOf h with ringAddr := BitVec.ofNat 48 ring, rings := k.rings, stopSets := k.stopSets, committed := k.committed, voided := k.voided
                     padded := k.padded, misses := k.misses, latMax := k.latMax, latLast := k.latLast }

/-- A suite with an image's header before its body is read (R486 step 2): no section, no run. -/
def enterLoad (u : Suite) (h m : List Byte) : Suite :=
  { idleSuite u with header := h, manifest := m, serving := hServing h, remoteSpad := nbit (leAt h 13 1) 2, sb := loadedBuilder u h
                     freq := { (idleSuite u).freq with rfloor := recoveryFloor (hDmax h) } }

/-- Steps 3 to 7 of R486 on a body's ciphertext: the suite is LOADED; none: the body has a fault. -/
def State.loadBody (s : State) (i : Nat) (h m cek cipher peers : List Byte) : Option State :=
  let u := s.suite i
  let n := leAt h 144 8
  if cipher.length < n ∨ Config.sha384 (cipher.take n) ≠ slice h 96 48 then none else
  (openChunks cek h (n / 16 + 1) 0 (cipher.take n)).bind (fun b =>
    let q := bodyMap u h m b
    if b.length < 16 ∨ leAt b 12 4 ≠ 0 ∨ b.length ≠ q.size then none else
    let s := (s.zeroSuite i).writeWindows i m q b
    (applyPatches i h peers q (List.range q.npatch) (b, s)).bind (fun p =>
      let b := p.1
      let s := p.2
      (allOf ((List.range (hNsect h)).map (sectionOf h b q))).bind (fun secs =>
        (allOf ((List.range q.ndesc).map (descOf u i b q))).bind (fun descs =>
          (allOf ((List.range q.nrestore).map (restoreOf u h b q))).map (fun rests =>
            let s := (secs.mapIdx (fun k sec => (k, sec))).foldl (fun s e => s.writeRows i q b e.1 e.2) s
            let s := s.updSuite i (fun u => { u with sections := secs, descs := descs, restores := rests, rowEngines := rowEngines s i, keySlot := BitVec.ofNat 8 (leAt h 768 1), svn := BitVec.ofNat 8 (leAt h 16 1) })
            ((s.openSides i).setSuiteState i .loaded).suitePower i .asleep)))))

/-- Whether an image may replace that of a suite (R485). -/
def compatible (u : Suite) (h m : List Byte) : Bool :=
  let wins := fun (l : List Byte) => (List.range (hNwin h)).map (fun w => (slice (winEntry l w) 0 8, slice (winEntry l w) 12 4))
  leAt h 11 1 == leAt u.header 11 1 && slice h 52 8 == slice u.header 52 8 && slice h 64 20 == slice u.header 64 20
    && m.length == u.manifest.length && wins m == wins u.manifest && m.drop (16 * hNwin h) == u.manifest.drop (16 * hNwin h)

/-- A load is abandoned (R486): zeros everywhere, the suite EMPTY, and no sequence in its table (Table 14.13). -/
def State.abandonLoad (s : State) (i : Nat) : State :=
  let s := s.cancelSeqs i
  let s := (suiteContexts (s.suite i)).foldl (fun s x => s.emptyContext x) s
  (((s.zeroSuite i).updSuite i emptySuite).setSuiteState i .empty).suitePower i .off

/-- Step 2 of R486, and the end of the sequences (Table 14.13). -/
def State.clearForLoad (s : State) (i : Nat) (h m : List Byte) : State :=
  let s := (((s.cancelSeqs i).closeSides i).clearCells i false).dropItems i
  let s := (suiteContexts (s.suite i)).foldl (fun s x => s.emptyContext x) s
  s.updSuite i (fun u => enterLoad u h m)

/-- Bytes of the store die that images may take (Table 1.1): 16 GiB without the firmware slots and the metering ring (R606, R616). -/
def storeBytes : Nat := 2 ^ 34 - 2 * 2 ^ 26 - 131072 * 192
/-- Whether the store die has room for an image of n bytes. -/
def storeRoom (s : State) (n : Nat) : Bool := decide ((s.store.map (fun e => e.2.length)).sum + n ≤ storeBytes)

/-- An image stored on the store die with its content key wrapped under the device key (R474): its store index. -/
def State.storeImage (s : State) (cek image : List Byte) : Nat × State :=
  let (r0, s) := s.fresh
  let (r1, s) := s.fresh
  let nonce := leBytes 8 r0.toNat ++ leBytes 4 r1.toNat
  let key := (Config.hmacSha384 s.keys.duk storeLabel).take 32
  let w := Config.gcmSeal key nonce (slice image 0 768) cek
  let ix := ((List.range (s.store.length + 1)).find? (fun k => !s.store.any (fun e => e.1 == k))).getD 0
  let head := slice image 0 768 ++ [6] ++ slice image 769 3 ++ nonce ++ slice w.1 0 32 ++ slice w.2 0 16
  (ix, { s with store := sset s.store ix (head ++ image.drop 832) })

/-- Steps 1 and 2 of R486 on a suite that exists: a status, or the load goes on with the content key that was unwrapped. -/
def startLoad (s : State) (t : Taken) (i : Nat) (created : Bool) (img : List Byte) : Nat × State :=
  match imageParts img with
  | none => (0x0C, s)
  | some (h, m) =>
    let e := checkImage s h m false
    if e ≠ 0 then (e, s.logImage e)
    else if !compatible (s.suite i) h m then (0x4F, s)
    else if (suiteBays s i).any (fun b => !s.repair.good.getLsbD b) then (0x50, s)
    else
      let run : LoadRun := ⟨t.ticket, i, created, h, m, (contentKey s.keys h).getD []⟩
      let s := if hNpeer h = 0 then s else s.dmaRead .pf (param t 32 8) (8 * hNpeer h)
      let s := s.clearForLoad i h m
      (0, ({ s with mbox := { s.mbox with load := some run } } : State).keepRunning t)

/-- Steps 3 to 7 of R486 on the image that a load has read: status, store index when stored, state. -/
def loadInto (s : State) (r : LoadRun) (img : List Byte) (len : Nat) (peers : HostRead) (keep : Bool) : Nat × Option Nat × State :=
  let i := r.suite
  let head := 1024 + r.manifest.length
  let total := head + leAt r.header 144 8
  let failed := decide (img.length < min total len) || decide ((peers.getD []).length < 8 * hNpeer r.header)
  if failed then (0x0C, none, s.abandonLoad i) else
  match s.loadBody i r.header r.manifest r.cek (img.drop head) (peers.getD []) with
  | none => (0x4E, none, s.abandonLoad i)
  | some s =>
    -- with no room the image is loaded and not stored (DESIGN CHOICE, log 70)
    if keep && storeRoom s total then
      let (ix, s) := s.storeImage r.cek (img.take total)
      (0, some ix, s)
    else (0, none, s)

/-- The image that an IMAGE_LOAD names: from the host, or from the store die. -/
def loadSource (s : State) (t : Taken) (buf : HostRead) : Option (List Byte × Nat) :=
  if param t 9 1 = 1 then (s.store.find? (fun e => e.1 == param t 12 4)).map (fun e => (e.2, e.2.length))
  else buf.map (fun b => (b.take (param t 24 8), param t 24 8))

/-- Whether an IMAGE_LOAD of a 2.x session asks for a new suite (R510). -/
def asksCreate (s : State) (t : Taken) : Bool := param t 8 1 == 0xFF && decide (s.versionOf t < 0x0300)

/-- SUITE_DESTROY's work (R487, R615); its output records are written first (R421). -/
def State.destroySuite (s : State) (i : Nat) : State := (((s.unloadSuite i).flushOutput i).endMeter i).freeSuite i

/-- IMAGE_LOAD is under way no longer. -/
def State.endLoad (s : State) : State := { s with mbox := { s.mbox with load := none } }

/-- A load fails with a status: what it created goes (R510). -/
def State.failLoad (s : State) (r : LoadRun) (t : Taken) (st : Nat) : State :=
  (if r.created then s.destroySuite r.suite else s).endLoad.finish t { status := st }

/-- IMAGE_LOAD as it starts (R485, R486, R510): its checks, and the suite is cleared. -/
def beginLoad (buf : HostRead) (t : Taken) (s : State) : State :=
  let src := param t 9 1
  if 1 < src then s.finish t { status := 4 }
  else if src = 1 ∧ leasedAway s t 3 (param t 12 4) then s.finish t { status := 0x0A } else
  let s := if src = 0 then s.dmaRead .pf (param t 16 8) (param t 24 8) else s
  match loadSource s t buf with
  | none => s.finish t { status := if src = 1 then 4 else 0x0C }
  | some (img, _) =>
    if asksCreate s t then
      let (st, i, s1) := createFrom s img
      if st ≠ 0 then s1.finish t { status := st } else
      let (st, s2) := startLoad s1 t i true img
      if st ≠ 0 then (s2.destroySuite i).finish t { status := st } else s2
    else
      let i := param t 8 1
      match suiteGate s i [.empty, .loaded, .stopped, .faulted] with
      | some r => s.finish t r
      | none =>
        let (st, s) := startLoad s t i false img
        if st ≠ 0 then s.finish t { status := st } else s

/-- IMAGE_LOAD as its body has been read (R486): the suite is LOADED, or EMPTY. -/
def endImage (buf peers : HostRead) (t : Taken) (s : State) (r : LoadRun) : State :=
  let (img, len) := (loadSource s t buf).getD ([], param t 24 8)
  let (st, ix, s) := loadInto s r img len peers (nbit (param t 10 1) 0)
  if st ≠ 0 then s.failLoad r t st else
  s.endLoad.finish t (okReply (if r.created then leBytes 1 r.suite else match ix with
    | some k => leBytes 4 k
    | none => []))

/-- IMAGE_LOAD's effect: it starts; as it goes on, its body is loaded (log 68). -/
def loadImage (buf peers : HostRead) (t : Taken) (s : State) : State :=
  if !t.running then beginLoad buf t s else
  match s.mbox.load with
  | some r => if r.ticket = t.ticket then endImage buf peers t s r else s
  | none => s

/-- BBK slot n is zeroised (R475): a load whose key came from it is abandoned with NO_KEY. -/
def State.abandonLoads (s : State) (n : Nat) : State :=
  match s.mbox.load with
  | none => s
  | some r =>
    if leAt r.header 768 1 ≠ 4 + n then s else
    match s.mbox.taken.find? (fun t => t.ticket == r.ticket) with
    | some t => (s.abandonLoad r.suite).failLoad r t 0x4A
    | none => s.endLoad

/-- BBK slot n zeroised. -/
def State.zeroiseBbk (s : State) (n : Nat) : State :=
  ({ s with keys := if n = 0 then { s.keys with bbk0 := none } else { s.keys with bbk1 := none } } : State).abandonLoads n

/-- IMAGE_LOAD (R486): the row starts the command with its header checks, and again ends it with its body (DESIGN CHOICE, log 68). -/
def execImageLoad (t : Nat) (buf peers : HostRead) (s : State) : Host.Outcome State Fault Refusal :=
  .next (runCommand s t 0x12 (fun _ => true) (fun _ => [(8, 255), (9, 255), (10, 1)] ++ whole 12 28) (loadImage buf peers))

/-- IMAGE_UNLOAD (R487, R510, R520): a 2.x session's also destroys the suite. -/
def execImageUnload (t : Nat) (s : State) : Host.Outcome State Fault Refusal :=
  .next (runCommand s t 0x13 (fun _ => true) (fun _ => whole 8 1) (fun t s =>
    let i := param t 8 1
    match suiteGate s i [.empty, .loaded, .stopped, .faulted] with
    | some r => s.finish t r
    | none =>
      if s.versionOf t < 0x0300 then (s.destroySuite i).finish t (okReply [])
      else if (s.suite i).state = .empty then s.finish t already
      else (s.unloadSuite i).finish t (okReply [])))

/-- SUITE_DESTROY (R487). -/
def execSuiteDestroy (t : Nat) (s : State) : Host.Outcome State Fault Refusal :=
  .next (runCommand s t 0x11 (fun _ => true) (fun _ => whole 8 1) (fun t s =>
    let i := param t 8 1
    match suiteGate s i [.empty, .loaded, .stopped, .faulted] with
    | some r => s.finish t r
    | none => (s.destroySuite i).finish t (okReply [])))

end Sys2Proof.Machine
end

