-- ==== Sys2Proof/Machine/Power.lean ====
section
/-!
DEFINITION. Supplies (R521–R526), clocks (R527–R529), bay and stack power (R530–R533), the power-cap loop and protection (R536–R539), and
maceration with the firmware boot (R546–R549, R607–R609).
-/

namespace Sys2Proof.Machine

/-- Bits of ALERT_CTL.STATUS set (Table 18.2). -/
def State.setAlert (s : State) (m : Byte) : State := { s with mgmt := { s.mgmt with alert := s.mgmt.alert ||| m } }

/-- n milliseconds in quanta of 1/15 ns. -/
def msec (n : Nat) : Nat := n * 15000000

/-! ### Supplies -/

/-- Maceration starts when every supply is there and THERMTRIP_N is released (R523, R525, R539): for the first time since power-on, or as the
warm reset of a rail's return. -/
def State.supplyStart (s : State) : State :=
  let p := s.power
  if !p.vaonGood || !p.vin12Good || !p.vin48Good || p.thermtrip || s.macer.started then s else
  let clear := fun (s : State) => { s with power := { s.power with lost12 := false, lost48 := false } }
  if p.lost12 then clear (({ s with macer := { s.macer with cold := true } }).warmReset 9 false)
  else if p.lost48 then clear (s.warmReset 7 false)
  else
    let s := s.waitUntil (max (p.vin12At + msec 2) (p.vin48At + msec 1))
    ({ s with macer := { s.macer with step := 1, cold := true, started := true, startAt := s.now } } : State).trainLink

/-- Every suite, bay, context and Gacon port is lost with a rail, and maceration waits for supplies (R525). -/
def State.lostRail (s : State) (cold : Bool) : State :=
  let cold := cold || s.devState == .safe || (s.devState == .maceration && s.macer.cold)
  let s := s.dropSuites.clearDevice true
  ({ s with macer := { cold := cold }, quiesced := false, drainMode := 0 }).setDevState .maceration

/-- The memory ports after a loss of VIN12 or at power-on: nothing is stored, and their periods count from now (Tables 9.5, 15.7). -/
def State.blankPorts (s : State) : SMap MemPort := (List.range 12).map (fun p => (p, { base := s.slotNow, scrubPos := (s.port p).scrubPos }))

/-- What a power-on finds of the time before (Table 15.7): fuses, store die, repair log, metering ring, and what VBAT holds. -/
def State.powerOn (s : State) : State :=
  let old := s.mgmt
  { now := s.now, free := s.free, pending := s.pending, out := s.out, grade := s.grade, uid := s.uid, repair := s.repair, keys := s.keys
    fw := { s.fw with reverted := false }, store := s.store, errLog := s.errLog
    mbox := { leases := s.mbox.leases.map (fun e => (e.1, breakLease e.2)), sessionGen := s.mbox.sessionGen }
    metering := { ring := s.metering.ring, nextSeq := s.metering.nextSeq, ckptAt := s.now }
    suites := s.suites.map (fun (e : Nat × Suite) => (e.1, { savedMeter := e.2.savedMeter }))
    ports := (List.range 12).map (fun p => (p, { base := s.slotNow }))
    power := { vaonGood := true, vaonAt := s.now, vbatGood := s.power.vbatGood, perstLow := s.power.perstLow }
    mgmt := { sealOpened := old.sealOpened, loopOpen := old.loopOpen, present := old.present } }

/-- VAON_GOOD (R523): a power-on reset; the tick counter starts at 0. -/
def execVaonGood (s : State) : Host.Outcome State Fault Refusal :=
  .next (if s.devState = .off then s.powerOn else s)

/-- VAON_LOSS (R525): everything turns off. -/
def execVaonLoss (s : State) : Host.Outcome State Fault Refusal :=
  let s := { s with power := { s.power with linkUp := false }, pcie := {} }
  let s := (((s.dropSuites.clearDevice false).breakLeases).endMailbox).setDevState .off
  .next { s with power := { s.power with vaonGood := false, vin12Good := false, vin48Good := false }, macer := {}, ports := s.blankPorts }

/-- VIN12_GOOD (R523–R525): before 10 ms after VAON it is early and taken as good at that time; a return counts 2 ms later. -/
def execVin12Good (s : State) : Host.Outcome State Fault Refusal :=
  let p := s.power
  if s.devState = .off ∨ p.vin12Good then .next s else
  let early := decide (s.now < p.vaonAt + msec 10)
  let s := { s with power := { p with early12 := p.early12 || early } }
  let s := if early then s.waitUntil (p.vaonAt + msec 10) else s
  let s := if p.lost12 then s.waitUntil (s.now + msec 2) else s
  .next ({ s with power := { s.power with vin12Good := true, vin12At := s.now } }).supplyStart

/-- VIN12_LOSS (R525): all but the always-on domain is off, and HBM contents are lost. -/
def execVin12Loss (s : State) : Host.Outcome State Fault Refusal :=
  if s.devState = .off ∨ !s.power.vin12Good then .next s else
  let s := { s with power := { s.power with linkUp := false }, pcie := {} }
  let s := ((s.lostRail true).breakLeases).endMailbox
  .next { s with power := { s.power with vin12Good := false, lost12 := true, railFault := true }, ports := s.blankPorts
                 devLog := { s.devLog with records := [] } }

/-- VIN48_GOOD (R523, R524): before VIN12 it is early, and core conversion waits. -/
def execVin48Good (s : State) : Host.Outcome State Fault Refusal :=
  let p := s.power
  if s.devState = .off ∨ p.vin48Good ∨ p.lost48 then .next s else
  .next ({ s with power := { p with vin48Good := true, vin48At := s.now, early48 := p.early48 || !p.vin12Good } }).supplyStart

/-- VIN48_LOSS (R525): suites are lost, every stack is in self-refresh, and the mailbox answers the MACERATION commands. -/
def execVin48Loss (s : State) : Host.Outcome State Fault Refusal :=
  if s.devState = .off ∨ !s.power.vin48Good then .next s else
  let s := s.lostRail false
  .next { s with power := { s.power with vin48Good := false, lost48 := true, railFault := true } }

/-- VIN48_RETURN (R525): a warm reset once VIN48 has been good for 10 ms. -/
def execVin48Return (s : State) : Host.Outcome State Fault Refusal :=
  if s.devState = .off ∨ s.power.vin48Good ∨ !s.power.lost48 then .next s else
  let s := s.waitUntil (s.now + msec 10)
  .next ({ s with power := { s.power with vin48Good := true, vin48At := s.now } }).supplyStart

/-- VBAT_LOSS (R525): the reset domain BAT is cleared: the BBK slots are zeroised, and SEAL_OPENED reads 0 (R13, Table 18.4). -/
def execVbatLoss (s : State) : Host.Outcome State Fault Refusal :=
  let s := (s.zeroiseBbk 0).zeroiseBbk 1
  .next { s with power := { s.power with vbatGood := false, railFault := s.power.railFault || s.power.vbatGood }
                 mgmt := { s.mgmt with sealOpened := false } }

/-- VBAT_GOOD (R522): the seal monitor runs from VBAT. -/
def execVbatGood (s : State) : Host.Outcome State Fault Refusal :=
  .next { s with power := { s.power with vbatGood := true }, mgmt := { s.mgmt with sealClosed := !s.mgmt.loopOpen } }

/-! ### Clocks -/

/-- RESONATOR_FAILURE (R527, R528): the ring oscillator takes over, the hub PLL enters holdover, ALERT_N is asserted. -/
def execResonatorFailure (s : State) : Host.Outcome State Fault Refusal :=
  if s.devState = .off ∨ s.power.backup then .next s else
  let s := { s with power := { s.power with backup := true, holdover := true, holdAt := s.now } }
  .next ((s.report 8 3 0 0 0 .hub none).setAlert 2)

/-- HOLDOVER_END (R528): 10 s after it began, the hub PLL follows the ring oscillator. -/
def execHoldoverEnd (s : State) : Host.Outcome State Fault Refusal :=
  if !s.power.holdover then .next s else
  let s := s.waitUntil (s.power.holdAt + msec 10000)
  .next { s with power := { s.power with holdover := false } }

/-- BAY_PLL_LOCK (R529): the regulator has reached the step voltage and the PLL is locked. -/
def execBayPllLock (b : BayId) (s : State) : Host.Outcome State Fault Refusal :=
  let y := s.bay b.val
  .next (if y.power = .on then s.setBay b.val { y with lock := true, vcore := stepVcore y.step } else s)

/-! ### Bays and stacks -/

/-- One complete scrub pass of every octant of a cell (R140, R531). -/
def State.scrubPass (s : State) (c : Nat) : State :=
  let x := s.cell c
  let data := wordsOf (x.mem.map (fun e => e.1))
  let words := data ++ ((x.check.map (fun e => 4 * e.1)).filter (fun a => !data.contains a))
  let r := x.readWords words
  let k := scrubPeriod s.tick
  let s := s.setCell c { x.count 0x032 (8 * 4096) with scrub := (List.range 8).map (fun o =>
    let q := sget {} x.scrub o
    (o, { q with period := k, reads := 4096, past := if q.period = k then q.past else q.made (k - 1) })) }
  r.bad.foldl (fun s a => s.poisonPane c (gPane a) 1) ((s.fixWords c r.fixed).noteBad c r.bad)

/-- ASLEEP_SCRUB_WAKE (R531): an ASLEEP bay scrubs every octant of its cells once and sleeps again. -/
def execAsleepScrubWake (b : BayId) (s : State) : Host.Outcome State Fault Refusal :=
  if (s.bay b.val).power ≠ .asleep then .next s else .next ((bayCells b.val).foldl (fun s c => s.scrubPass c) s)

/-- Whether a suite has a window in a stack, one of its protected extents included (R533; DEDUCED, log 97). -/
def hasWindow (u : Suite) (p : Nat) : Bool := u.windows.any (fun w => w.stack == p) || u.protExts.any (fun e => e.1 == p)

/-- Whether a stack is wanted (R533): by a RUNNING suite, by loader work, or by a host access that waits for it. -/
def stackUsed (s : State) (p : Nat) : Bool :=
  s.suites.any (fun e => e.2.state == .running && hasWindow e.2 p) || s.mbox.load.any (fun r => hasWindow (s.suite r.suite) p)
    || s.mbox.waits.any (fun w => stackOf w.addr == p)

/-- STACK_SELF_REFRESH_ENTRY (R533). -/
def execStackSelfRefreshEntry (p : PortId) (s : State) : Host.Outcome State Fault Refusal :=
  if (s.devState = .ready ∨ s.devState = .active ∨ s.devState = .draining) ∧ !stackUsed s p.val then .next (s.updPort p.val (fun q => { q with selfRefresh := true })) else .next s

/-- STACK_SELF_REFRESH_EXIT (R533). -/
def execStackSelfRefreshExit (p : PortId) (s : State) : Host.Outcome State Fault Refusal :=
  if stackUsed s p.val then .next (s.updPort p.val (fun q => { q with selfRefresh := false })) else .next s

/-! ### Power policy -/

/-- The suite with the largest positive margin, the lowest number of equals. -/
def largestMargin (l : List (Nat × Nat)) : Option Nat :=
  (l.foldl (fun (b : Option (Nat × Nat)) e =>
    if e.2 = 0 then b else
    match b with
    | none => some e
    | some x => if x.2 < e.2 then some e else some x) none).map (fun e => e.1)

/-- The duty level (R537, Table 15.14). -/
def State.setDuty (s : State) (d : BitVec 4) : State := { s with power := { s.power with duty := d } }

/-- POWER_CAP_LOOP (R536): one action on the 10 ms average P10; peak: the highest 100 µs average since the last turn (Table 15.14). -/
def execPowerCapLoop (p10 peak : W16) (s : State) : Host.Outcome State Fault Refusal :=
  let s := { s with power := { s.power with p10 := p10, peak := if s.power.peak < peak then peak else s.power.peak } }
  let cap := s.power.cap.toNat
  let run := (List.range 32).filter (fun i => (s.suite i).state == .running)
  if cap < p10.toNat then
    match largestMargin (run.map (fun i => (i, (s.suite i).freq.target.toNat - (effFloor (s.suite i)).toNat))) with
    | some i => .next (s.setTarget i ((s.suite i).freq.target - 1) false)
    | none => .next (if s.power.duty.toNat < 12 then s.setDuty (s.power.duty + 1) else s)
  else if 100 * p10.toNat < 95 * cap then
    if 0 < s.power.duty.toNat then .next (s.setDuty (s.power.duty - 1)) else
    match largestMargin (run.map (fun i => (i, (s.suite i).freq.ceiling.toNat - (s.suite i).freq.target.toNat))) with
    | some i => .next (s.setTarget i ((s.suite i).freq.target + 1) false)
    | none => .next s
  else .next s

/-! ### Protection -/

/-- A bay's regulator phase stands at its current limit, or no longer does (R538). -/
def State.limitBay (s : State) (c : ProtCause) (on : Bool) : State :=
  match c with
  | .current b => s.updBay b.val (fun y => { y with limited := on })
  | _ => s

/-- PROTECTION_TRIGGER (R538): the root of each RUNNING suite concerned raises PROTECT, and its TARGET falls at its next close. -/
def execProtectionTrigger (c : ProtCause) (s : State) : Host.Outcome State Fault Refusal :=
  let old := s.power.protects.contains c
  let s := (({ s with power := { s.power with protects := if old then s.power.protects else s.power.protects ++ [c] } } : State).setAlert 4).limitBay c true
  .next ((List.range 32).foldl (fun s i =>
    if (s.suite i).state = .running ∧ concerns s i c ∧ !(old && (s.suite i).freq.protect) then s.raiseProtect i c else s) s)

/-- PROTECTION_CLEAR (R538): 100 µs after the condition clears, the roots that no other condition concerns lower PROTECT. -/
def execProtectionClear (c : ProtCause) (s : State) : Host.Outcome State Fault Refusal :=
  if !s.power.protects.contains c then .next s else
  let s := s.limitBay c false
  let s := s.waitUntil (s.now + 1500000)
  let left := s.power.protects.filter (fun d => d != c)
  let s := { s with power := { s.power with protects := left } }
  .next ((List.range 32).foldl (fun s i =>
    if (s.suite i).freq.protect ∧ !left.any (concerns s i) then s.updSuite i (fun u => { u with freq := { u.freq with protect := false } }) else s) s)

/-- THERMTRIP (R539): at 115 °C or more, a warm reset whose maceration waits. -/
def execThermtrip (tj : Byte) (s : State) : Host.Outcome State Fault Refusal :=
  if s.devState = .off ∨ tj.toNat < 115 ∨ s.power.thermtrip then .next s else
  let s := s.warmReset 5 false
  let s := { s with power := { s.power with thermtrip := true, tjMax := tj }, macer := { s.macer with step := 0, started := false } }
  .next (s.setAlert 4)

/-- THERMTRIP_REARM (R539): below 95 °C THERMTRIP_N is released, and maceration begins. -/
def execThermtripRearm (tj : Byte) (s : State) : Host.Outcome State Fault Refusal :=
  if !s.power.thermtrip ∨ 95 ≤ tj.toNat then .next s else
  let s := { s with power := { s.power with thermtrip := false, tjMax := tj } }
  if s.power.vin12Good ∧ s.power.vin48Good ∧ !s.power.lost12 ∧ !s.power.lost48 then
    .next { s with macer := { s.macer with step := 1, started := true, startAt := s.now } }
  else .next s.supplyStart

/-! ### Firmware boot -/

/-- The bytes of a physical firmware slot. -/
def slotBytes (f : Firmware) (slot : Bool) : Memory := if slot then f.slot1 else f.slot0

/-- Whether a physical slot passes the check of R606; the key is known by the digest in fuses. -/
def slotGood (f : Firmware) (slot : Bool) : Bool :=
  if f.shipped = some slot then true else
  let m := slotBytes f slot
  let n := leNat (mreadN m 8 8)
  leNat (mreadN m 0 4) == 0x5059524E && decide (leNat (mreadN m 4 4) ≤ 255) && decide (160 ≤ n) && decide (n ≤ 2 ^ 26)
    && mreadN m 16 48 == Config.sha384 (mreadN m 160 (n - 160)) && Config.ecdsaP384 f.fwKeyDigest (mreadN m 64 96) (mreadN m 0 64)

/-- The boot pointer is written (R607): to the copy with the lower sequence number, with the higher one plus 1. -/
def writePtr (f : Firmware) (p : BootPtr) : Firmware :=
  let n := (bootPtr f).seqNo + 1
  if f.ptr0.ok ∧ (!f.ptr1.ok ∨ f.ptr1.seqNo ≤ f.ptr0.seqNo) then { f with ptr1 := { p with seqNo := n, ok := true } }
  else { f with ptr0 := { p with seqNo := n, ok := true } }

/-- The boot ROM's choice of slot (R609). The Bool: a slot that passes its check runs. -/
def State.bootFirmware (s : State) : Bool × State :=
  let p := bootPtr s.fw
  if p.trial ∧ 0 < p.trialsLeft.toNat ∧ slotGood s.fw (!p.slot) then
    let f := writePtr s.fw { p with trialsLeft := p.trialsLeft - 1 }
    (true, { s with fw := { f with running := !p.slot } })
  else
    let s := if p.trial then
        let s := { s with fw := { writePtr s.fw { p with trial := false } with reverted := true } }
        (s.setAlert 1).logEvent 8 0 s.fw.svnB.toNat none
      else s
    (slotGood s.fw p.slot, { s with fw := { s.fw with running := p.slot } })

/-! ### Maceration -/

/-- A step cannot complete (R549): SAFE, FAULT_N low, every bay OFF. -/
def State.enterSafe (s : State) (code : Byte) : State :=
  (({ s with macer := { s.macer with failed := true, failStep := s.macer.step, failCode := code, started := false } } : State).setAlert 0x20).setDevState .safe

/-- Every stack that trained is in self-refresh (R549). -/
def State.restStacks (s : State) (bad : List PortId) : State :=
  { s with ports := (List.range 12).map (fun p => (p, { s.port p with selfRefresh := !bad.any (fun q => q.val == p) })) }

/-- Index of a subarray in rowsUsed: bay row, physical column, bank, subarray. -/
def subarrayIx (e : Fin 256 × Fin 17 × Fin 256 × Fin 32 × Nat) : Nat := ((e.1.val * 17 + e.2.1.val) * 256 + e.2.2.1.val) * 32 + e.2.2.2.1.val

/-- Row repair (R41, R100): up to 2 faulty rows of a subarray are replaced. -/
def State.repairRows (s : State) (l : List (Fin 256 × Fin 17 × Fin 256 × Fin 32 × Nat)) : State :=
  { s with repair := { s.repair with rowsUsed := l.foldl (fun m e => if e.2.2.2.2 = 0 then m else sset m (subarrayIx e) (min 2 e.2.2.2.2)) s.repair.rowsUsed } }

/-- The macros of the logical cells that a subarray with more than 2 faulty rows fails (R100, Table 15.8). -/
def rowFailures (s : State) (l : List (Fin 256 × Fin 17 × Fin 256 × Fin 32 × Nat)) : List UnitCheck :=
  (l.filter (fun e => decide (2 < e.2.2.2.2))).flatMap (fun e =>
    ((bayCells (e.1.val / 8)).filter (fun c => cellRow c == e.1.val % 8 && physColumn (s.shiftOf c) (cellLx c) == e.2.1.val)).map (fun c => .sramMacro (cellId c)))

/-- Cells that failed a test in maceration (R547): marked, and the row is shifted or the bay retired. -/
def State.spareCells (s : State) (l : List UnitCheck) : State :=
  l.foldl (fun s k => match vacated k with
    | none => s
    | some c =>
      let s := s.markUnit k 0
      match s.shiftRow c with
      | some s => s
      | none => s.retireBay (cellBay c)) s

/-- Units that passed a repair retest have their marks cleared, and a lane's spare is free again; the retired bays that passed are kept for
step 7 (R548). -/
def State.clearMarks (s : State) (units : List (UnitCheck × Nat)) (bays : List BayId) : State :=
  if !s.macer.retest then s else
  let free := fun (m : SMap (List Nat)) (e : UnitCheck × Nat) => match e.1 with
    | .borderLane b => supd [] m b.val (fun l => l.filter (fun g => g != e.2))
    | _ => m
  { s with repair := { s.repair with marks := s.repair.marks.filter (fun e => !units.contains e), steered := units.foldl free s.repair.steered }
           macer := { s.macer with passed := s.macer.passed ++ bays } }

/-- Bays retired at run time that become good again: they passed the retest, and no failed mark remains against them (R27, R548). -/
def bayRestored (s : State) (b : BayId) : Bool :=
  s.macer.retest && s.macer.passed.contains b && !s.repair.marks.any (fun e => checkBay e.1 == b.val)

/-- Shift positions from fuses and failed marks, the oldest of a row first (R24, R548). -/
def shiftsOf (r : Repair) : SMap (BitVec 5) :=
  ((List.range 256).map (fun k =>
    let f := sget 16 r.fuseShift k
    let mark := (r.marks.filterMap (fun e => vacated e.1)).find? (fun c => 8 * cellBay c + cellRow c == k)
    (k, if f.toNat < 16 then f else match mark with
      | some c => BitVec.ofNat 5 (cellLx c)
      | none => 16#5))).filter (fun e => e.2 != 16)

/-- Step 7 (R548, R549, R336, R615): the grid, the slot split, the metering records of the suites that were lost; READY. -/
def State.enterReady (s : State) : State :=
  let r := { s.repair with retiredBays := s.repair.retiredBays.filter (fun b => !bayRestored s b) }
  let good := r.retiredBays.foldl (fun g b => g &&& ~~~ BitVec.ofNat 32 (2 ^ b.val)) r.fuseGood
  let s := { s with repair := { r with shift := if s.macer.retest then shiftsOf r else r.shift, good := good, split := r.bootSplit }
                    macer := { s.macer with done := true, started := false } }
  s.recoverMeters.setDevState .ready

/-- The next step of maceration. -/
def State.nextMacer (s : State) : State := { s with macer := { s.macer with step := s.macer.step + 1 } }

/-- The supply events of step 1 are copied to the device log (R524, Table 16.4b). -/
def State.logSupplies (s : State) : State :=
  let p := s.power
  let m := b2n p.railFault + 2 * b2n p.early12 + 4 * b2n p.early48
  if m = 0 then s else s.logEvent 7 0 m none

/-- MACERATION_STEP_COMPLETE (R546–R549, R623, Table 15.8). -/
def execMacerationStepComplete (r : MacReport) (s : State) : Host.Outcome State Fault Refusal :=
  if s.devState ≠ .maceration ∨ !s.macer.started then .next s else
  let step := s.macer.step.toNat
  if step = 1 then
    let (ok, s) := s.logSupplies.bootFirmware
    let s := { s with mgmt := { s.mgmt with sealClosed := !s.mgmt.loopOpen }, power := { s.power with commonClock := r.refclk } }
    .next (if ok && r.ok then s.nextMacer else s.enterSafe r.code)
  else if step = 2 then
    let (chal, s) := s.fresh
    let s := { s with mgmt := { s.mgmt with challenge := chal } }
    .next (if r.ok then s.nextMacer else s.enterSafe r.code)
  else if step = 3 ∨ step = 4 then
    let s := s.clearMarks r.retested r.retestedBays
    let rows := if step = 3 then r.badRows else []
    .next (((s.repairRows rows).spareCells (rowFailures s rows ++ r.badCells.map (fun c => .datapath c))).nextMacer)
  else if step = 5 then
    let s := s.clearMarks r.retested r.retestedBays
    let s := r.badBays.foldl (fun s b => s.retireBay b.val) s
    .next (if r.ok then s.nextMacer else s.enterSafe r.code)
  else if step = 6 then
    let good := fun (q : MemPort) => if s.macer.cold then { q with data := [], check := [], selfRefresh := false } else { q with selfRefresh := false }
    let s := { s with ports := (List.range 12).map (fun p =>
      (p, if r.badStacks.any (fun b => b.val == p) then s.port p else { good (s.port p) with retired := false })) }
    .next (if r.ok && r.badStacks.isEmpty then s.nextMacer else (s.restStacks r.badStacks).enterSafe r.code)
  else .next s.enterReady

end Sys2Proof.Machine
end

