-- ==== Sys2Proof/Machine/Recovery.lean ====
section
/-!
DEFINITION. Unit checks, recovery, repair and quarantine (R551–R575).
-/

namespace Sys2Proof.Machine

/-! ### Unit checks -/

/-- CODE of a unit check record (Table 16.4). -/
def checkCode : UnitCheck → Nat
  | .datapath _ => 1
  | .sramMacro _ => 2
  | .track _ _ => 3
  | .borderLane _ => 4
  | .regulatorPhase _ => 5
  | .pllLock _ => 6
  | .hubLinkLane _ => 7

/-- The unit that a check names. -/
def checkUnit : UnitCheck → UnitRef
  | .datapath c => .cell c
  | .sramMacro c => .cell c
  | .track c _ => .cell c
  | .borderLane b => .bay b
  | .regulatorPhase b => .bay b
  | .pllLock b => .bay b
  | .hubLinkLane b => .bay b

/-- Whether a unit check is only logged (Table 16.2, Table 16.7): the other phases or the link's spares carry on. -/
def checkCorrected : UnitCheck → Bool
  | .regulatorPhase _ => true
  | .hubLinkLane _ => true
  | _ => false

/-- The record of a unit check (Table 16.4, TYPE 0x03). -/
def State.reportCheck (s : State) (k : UnitCheck) (cls info : Nat) (suite : Option Nat) : State := s.report 3 (checkCode k) cls 0 info (checkUnit k) suite

/-- What a unit check changes at once: a bay waits for the lock of its PLL (R569); a lost regulator phase lowers the bay's current limit by one
eighth, and a hub-link lane is steered to its spare (Table 16.7). -/
def State.checkEffect (s : State) (b : Nat) : UnitCheck → State
  | .pllLock _ => s.updBay b (fun y => { y with lock := false })
  | .regulatorPhase _ => { s with repair := { s.repair with phases := supd 0 s.repair.phases b (fun n => min 8 (n + 1)) } }
  | .hubLinkLane _ => { s with repair := { s.repair with hubSteered := supd 0 s.repair.hubSteered b (· + 1) } }
  | _ => s

/-- UNIT_CHECK_ERROR (R553, R555, R557, R560): the record is made at the detection, and the quick test completes its INFO. In a RUNNING suite the
check is suite-recoverable or suite-fatal; in another state of a suite it is classified, tested and repaired, and the state stays (Table 14.13;
DEDUCED, log 73). A unit that stayed in service unrepaired and fails again in the redo is suite-fatal. -/
def execUnitCheckError (k : UnitCheck) (s : State) : Host.Outcome State Fault Refusal :=
  let b := checkBay k
  let s := s.checkEffect b k
  match (s.bay b).owner.map (fun o => o.val) with
  | none => .next (s.reportCheck k 0 0 none)
  | some i =>
    if checkCorrected k then .next (s.reportCheck k 0 0 (some i)) else
    let u := s.suite i
    let cls := if sectRecov u && !(u.recov.redo && u.recov.stuck.contains k) then 1 else 2
    let test : UnitTest := ⟨k, some (s.errLog.next.toNat, u.errq.next.toNat)⟩
    let s := s.reportCheck k cls 0 (some i)
    .next (if u.state = .running then s.suiteFault i cls false none (some test)
      else s.updSuite i (fun u => { u with recov := { u.recov with tests := u.recov.tests ++ [test] } }))

/-! ### The recovery sequence -/

/-- RECOVERY_DETECT (R555, R558): the controller raises MGMT; pending restores are cancelled (R571), staged effects
discarded, and the contexts stop. -/
def execRecoveryDetect (sid : SuiteId) (s : State) : Host.Outcome State Fault Refusal :=
  let i := sid.val
  let u := s.suite i
  if !u.recov.requested ∨ u.recov.active ∨ u.recov.fatal ∨ u.state ≠ .running then .next s else
  let s := s.setSuite i { u with recov := { u.recov with requested := false, active := true, phase := 1 } }
  let s := (suiteCells s i).foldl (fun s c => s.updCell c (fun x => { x with accesses := x.accesses.filter (·.restored.isNone) })) s
  .next (if u.feeder.isOpen then (s.dropStaged i).endContexts i false else s)

/-- The tallies of a rolled-back run join SPENT (R588). -/
def spendTallies (x : Cell) : Cell :=
  let n := x.obs.tdOpen.foldl (fun a v => a + v) 0
  { x with obs := { x.obs with tdClosed := x.obs.tdClosed.mapIdx (fun k v => if k = 1 then v + n else v), tdOpen := [0, 0, 0, 0, 0] } }

/-- A cell whose run is rolled back (R393, R562, R588): its engines and its traffic are gone, its queues restored. -/
def rollbackCell (x : Cell) : Cell :=
  let y := (List.range 256).foldl (fun (y : Cell) q => if y.qValid q then y.rollbackQueue q else y) (spendTallies x)
  { y with eng := {}, seq := { y.seq with handler := none, dispatch := [], waiting := [], late := [], faults := [] }, que := { y.que with localSlots := [] }
           trk := { y.trk with wires := [], outlets := [], router := y.trk.routerKept, coming := [], frames := [], landings := [], arrivals := y.trk.arrivals.filter (fun a => a.src == .hub) } }

/-- A held sample of a rolled-back run is of class SPENT (R592, Table 17.9). -/
def spendSample (r : W256) : W256 := (r &&& ~~~ BitVec.ofNat 256 (3 * 2 ^ 101)) ||| BitVec.ofNat 256 (2 ^ 101)

/-- The open section of a suite is rolled back (R318, R320, R393, R588, R592), if one is open; every cell loads its configuration again
(R558, R562). -/
def State.rollback (s : State) (i : Nat) : State :=
  let isOpen := (s.suite i).feeder.isOpen
  let s := if isOpen then
      let s := (s.dropStaged i).endContexts i false
      let s := (suiteCells s i).foldl (fun s c => (s.loseCell c).updCell c rollbackCell) s
      let s := (suiteBays s i).foldl (fun s b => s.updBay b (fun y => { y with samples := y.samples.map spendSample, eligible := y.eligible.map spendSample })) s
      (s.passSamples i).updSuite i (fun u => { u with feeder := { u.feeder with next := u.feeder.current, configured := true, dried := 0 } })
    else s
  s.reloadCells i

/-- The repair of a unit with a permanent fault, which is marked (R548, R559, R560): the Bool tells that it was made. -/
def State.repairUnit (s : State) (i : Nat) (k : UnitCheck) : Bool × State :=
  match vacated k with
  | none =>
    (match k with
     | .borderLane b =>
       -- the check names no lane: its group of 8, with one spare (R41), is a free value (log 1)
       let (g, s) := s.fresh
       let s := s.markUnit k g.toNat
       let used := sget [] s.repair.steered b.val
       if used.contains g.toNat then (false, s) else (true, { s with repair := { s.repair with steered := sset s.repair.steered b.val (g.toNat :: used) } })
     | _ => (false, s))
  | some c =>
    let s := s.markUnit k 0
    match s.shiftRow c with
    | some s => (true, s.updSuite i (fun u => { u with recov := { u.recov with shifted := u.recov.shifted ++ [cellId c] } }))
    | none => (false, s.relocate i (cellBay c))

/-- The unit that a quick test tests: for a cell that has faulted, its SRAM macro when that gave uncorrectable words at two bank addresses of a
subarray (R559). -/
def State.testedUnit (s : State) (t : UnitTest) : UnitCheck :=
  match t.unit with
  | .datapath c => if t.record.isNone && (s.cell c.val).macroBad (scrubPeriod s.tick) then .sramMacro c else t.unit
  | k => k

/-- Whether a unit's fault is permanent without a test (R559). -/
def State.permanent (s : State) : UnitCheck → Bool
  | .sramMacro c => (s.cell c.val).macroBad (scrubPeriod s.tick)
  | _ => false

/-- INFO of a unit check's record is completed, where the device error log and the error queue still hold it (Table 16.4). -/
def State.completeRecord (s : State) (i log queue info : Nat) : State :=
  let m := BitVec.ofNat 256 (info * 2 ^ 64)
  ({ s with errLog := ringMark s.errLog log m } : State).updSuite i (fun u => { u with errq := ringMark u.errq queue m })

/-- The outcome of the quick test of the unit that has waited longest: its repair, and its record; a cell that has faulted and fails its test has
one made. -/
def State.afterTest (s : State) (i : Nat) (t : UnitTest) (pass : Bool) : State :=
  let k := s.testedUnit t
  let pass := pass && !s.permanent k
  let (fixed, s) := if pass then (false, s) else s.repairUnit i k
  let s := s.updSuite i (fun u => { u with recov := { u.recov with
    tests := u.recov.tests.drop 1, stuck := if pass || fixed then u.recov.stuck else u.recov.stuck ++ [k] } })
  let info := b2n (!pass) + 2 * b2n fixed
  match t.record with
  | some (a, b) => s.completeRecord i a b info
  | none => if pass then s else s.reportCheck k 1 info (some i)

/-- The detect phase ends with the shift, or with the reload (R558). -/
def State.endDetect (s : State) (i : Nat) : State :=
  if !(s.suite i).recov.shifted.isEmpty then s.updSuite i (fun u => { u with recov := { u.recov with phase := 2 } })
  else (s.rollback i).updSuite i (fun u => { u with recov := { u.recov with phase := 3 } })

/-- The rows that a repair outside a recovery has shifted: a STOPPED suite's cells at new positions are filled, and configurations loaded, as by
a quarantine (R562, Table 16.9). -/
def State.settleShifts (s : State) (i : Nat) : State :=
  let u := s.suite i
  let s := if u.state = .stopped ∧ !u.recov.shifted.isEmpty then
      (u.recov.shifted.foldl (fun s c => s.refillCell i c.val u.feeder.next) s).reloadCells i
    else s
  s.updSuite i (fun u => { u with recov := { u.recov with shifted := [] } })

/-- QUICK_TEST_DONE (R555, R558–R561): in a recovery whose hold is in force the oldest unit that waits is tested, and with the last one the detect
phase ends; outside RUNNING a unit is tested and repaired all the same (Table 16.2). -/
def execQuickTestDone (sid : SuiteId) (pass : Bool) (s : State) : Host.Outcome State Fault Refusal :=
  let i := sid.val
  let u := s.suite i
  if u.state ≠ .running then
    .next (match u.recov.tests with
      | t :: _ => (s.afterTest i t pass).settleShifts i
      | [] => s)
  else if !u.recov.active ∨ u.recov.phase ≠ 1 ∨ u.recov.fatal ∨ (u.feeder.isOpen ∧ !u.hold.held) then .next s else
  let s := match u.recov.tests with
    | t :: _ => s.afterTest i t pass
    | [] => s
  .next (if (s.suite i).recov.tests.isEmpty then s.endDetect i else s)

/-- LATERAL_COPY_DONE (R561): the row has moved; logical cells keep their contents, and the reload begins. -/
def execLateralCopyDone (sid : SuiteId) (s : State) : Host.Outcome State Fault Refusal :=
  let u := s.suite sid.val
  if !u.recov.active ∨ u.recov.phase ≠ 2 ∨ u.recov.fatal then .next s else
  .next ((s.rollback sid.val).updSuite sid.val (fun u => { u with recov := { u.recov with phase := 3 } }))

/-- RESTORE_DONE (R562, R563): every cell has its configuration, and the mirror tiles are in their panes. -/
def execRestoreDone (sid : SuiteId) (s : State) : Host.Outcome State Fault Refusal :=
  let i := sid.val
  let u := s.suite i
  if !u.recov.active ∨ u.recov.phase ≠ 3 ∨ u.recov.fatal ∨ !(suiteCells s i).all (fun c => (s.cell c).state == .waitingStart) then .next s else
  let k := u.feeder.next
  let s := u.recov.shifted.foldl (fun s c => s.refillCell i c.val k) s
  let s := if u.feeder.isOpen then
      ((suiteCells s i).filter (fun c => !u.recov.shifted.any (fun d => d.val == c))).foldl (fun s c =>
        (restoredPanes u (s.cell c) c k).foldl (fun s p => s.fillPane c p.1 p.2) s) s
    else s
  .next (s.updSuite i (fun u => { u with recov := { u.recov with phase := 4 } }))

/-- SUITE_FATAL_FAULT (R554, R555, R570): a suite-fatal fault that was reported puts the suite in FAULTED; a recovery under way is abandoned. -/
def execSuiteFatalFault (sid : SuiteId) (s : State) : Host.Outcome State Fault Refusal :=
  let i := sid.val
  let u := s.suite i
  if !u.recov.fatal ∨ u.state ≠ .running then .next s else
  let s := if u.recov.active then s.report 7 2 0 0 u.recov.lastNs.toNat .none (some i) else s
  .next ((s.faultSuite i).updSuite i (fun u => { u with recov := { u.recov with
    active := false, phase := 0, requested := false, fatal := false, job := false, redo := false, stuck := []
    tests := u.recov.tests.filter (fun t => t.record.isSome) } }))

/-! ### Mirrors -/

/-- The granules of a tile as they are read; none where one of them cannot be. -/
def tileBytes (q : MemPort) (off : Nat) : Option (List Byte) :=
  (List.range 64).foldl (fun r j => r.bind (fun l => match q.granule (off / 64 + j) with
    | .good d => some (l ++ d)
    | .corrected d => some (l ++ d)
    | _ => none)) (some [])

/-- The next owned slot of a class that a suite's context leaves idle is taken for the repair engine (R571). -/
def State.repairSlot (s : State) (i p cls : Nat) : Option State :=
  (s.idleSlot p i (fun k => k == cls)).map (fun n =>
    ((s.waitSlot p n).updPort p (fun q => { q with lastSlot := some n })).countDev (0x200 + cls * 2) p 1)

/-- MIRROR_RESTORE (R571): the mirror of a pane that a scrubber poisoned, with a range that includes the open section, is read in an idle
read slot, and the pane's strips take unclaimed cycles of its octant; the last one makes it FULL. A mirror that cannot be read leaves it as
it is (DESIGN CHOICE, log 74). -/
def execMirrorRestore (c : CellId) (o : Fin 8) (pane : Fin 128) (s : State) : Host.Outcome State Fault Refusal :=
  let g := 128 * o.val + pane.val
  let x := s.cell c.val
  match cellSuite x with
  | none => .next s
  | some i =>
    let u := s.suite i
    if x.tag g ≠ .poisoned ∨ !x.scrubbed.contains g ∨ x.accesses.any (fun a => a.restored == some g) ∨ !u.feeder.isOpen ∨ u.recov.active then .next s else
    match mirrorOf u c.val g u.feeder.current with
    | none => .next s
    | some a =>
      match s.repairSlot i (stackOf a) 0 with
      | none => .next s
      | some s =>
        match tileBytes (s.port (stackOf a)) (stackOff a) with
        | none => .next s
        | some bs =>
          .next ((List.range 32).foldl (fun s k => s.access c.val (.restore (paneAddr g + 128 * k) (slice bs (128 * k) 128) (k == 31))) s)

/-- Whether a granule of a tile holds the poison pattern since a scrub read. -/
def tilePoisoned (q : MemPort) (off : Nat) : Bool :=
  (List.range 64).any (fun j => q.scrubbed.contains (off / 64 + j) && q.granule (off / 64 + j) == .poison)

/-- MIRROR_REWRITE (R571): a mirror tile with a granule that a scrubber poisoned is rewritten from its FULL pane in an idle write slot of the
suite. -/
def execMirrorRewrite (c : CellId) (o : Fin 8) (pane : Fin 128) (s : State) : Host.Outcome State Fault Refusal :=
  let g := 128 * o.val + pane.val
  let x := s.cell c.val
  match cellSuite x with
  | none => .next s
  | some i =>
    let u := s.suite i
    if x.tag g ≠ .full ∨ !u.feeder.isOpen then .next s else
    match mirrorOf u c.val g u.feeder.current with
    | none => .next s
    | some a =>
      if !tilePoisoned (s.port (stackOf a)) (stackOff a) then .next s else
      match s.repairSlot i (stackOf a) 1 with
      | none => .next s
      | some s =>
      let r := (s.cell c.val).readWords ((List.range 1024).map (fun j => paneAddr g + 4 * j))
      let bytes := (List.range 4096).map (fun j => r.byte (paneAddr g + j))
      .next ((s.hbmWrite a bytes).report 4 8 0 (s.part.toNat * 2 ^ 48 + a) 1 (.cell c) (some i))

/-! ### Lost and suspect units -/

/-- PSEUDO_CHANNEL_LOSS (R569): training or command parity of a pseudo-channel fails. Uncorrectable results are counted as they come
(State.noteUncorr). -/
def execPseudoChannelLoss (p : PortId) (pc : Fin 64) (s : State) : Host.Outcome State Fault Refusal :=
  .next (if (s.port p.val).retired then s else s.retireStack p pc)

/-- The suite that a unit serves, where it serves one. -/
def State.unitSuite (s : State) : UnitRef → Option Nat
  | .cell c => cellSuite (s.cell c.val)
  | .bay b => (s.bay b.val).owner.map (fun o => o.val)
  | _ => none

/-- A suspect unit is logged, and marked for quarantine (R575, Table 16.9). A memory port takes no new placement; the stack of a pseudo-channel
that no RUNNING suite uses is retired at once, for no close is to come. -/
def State.suspectUnit (s : State) (r : UnitRef) : State :=
  let i := s.unitSuite r
  let last := (i.map (fun i => (s.suite i).recov.lastNs.toNat)).getD 0
  let s := s.report 7 4 0 0 last r i
  let waits := { s with repair := { s.repair with quarantine := if s.repair.quarantine.contains r then s.repair.quarantine else s.repair.quarantine ++ [r] } }
  match r with
  | .memPort p none => waits.updPort p.val (fun q => { q with noNewPlacement := true })
  | .memPort p (some pc) =>
    if (s.port p.val).retired then s
    else if s.suites.any (fun e => e.2.state == .running && e.2.windows.any (fun w => w.stack == p.val)) then waits else s.retireStack p pc
  | _ => waits

/-- STATE_MISMATCH_RECHECK (R575): one of three reads, 100 µs apart; when the third differs too, the unit is suspect. -/
def execStateMismatchRecheck (r : UnitRef) (differs : Bool) (s : State) : Host.Outcome State Fault Refusal :=
  let s := s.waitUntil (s.now + 1500000)
  let n := ((s.repair.suspects.find? (fun e => e.1 == r)).map (fun e => e.2)).getD 0
  let rest := s.repair.suspects.filter (fun e => e.1 != r)
  if !differs then .next { s with repair := { s.repair with suspects := rest } }
  else if n < 2 then .next { s with repair := { s.repair with suspects := rest ++ [(r, n + 1)] } }
  else .next (({ s with repair := { s.repair with suspects := rest } } : State).suspectUnit r)

end Sys2Proof.Machine
end

