-- ==== Sys2Proof/Machine/Observation.lean ====
section
/-!
DEFINITION. Observation (R576–R593): counter overflow (R579), the section watchdog (R584) and Sillage sampling (R591–R593).
-/

namespace Sys2Proof.Machine

/-- Counter i's overflow is taken: its OVF bit is set (R579). -/
def takeOverflow (k : Counters) (i : Nat) : Counters :=
  { k with ovf := k.ovf ||| BitVec.ofNat 16 (2 ^ i), wrapped := k.wrapped.erase i }

/-- The overflow message of counter i of a cell (R579). -/
def overflowMessage (s : State) (c i : Nat) : W256 :=
  let x := s.cell c
  message (spadAddr s c 0) 0 15 0 ((cellSuite x).getD 0) 0 (0xC000 + i) s.part.toNat s.part.toNat 0xFFFFF (256 * c + x.ctrs.ovfQueue.toNat) s.tick.toNat

/-- Overflow of a cell's counter: with OVF_MSG, one DATA message arrives as by the hub path (R579, R388). -/
def State.cellOverflow (s : State) (c i : Nat) : State :=
  let x := s.cell c
  if !x.ctrs.wrapped.contains i then s else
  let say := x.ctrs.sel.any (fun e => e.1 == i && e.2.ovfMsg)
  let m : List Arrival := if say then [⟨.hub, x.ctrs.ovfQueue.toNat, overflowMessage s c i, none⟩] else []
  s.setCell c { x with ctrs := takeOverflow x.ctrs i, trk := { x.trk with arrivals := x.trk.arrivals ++ m } }

/-- COUNTER_OVERFLOW (R579): a counter that has wrapped sets its OVF bit. -/
def execCounterOverflow (k : CounterRef) (s : State) : Host.Outcome State Fault Refusal :=
  match k with
  | .cell c i => .next (s.cellOverflow c.val i.val)
  | .bay b i => .next (if (s.bay b.val).ctrs.wrapped.contains i.val then s.updBay b.val (fun y => { y with ctrs := takeOverflow y.ctrs i.val }) else s)
  | .device i => .next (if s.devCtrs.wrapped.contains i.val then { s with devCtrs := takeOverflow s.devCtrs i.val } else s)

/-- WATCHDOG_EXPIRY (R583, R584): the schedule beat reaches LIMIT while the watchdog runs. -/
def execWatchdogExpiry (c : CellId) (s : State) : Host.Outcome State Fault Refusal :=
  let x := s.cell c.val
  if !x.obs.wdRunning then .next s else
  match s.waitCycle c.val (16 * x.obs.wdLimit.toNat) with
  | none => .next s
  | some s1 =>
    let y := s1.cell c.val
    if !y.obs.wdRunning then .next s1 else
    .next ((s1.setCell c.val { y with obs := { y.obs with wdExpired := true, wdRunning := false } }).suiteError 14 0 1 (.cell c) (cellSuite y))

/-- The engine of an opcode. -/
def opEngine (op : Nat) : Option Engine := (opInfo (BitVec.ofNat 128 (op * 2 ^ 120))).bind (·.unit)

/-- Whether a sample record is of a cell and of a unit of it (Table 17.9): none for a sequencing instruction. -/
def sampleOf (c : Nat) (e : Option Engine) (r : W256) : Bool := (fld r 112 12).toNat == c && opEngine (fld r 104 8).toNat == e

/-- SAMPLE_TAKEN (R591, R592): the sample enters the bay's buffer of 64, or is dropped. -/
def execSampleTaken (c : CellId) (e : Option Engine) (s : State) : Host.Outcome State Fault Refusal :=
  let b := cellBay c.val
  let y := s.bay b
  match y.eligible.findIdx? (sampleOf c.val e) with
  | none => .next s
  | some k =>
    let rest := dropAt y.eligible k
    if y.samples.length < 64 then
      .next ((s.setBay b { y with eligible := rest, samples := y.samples ++ (y.eligible.drop k).take 1 }).countBay b 0x104 1)
    else
      let s := (s.setBay b { y with eligible := rest }).countBay b 0x105 1
      match cellSuite (s.cell c.val) with
      | none => .next s
      | some i => .next (s.updSuite i (fun u => { u with obs := { u.obs with dropped := satAdd u.obs.dropped 1 } }))

/-- SAMPLE_RECORD_WRITE (R593): two records go to the ring as one granule, in a write slot that the suite's context leaves idle. -/
def execSampleRecordWrite (sid : SuiteId) (s : State) : Host.Outcome State Fault Refusal :=
  let o := (s.suite sid.val).obs
  match o.pendingRecs with
  | a :: b :: rest =>
    if o.records = 0 then .next s else
    let at_ := o.ringAddr.toNat + 32 * (o.written.toNat % o.records.toNat)
    let p := stackOf at_
    match s.idleSlot p sid.val (fun k => k == 1) with
    | none => .next s
    | some n =>
      let s := (s.waitSlot p n).updPort p (fun q => { q with lastSlot := some n })
      let s := (s.hbmWrite at_ (leBytes 32 a.toNat ++ leBytes 32 b.toNat)).countDev 0x202 p 1
      .next (s.updSuite sid.val (fun u => { u with obs := { u.obs with pendingRecs := rest, written := u.obs.written + 2 } }))
  | _ => .next s

end Sys2Proof.Machine
end

