-- ==== Sys2Proof/Machine/Registers.lean ====
section
/-!
DEFINITION. The address map (Tables 1.5, 2.3, 14.2, 14.4, 14.5) and every register map as it reads: the value of each register, the fields
that a read clears (Table 0.3, R12), and what each register's write does (R10, R48, R49, R280, R404, R430, R431).
-/

namespace Sys2Proof.Machine

/-! ### Places -/

/-- Local address of a place. -/
def placeAddr : Place → Nat
  | .hub o => 0x030000000000 + o
  | .cell c o => cellRegAddr c o
  | .bay b o => bayRegAddr b o
  | .engine e o => 0x022000000000 + e * 2 ^ 16 + o
  | .memPort p o => 0x022800000000 + p * 2 ^ 20 + o
  | .gacon g o => gcAddr g o
  | .seqTable n o => 0x024000000000 + 128 * n + o
  | .builder i o => builderAddr i o
  | .barrier n o => 0x025000000000 + 64 * n + o
  | .counters o => 0x026000000000 + o
  | .spad c a => 0x010000000000 + c * 2 ^ 22 + a
  | .hbm a => a
  | .msix .pf o => 0x030000110000 + o
  | .pba .pf o => 0x030000118000 + o
  | .firmware o => 0x030000000000 + o
  | _ => 0

/-- The MSI-X table and PBA of the PF (Table 14.2). -/
def isMsix (o : Nat) : Bool := decide (0x110000 ≤ o) && decide (o < 0x120000)

/-- A PF BAR offset (R496, Table 14.2). -/
def pfPlace (s : State) (off : Nat) : Place :=
  let p := if off < 0x2000000 then .hub off
    else decodeLocal ((sget 0 s.mbox.apertures ((off - 0x2000000) / 0x800000)).toNat * 2 ^ 23 + off % 0x800000)
  match p with
  | .hub o => if isMsix o then (if o < 0x118000 then .msix .pf (o - 0x110000) else .pba .pf (o - 0x118000)) else .hub o
  | p => p

/-- The place that VF_APERTURE shows a suite's VF at aperture offset x (Tables 14.5, 14.5b, R500). -/
def vfAperture (s : State) (i x : Nat) : Place :=
  let u := s.suite i
  let v := sget (0, 0, 0) s.mbox.vfApertures i
  let ix := v.2.1.toNat
  let cell := fun (n : Nat) (p : Nat → Place) => if isVirtual u n then p (logicalCell u n) else .lost i
  if v.1 = 0 then
    match u.windows[ix]? with
    | none => .lost i
    | some w =>
      let a := v.2.2.toNat * 2 ^ 23 + x
      if !w.host || decide (w.extents * 2 ^ 24 ≤ a) then .lost i else .hbm (w.base * 2 ^ 24 + a)
  else if v.1 = 1 then cell (ix + x / 2 ^ 16) (fun c => .cell c (x % 2 ^ 16))
  else if v.1 = 2 then
    match u.seqBlocks[x / 2 ^ 17]? with
    | none => .lost i
    | some b => .seqTable (1024 * b + x % 2 ^ 17 / 128) (x % 128)
  else cell (ix + x / 2 ^ 22) (fun c => .spad c (x % 2 ^ 22))

/-- A VF BAR offset (R499, Table 14.4). -/
def vfPlace (s : State) (i off : Nat) : Place :=
  if off < 0x1000 then .vfRegs i off
  else if (s.suite i).state = .none then .ones
  else if off < 0x2000 then .hub (0x200000 + i * 0x1000 + (off - 0x1000))
  else if off < 0x3000 then .msix (.vf (Fin.ofNat 32 i)) (off - 0x2000)
  else if off < 0x4000 then .pba (.vf (Fin.ofNat 32 i)) (off - 0x3000)
  else if off < 0x10000 then .nowhere
  else if off < 0x20000 then .builder i (off - 0x10000)
  else if off < 0x100000 then .nowhere
  else if off < 0x200000 then
    match (s.suite i).barBlocks[(off - 0x100000) / 2 ^ 14]? with
    | none => .nowhere
    | some k => .barrier (256 * k + off % 2 ^ 14 / 64) (off % 64)
  else if off < 0x800000 then .nowhere
  else vfAperture s i (off - 0x800000)

/-- Bytes of BAR 0 (Table 14.1). -/
def barSize : HostFn → Nat
  | .pf => 2 ^ 26
  | .vf _ => 2 ^ 24

/-- What a BAR offset of a function names. -/
def barPlace (s : State) (f : HostFn) (off : Nat) : Place :=
  match f with
  | .pf => pfPlace s off
  | .vf i => vfPlace s i.val off

/-! ### Reading registers -/

/-- A register's value from its fields: low bit and value. -/
def regOf (l : List (Nat × Nat)) : Nat := l.foldl (fun a e => a + e.2 * 2 ^ e.1) 0

/-- A mask of bits by a property. -/
def maskOf (n : Nat) (p : Nat → Bool) : Nat := (List.range n).foldl (fun m k => if p k then m + 2 ^ k else m) 0

/-- A select register (Table 17.3) and the device block's UNIT. -/
def ctrSelNat (k : CtrSel) : Nat :=
  regOf [(0, k.event.toNat), (10, b2n k.edge), (13, b2n k.ovfMsg), (14, b2n k.chain), (15, b2n k.enable), (16, k.unit.toNat)]

/-- Counter i of a block, and its select register. -/
def ctrNat (k : Counters) (i : Nat) : Nat := (sget 0 k.ctr i).toNat
def selNat (k : Counters) (i : Nat) : Nat := ctrSelNat (sget ⟨false, false, false, false, 0, 0⟩ k.sel i)

/-- Code of a pane tag (Table 3.1). -/
def tagCode : Tag → Nat
  | .empty => 0
  | .full => 1
  | .provisional => 2
  | .poisoned => 3

/-- CELL_STATUS.STATE (Table 2.5). -/
def cellStateCode (x : Cell) : Nat :=
  if x.frozen then 4 else
  match x.state with
  | .idle => 0
  | .loading => 1
  | .waitingStart => 2
  | .running => 3
  | .halted => 5
  | .faulted => 6

/-- LZ_CFG and LZ_COUNT of a zone (Tables 3.5, 3.6). -/
def lzCfgNat (v : Zone) : Nat :=
  regOf [(0, v.count.toNat), (8, v.pane.toNat), (15, v.octant.toNat), (28, b2n v.valid), (29, b2n v.mode), (32, v.pgen.toNat),
    (36, b2n v.stale), (37, b2n v.refused), (38, b2n v.tagErr), (39, b2n v.ovf)]
def lzCountNat (v : Zone) : Nat := regOf [(0, v.landed.toNat), (24, v.provLanded.toNat), (48, v.credits.toNat)]

/-- What QUEUE_PEEK shows (Table 10.6, R394): nothing where a word of the queue's descriptor fails its parity (R92; of the queue that
QUEUE_SEL names, DEDUCED, log 96). -/
def peeked (x : Cell) : W256 :=
  if (x.qBad x.que.selQueue.toNat).isSome then 0 else (x.que.slot x.que.selSlot.toNat).getD (bareMessage 3)

/-- Identity, status and fault registers of a cell in wall cycle w of its bay (offsets 0x4000–0x40FF). -/
def cellStatusReg (x : Cell) (c w o : Nat) : Option Nat :=
  let f := x.fault
  let q := x.que.qlive x.que.selQueue.toNat
  let t := x.trk
  let g := x.cfg
  if o = 0x4000 then some (regOf [(0, c), (12, cellX c), (18, cellY c), (24, cellBay c), (32, 32), (40, 1)])
  else if o = 0x4008 then
    some (regOf [(0, cellStateCode x), (4, x.seq.mode.toNat), (15, b2n (lateRaised x w)), (16, b2n x.seq.handler.isSome), (17, x.seq.pc % 512),
      (26, x.seq.loops.length), (32, x.seq.dispatch.length)])
  else if o = 0x4010 then some (regOf [(0, x.seq.schedCycle / 16 % 2 ^ 32), (32, x.seq.schedCycle % 16)])
  else if o = 0x4018 then some (regOf [(0, x.epoch.toNat), (32, x.vcell.toNat)])
  else if o = 0x4020 then some (matrixStatus x.mat.started).toNat
  else if o = 0x4040 then
    some (regOf [(24, f.mode.toNat), (28, f.depth.toNat), (31, f.pc.toNat), (40, f.opcode.toNat), (48, f.detail.toNat), (58, b2n f.exec), (59, f.cause.toNat),
      (62, b2n f.handler), (63, b2n f.valid)])
  else if o = 0x4048 then some (regOf [(0, (nth f.loops 0 0).toNat), (24, (nth f.loops 1 0).toNat)])
  else if o = 0x4050 then some (regOf [(0, (nth f.loops 2 0).toNat), (24, (nth f.loops 3 0).toNat)])
  else if o = 0x4058 then some (regOf [(0, f.beat.toNat), (32, f.cycle.toNat)])
  else if o = 0x4060 then some f.addr.toNat
  else if o = 0x4070 then some (regOf [(0, t.underrun.toNat), (5, t.overrun.toNat), (10, t.uncorr.toNat), (32, t.corr.toNat)])
  else if o = 0x4078 then
    some (regOf [(2, b2n g.voidErr), (3, b2n g.crcErr), (4, b2n g.idErr), (5, b2n g.provDropped), (6, b2n g.clearing), (7, b2n (readyLine x)),
      (16, g.groups), (32, g.sect.toNat), (48, g.residue.toNat)])
  else if o = 0x4080 then some (regOf [(0, x.que.selQueue.toNat), (16, x.que.selSlot.toNat)])
  else if o = 0x4088 then some (regOf [(10, q.head % 512), (19, q.tail % 512), (28, q.count), (38, q.retained), (48, q.dropped.toNat)])
  else if 0x4090 ≤ o ∧ o < 0x40B0 then
    some (nbits (peeked x).toNat (64 * ((o - 0x4090) / 8)) 64)
  else none

/-- Counters, watchdog and tallies of a cell (offsets 0x4100–0x41FF); user 0 hides them (R586). -/
def cellCounterReg (x : Cell) (o : Nat) (user : Bool) : Option Nat :=
  let show_ := fun (v : Nat) => some (if user then v else 0)
  if o < 0x4140 then show_ (ctrNat x.ctrs ((o - 0x4100) / 8))
  else if o < 0x4180 then show_ (selNat x.ctrs ((o - 0x4140) / 8) % 2 ^ 16)
  else if o = 0x4180 then show_ (regOf [(0, x.ctrs.ovfQueue.toNat), (8, x.ctrs.ovf.toNat % 256), (31, b2n x.ctrs.frozen)])
  else if o = 0x4188 then show_ (regOf [(0, x.obs.wdLimit.toNat), (62, b2n x.obs.wdRunning), (63, b2n x.obs.wdExpired)])
  else if 0x41A0 ≤ o ∧ o < 0x41C8 then
    let k := (o - 0x41A0) / 8
    show_ ((nth x.obs.tdClosed k 0 + nth x.obs.tdOpen k 0).toNat)
  else none

/-- The bits of a configuration word that are not of type RSV, which read as zero (Tables 0.3, 2.13, 7.1–7.3, R258). -/
def cfgMask (k : Nat) : W32 :=
  if k < 0x800 then 0xFFFFFFFF
  else if k < 0x8A0 then 0xFFE0FFE0
  else if k < 0x940 then 0xFFC0FFC0
  else if k < 0x942 then 0x000FFFFF
  else if k < 0xA00 then 0
  else if 0xE00 ≤ k ∧ k < 0xE80 then (if k % 2 = 0 then 0xFF01FF01 else 0x0000FFFF)
  else 0xFFFFFFFF

/-- A register of a cell block (Table 2.3): a configuration word, or a 64-bit register. -/
def cellReg (x : Cell) (c w o : Nat) (user : Bool) : Option Nat :=
  if o < 0x4000 then (if o % 4 = 0 then some (x.cfgWord (o / 4) &&& cfgMask (o / 4)).toNat else none)
  else if o % 8 ≠ 0 then none
  else if o < 0x4100 then cellStatusReg x c w o
  else if o < 0x4200 then cellCounterReg x o user
  else if 0x4400 ≤ o ∧ o < 0x4600 then some (lzCfgNat (x.zone ((o - 0x4400) / 8)))
  else if 0x4600 ≤ o ∧ o < 0x4800 then some (lzCountNat (x.zone ((o - 0x4600) / 8)))
  else if 0x4800 ≤ o ∧ o < 0x4900 then
    some (regOf ((List.range 32).map (fun k => (2 * k, tagCode (x.tag (32 * ((o - 0x4800) / 8) + k))))))
  else none

/-- Sides of a bay on the edge of the device (Table 7.16). -/
def edgeSides (b : Nat) : Nat := b2n (decide (b < 4)) + 2 * b2n (b % 4 == 3) + 4 * b2n (decide (28 ≤ b)) + 8 * b2n (b % 4 == 0)

/-- Code of a bay's power state (Table 15.15): WAKING from the turn to ON until the PLL has locked (R529; DEDUCED, log 31). -/
def bayStateCode (y : Bay) : Nat :=
  match y.power with
  | .off => 0
  | .asleep => 1
  | .on => if y.lock then 3 else 2

/-- A register of a bay block; stopped: its counters stand still (R581). -/
def bayReg (y : Bay) (stopped : Bool) (b o : Nat) : Option Nat :=
  if o % 8 ≠ 0 then none
  else if o = 0 then some (regOf [(0, b2n y.lock), (8, y.step.toNat), (16, bayStateCode y), (32, y.vcore.toNat)])
  else if o = 0x40 then
    some (regOf [(0, y.iso.toNat), (8, edgeSides b), (16, y.viol.toNat), (24, (y.owner.map (·.val)).getD 0), (29, b2n y.owner.isSome), (32, y.violCount.toNat)])
  else if 0x100 ≤ o ∧ o < 0x140 then some (ctrNat y.ctrs ((o - 0x100) / 8))
  else if 0x140 ≤ o ∧ o < 0x180 then some (selNat y.ctrs ((o - 0x140) / 8) % 2 ^ 13 + selNat y.ctrs ((o - 0x140) / 8) / 2 ^ 14 % 4 * 2 ^ 14)
  else if o = 0x180 then some (regOf [(8, y.ctrs.ovf.toNat % 256), (31, b2n stopped)])
  else none

/-- Descriptor area and CTX_STATUS of a stream or Gacon engine (R343, R461, Table 9.9). -/
def contextReg (s : State) (x : Fin 16 → StreamCtx) (o : Nat) : Option Nat :=
  if o % 8 ≠ 0 then none
  else if 0x1000 ≤ o ∧ o < 0x3000 then
    let v := s.stream (x (Fin.ofNat 16 ((o - 0x1000) / 512)))
    some (nbits (nth v.queue (o % 512 / 64) 0).toNat (8 * (o % 64)) 64)
  else if 0x3000 ≤ o ∧ o < 0x3080 then
    let k := x (Fin.ofNat 16 ((o - 0x3000) / 8))
    let v := s.stream k
    some (regOf [(0, v.tiles.toNat), (32, v.missed.toNat), (44, min 15 (inBufferOf (s.ctxReads k) k s.now)), (48, v.queue.length), (52, ctxPgen v (((s.ctxSuite k).map (suitePassed s)).getD 0)), (56, v.err.toNat),
      (62, b2n v.voided), (63, b2n v.active)])
  else none

/-- A slot entry as it reads (Table 9.6). -/
def slotNat (s : State) (q : MemPort) (i : Nat) : Nat :=
  let q := settleSlots q s.slotNow
  let held := q.slots.find? (fun e => e.1 == i)
  let e := held.orElse (fun _ => q.slotOff.find? (fun e => e.1 == i))
  regOf [(1, (e.map (fun e => e.2.2.toNat)).getD 0), (8, (e.map (fun e => e.2.1.toNat)).getD 0), (13, slotClass s.repair.split i), (15, b2n held.isSome)]

/-- A register of a memory port block (Tables 9.5, 9.6, 9.10, 9.11). -/
def memPortReg (s : State) (p o : Nat) : Option Nat :=
  let q := s.port p
  if o = 0 then some (regOf [(0, s.repair.split.toNat), (2, s.repair.bootSplit.toNat), (32, slotPeriod q s.slotNow % 2 ^ 32)])
  else if o = 0x10 then
    some (regOf [(0, q.rfmColl.toNat), (8, q.stackReport.toNat), (16, q.scrubUncorr.toNat), (24, q.poisonRd.toNat), (32, q.uncorr.toNat), (40, q.retry.toNat),
      (48, q.corr.toNat)])
  else if o = 0x18 then some (regOf [(0, q.eccAddr.toNat), (63, b2n q.eccValid)])
  else if 0x1000 ≤ o ∧ o < 0x1800 ∧ o % 2 = 0 then some (slotNat s q ((o - 0x1000) / 2))
  else none

/-- Code of a port state (Table 12.10). -/
def portStateCode : PortState → Nat
  | .down => 0
  | .detect => 1
  | .equalise => 2
  | .negotiate => 3
  | .align => 4
  | .up => 5
  | .failover => 6
  | .failed => 7

/-- A register of a Gacon port block (Tables 12.9–12.12). -/
def gaconReg (s : State) (g o : Nat) : Option Nat :=
  let q := s.gport g
  if o = 0 then some (regOf [(0, b2n q.lanes4), (1, b2n q.rate100), (8, q.feat.toNat)])
  else if o = 8 then
    some (regOf [(10, q.txFailed.toNat), (20, q.rxFailed.toNat), (32, b2n q.stRate100), (33, b2n q.stLanes4), (34, q.features.toNat), (39, q.version.toNat),
      (47, q.partnerG.toNat), (51, q.partnerPart.toNat), (57, q.failReason.toNat), (61, portStateCode q.state)])
  else if o = 0x10 then
    some (regOf [(4, q.failovers.toNat), (8, q.fecUncorr.toNat), (16, q.fecCorr.toNat), (32, q.crcErr.toNat), (48, q.replays.toNat)])
  else if 0x100 ≤ o ∧ o < 0x140 then some (sget 4 q.txPat (o - 0x100)).toNat
  else contextReg s (fun c => .gacon (Fin.ofNat 16 g) c) o

/-- Code of a sequence's state (Table 11.1). -/
def seqStateCode : SeqState → Nat
  | .free => 0
  | .queued => 1
  | .prefill => 2
  | .decode => 3
  | .retiring => 4
  | .done => 5

/-- The 128 bytes of a sequence entry as a number (Table 11.1). -/
def seqNat (e : SeqEntry) : Nat :=
  regOf [(0, e.hostTag.toNat), (64, seqStateCode e.state), (67, e.cls.toNat), (69, e.reason.toNat), (72, e.outSlot.toNat), (80, e.stopSet.toNat), (96, e.position.toNat),
    (128, e.maxLen.toNat), (160, e.promptLen.toNat), (192, e.promptAddr.toNat), (256, e.kvBase.toNat), (320, e.temp.toNat), (352, e.topP.toNat), (384, e.topK.toNat),
    (448, e.seed.toNat), (512, e.admitTick.toNat), (576, e.generated.toNat), (608, e.lastToken.toNat), (640, e.lastStep.toNat)]

/-- A register of a suite's builder block (R430, Tables 11.7–11.14). -/
def builderReg (s : State) (i o : Nat) : Option Nat :=
  let u := s.suite i
  let b := u.sb
  let ring := fun (r : Nat) => sget ({} : OutRing) b.rings r
  if o = 0 then some (regOf [(0, b.b), (12, b.log2pt), (20, b.p), (28, b.l), (40, b.xSlots), (52, b.zones)])
  else if o = 8 then some (regOf [(0, b.pageBudget.toNat), (32, b.nullPage.toNat)])
  else if o = 0x10 then some (regOf [(0, b.ringAddr.toNat), (48, b.blockTiles.toNat)])
  else if o = 0x18 then
    some (regOf [(0, b2n b.building), (1, b2n (b.rings.any (fun e => ringWaits e.2))), (2, b2n (xOver s u)), (32, b.committed.toNat)])
  else if o = 0x20 then some (regOf [(0, b.padded.toNat), (32, b.voided.toNat)])
  else if o = 0x28 then some (regOf [(0, b.latLast.toNat), (24, b.latMax.toNat), (48, b.misses.toNat)])
  else if 0x100 ≤ o ∧ o < 0x200 ∧ o % 16 = 0 then some ((ring ((o - 0x100) / 16)).addr.toNat * 16)
  else if 0x100 ≤ o ∧ o < 0x200 ∧ o % 16 = 8 then
    let q := ring ((o - 0x100) / 16)
    some (regOf [(0, q.log2size.toNat), (24, q.tail.toNat), (40, q.head.toNat), (63, b2n q.enable)])
  else if o = 0xF00 then some 0
  else if 0x1000 ≤ o ∧ o < 0x2000 ∧ o % 4 = 0 then some (sget 0xFFFFFFFF b.stopSets ((o - 0x1000) / 4)).toNat
  else none

/-- A register of a barrier (Tables 10.7–10.11). -/
def barrierReg (b : Barrier) (o : Nat) : Option Nat :=
  if o = 0 then
    some (regOf [(0, b.participants.toNat), (24, b.notifyCount.toNat), (28, b2n b.autoRearm), (29, b2n b.remote), (48, b.tag.toNat)])
  else if o = 8 then
    some (regOf [(16, b.gen.toNat), (32, b.latched.toNat), (60, b2n b.stale), (61, b2n b.lateErr), (62, b2n b.error), (63, b2n b.armed)])
  else if o = 0x10 then some b.arrived.toNat
  else if o % 8 = 0 ∧ o < 0x38 then some (nth b.notify ((o - 0x18) / 8) 0).toNat
  else if o = 0x38 then some 0
  else none

/-- The dies that a suite covers. -/
def suiteDies (s : State) (i : Nat) : Nat := maskOf 4 (fun d => (suiteBays s i).any (fun b => bayDie b == d))

/-- SUITE_TD[c] (R589): the sum over the suite's cells. -/
def suiteTd (s : State) (i c : Nat) : Nat :=
  ((suiteCells s i).foldl (fun n k =>
    let o := (s.cell k).obs
    n + (nth o.tdClosed c 0).toNat + (nth o.tdOpen c 0).toNat) 0) % 2 ^ 48

/-- A register of a suite's hold block (Tables 7.8–7.13, 8.4, 13.14–13.16, 14.13, 15.16, 16.5a, 16.7a, 17.10–17.12). -/
def holdReg (s : State) (i o : Nat) : Option Nat :=
  let u := s.suite i
  let h := u.hold
  let f := u.feeder
  let q := u.freq
  let r := u.recov
  let alive := u.state != .none
  if o % 8 ≠ 0 then none
  else if o = 0 then some (regOf [(0, h.limit.toNat), (63, b2n h.mgmtHold)])
  else if o = 8 then
    some (regOf [(0, suiteBeat s i % 2 ^ 32), (32, min h.run 0xFFFF), (48, h.causes.toNat), (61, b2n h.overBudget), (62, b2n h.timeout), (63, b2n h.held)])
  else if o = 0x10 then some h.holds.toNat
  else if o = 0x18 then some h.beats.toNat
  else if o = 0x20 then some (regOf [(0, h.head.toNat), (16, h.wraps.toNat)])
  else if o = 0x40 then some (regOf [(0, f.dried), (16, f.current), (32, f.next), (61, b2n (sectRecov u)), (62, f.phase.toNat)])
  else if o = 0x80 then
    some (regOf [(0, u.log2w), (4, u.log2h), (12, suiteDies s i), (16, u.origin), (24, u.svn.toNat), (32, u.keySlot.toNat), (63, b2n alive)])
  else if o = 0x88 then some (if alive then regOf [(0, leAt u.header 36 4), (32, tStepNs u % 2 ^ 32)] else 0)
  else if o = 0x90 then some (regOf [(0, suiteCode u.state), (3, b2n u.ended), (4, b2n u.stopping)])
  else if o = 0xA0 then
    some (regOf [(4, q.floor.toNat), (6, q.ceiling.toNat), (10, q.rfloor.toNat), (12, q.target.toNat), (14, q.current.toNat), (20, if u.state = .running then s.power.duty.toNat else 0), (63, b2n q.overridden)])
  else if o = 0xB0 then some (regOf [(0, u.errq.overwritten.toNat), (32, u.errq.next.toNat)])
  else if o = 0xB8 then
    some (regOf [(0, r.lastNs.toNat), (39, b2n r.relocate), (40, r.count.toNat), (60, r.phase.toNat), (63, b2n r.active)])
  else if o = 0xC0 then some (regOf [(0, u.obs.records.toNat), (32, u.obs.n.toNat), (62, b2n u.obs.sampleEn), (63, b2n u.obs.ctrUser)])
  else if o = 0xC8 then some u.obs.ringAddr.toNat
  else if o = 0xD0 then some (regOf [(16, u.obs.dropped.toNat), (32, u.obs.written.toNat)])
  else if 0xE0 ≤ o ∧ o < 0x108 then some (suiteTd s i ((o - 0xE0) / 8))
  else if 0x400 ≤ o ∧ o < 0x600 then
    match u.windows[(o - 0x400) / 8]? with
    | none => some 0
    | some w => some (regOf [(0, w.base), (32, w.stack), (40, w.extents), (60, b2n w.remoteWr), (61, b2n w.remoteRd), (62, b2n w.host), (63, 1)])
  else if 0x800 ≤ o ∧ o < 0x1000 then some (nbits (sget 0 h.ring ((o - 0x800) / 32)).toNat (8 * (o % 32)) 64)
  else none

/-- KEY_STATUS (Table 13.4). -/
def keyStatus (k : Keys) : Nat :=
  let signer := fun (n : Nat) => sget ({} : Signer) k.signers n
  regOf [(0, maskOf 4 (fun n => k.fk.any (fun e => e.1 == n) && !k.fkRevoked.getLsbD n)), (5, b2n k.bbk0.isSome), (6, b2n k.bbk1.isSome), (7, 1), (8, k.fkRevoked.toNat),
    (12, maskOf 4 (fun n => (signer n).valid)), (16, maskOf 4 (fun n => (signer n).revoked)), (32, (signer 0).svnFloor.toNat), (40, (signer 1).svnFloor.toNat),
    (48, (signer 2).svnFloor.toNat), (56, (signer 3).svnFloor.toNat)]

/-- A ring's two registers (Tables 14.6, 14.7). -/
def ringReg (s : State) (f : HostFn) (o : Nat) : Option Nat :=
  let q := s.ring f (decide (0x10 ≤ o))
  if o % 16 = 0 then some (regOf [(0, q.log2size.toNat), (4, b2n q.enable), (12, q.addr.toNat)])
  else if o % 16 = 8 then some (regOf [(0, q.tail.toNat), (32, q.head.toNat), (63, b2n q.err)])
  else none

/-- The hub's own registers. -/
def hubReg (s : State) (o : Nat) : Option Nat :=
  let p := s.power
  let m := s.macer
  let g := s.mgmt
  let w := s.fw
  let b := bootPtr w
  if o % 8 ≠ 0 then none
  else if o = 0 then some (regOf [(0, 0x4D20), (16, s.grade.toNat)])
  else if o = 0x10 then some (regOf [(0, s.repair.good.toNat), (32, (List.range 32).countP (fun b => s.repair.good.getLsbD b))])
  else if o = 0x20 then some (regOf [(0, s.part.toNat), (63, b2n s.domainValid)])
  else if o = 0x30 then some (nbits s.uid.toNat 0 64)
  else if o = 0x38 then some (nbits s.uid.toNat 64 64)
  else if o = 0x40 then some (keyStatus s.keys)
  else if o = 0x50 then some (regOf [(0, deviceCode s.devState), (4, b2n s.quiesced)])
  else if o = 0x60 then
    some (regOf [(0, b2n p.vaonGood), (1, b2n p.vin12Good), (2, b2n p.vin48Good), (3, b2n p.vbatGood), (13, b2n p.railFault), (14, b2n p.early12), (15, b2n p.early48),
      (18, b2n p.holdover), (19, b2n p.backup), (22, b2n (!p.protects.isEmpty)), (23, b2n p.thermtrip), (32, p.tjMax.toNat)])
  else if o = 0x68 then some s.tick.toNat
  else if o = 0x70 then some (regOf [(0, p.cause.toNat), (32, p.warmCount.toNat)])
  else if o = 0x78 then
    some (regOf [(0, if m.step = 0 then 0 else (s.now - m.startAt) / 15000000 % 2 ^ 32), (32, m.step.toNat), (40, m.failStep.toNat), (48, m.failCode.toNat), (61, b2n m.cold),
      (62, b2n m.failed), (63, b2n m.done)])
  else if o = 0x80 then some (regOf [(0, p.cap.toNat), (28, p.duty.toNat), (32, p.peak.toNat), (48, p.p10.toNat)])
  else if o = 0x90 then some (regOf [(0, b2n g.active), (1, b2n g.standbyOk), (2, b2n g.takeover), (16, g.takeovers.toNat), (32, g.ckptGen.toNat)])
  else if o = 0x98 then some (regOf [(0, b2n g.present), (1, b2n g.unlockJtag), (2, b2n g.unlockUart), (8, b2n g.sealOpened), (9, b2n g.sealClosed)])
  else if o = 0xA0 then some (regOf [(0, g.alert.toNat), (32, g.alertMask.toNat)])
  else if o = 0xB0 then
    some (regOf [(1, w.bState.toNat), (3, b2n w.running), (4, b2n b.trial), (5, b.trialsLeft.toNat), (7, b2n w.reverted), (8, w.svnCur.toNat), (16, if w.bState = 2 then w.svnB.toNat else 0),
      (24, w.svnMin.toNat), (32, b.seqNo.toNat)])
  else if o = 0xB8 then
    some (regOf [(0, s.metering.period.toNat), (12, s.metering.pendingPeriod.toNat), (28, s.metering.keySlot.toNat), (32, s.metering.nextSeq.toNat % 2 ^ 32)])
  else if o = 0xD0 then some g.challenge.toNat
  else if 0x1000 ≤ o ∧ o < 0x1100 then
    some (regOf ((List.range 8).map (fun r => (5 * r, (sget 16 s.repair.shift (8 * ((o - 0x1000) / 8) + r)).toNat))))
  else if 0x2000 ≤ o ∧ o < 0x2200 then
    let r := sget (false, 0) s.routes ((o - 0x2000) / 8)
    some (regOf [(0, r.2.toNat), (63, b2n r.1)])
  else if 0x100000 ≤ o ∧ o < 0x100020 then ringReg s .pf (o - 0x100000)
  else if 0x100040 ≤ o ∧ o < 0x100060 then some ((sget 0 s.mbox.apertures ((o - 0x100040) / 8)).toNat * 2 ^ 23)
  else if 0x200000 ≤ o ∧ o < 0x220000 then holdReg s ((o - 0x200000) / 0x1000) (o % 0x1000)
  else none

/-- The registers of a VF (R499, Tables 14.5a, 14.5b). -/
def vfReg (s : State) (i o : Nat) : Option Nat :=
  if o < 0x20 then ringReg s (vfOf i) o
  else if o = 0x20 then some (regOf [(0, i), (5, b2n ((s.suite i).state != .none))])
  else if o = 0x28 then
    let v := sget (0, 0, 0) s.mbox.vfApertures i
    some (regOf [(0, v.2.2.toNat), (32, v.2.1.toNat), (44, v.1.toNat)])
  else none

/-- A device counter block register (R576). -/
def deviceCounterReg (k : Counters) (o : Nat) : Option Nat :=
  if o % 8 ≠ 0 then none
  else if o < 0x80 then some (ctrNat k (o / 8))
  else if 0x100 ≤ o ∧ o < 0x180 then some (selNat k ((o - 0x100) / 8))
  else none

/-- Whether a function sees a cell's counters (R586). -/
def seesCounters (s : State) (f : HostFn) : Bool :=
  match f with
  | .pf => true
  | .vf i => (s.suite i.val).obs.ctrUser

/-- MSI-X vectors of a function (Table 14.1). -/
def vectorCount : HostFn → Nat
  | .pf => 8
  | .vf _ => 4

/-- An MSI-X table as it reads: entries of 16 bytes, message address, then data with vector control (PRESUMED from PCI Express, log 101). -/
def msixReg (s : State) (f : HostFn) (o : Nat) : Option Nat :=
  let x := s.vector f (o / 16)
  if vectorCount f ≤ o / 16 then none
  else if o % 16 = 0 then some x.addr.toNat
  else if o % 16 = 8 then some (x.data.toNat + 2 ^ 32 * b2n x.masked)
  else none

/-- The value that a register shows a function; none where there is no register. -/
def readReg (s : State) (f : HostFn) : Place → Option Nat
  | .hub o => hubReg s o
  | .cell c o => cellReg (s.cell c) c (s.wallCycle c) o (seesCounters s f)
  | .bay b o => bayReg (s.bay b) (s.bayStopped b) b o
  | .engine e o => contextReg s (fun c => .se (Fin.ofNat 96 e) c) o
  | .memPort p o => memPortReg s p o
  | .gacon g o => gaconReg s g o
  | .seqTable n o => if o % 8 = 0 then some (nbits (seqNat (s.seqEntry n)) (8 * o) 64) else none
  | .builder i o => builderReg s i o
  | .barrier n o => barrierReg (s.barrier n) o
  | .counters o => deviceCounterReg s.devCtrs o
  | .vfRegs i o => vfReg s i o
  | .msix f o => msixReg s f o
  | .pba f o => if o = 0 then some (maskOf (vectorCount f) (fun v => (s.vector f v).pending)) else none
  | _ => none

/-! ### Fields that a read clears (R10, R12) -/

/-- RC fields of a suite's hold block. -/
def clearHold (u : Suite) (o : Nat) : Suite :=
  if o = 0xB0 then { u with errq := { u.errq with overwritten := 0 } }
  else if o = 0xB8 then { u with recov := { u.recov with count := 0 } }
  else if o = 0xD0 then { u with obs := { u.obs with dropped := 0 } }
  else u

/-- RC fields of a cell. -/
def clearCell (x : Cell) (o : Nat) : Cell :=
  if o = 0x4070 then { x with trk := { x.trk with corr := 0 } }
  else if o = 0x4078 then { x with cfg := { x.cfg with residue := 0 } }
  else if o = 0x4088 then
    let q := x.que.selQueue.toNat
    { x with que := x.que.setLive q { x.que.qlive q with dropped := 0 } }
  else x

/-- A peek at the message store (R92, R394): a failing word of the descriptor is a parity fault, an uncorrectable one of the message a suite
error. -/
def State.peek (s : State) (c : Nat) : State :=
  let x := s.cell c
  match x.qBad x.que.selQueue.toNat with
  | some off => s.parityFault c 3 off
  | none =>
    if (x.que.slot x.que.selSlot.toNat).isSome then s
    else s.suiteError 9 (spadAddr s c 0) x.que.selQueue.toNat (.cell (cellId c)) (cellSuite x)

/-- CTX_STATUS.MISSED. -/
def State.clearContext (s : State) (x : Fin 16 → StreamCtx) (o : Nat) : State :=
  if 0x3000 ≤ o ∧ o < 0x3080 then s.updStream (x (Fin.ofNat 16 ((o - 0x3000) / 8))) (fun v => { v with missed := 0 }) else s

/-- A register's RC fields clear after a read. -/
def State.clearRead (s : State) : Place → State
  | .hub o =>
    if o = 0x80 then { s with power := { s.power with peak := 0 } }
    else if 0x200000 ≤ o ∧ o < 0x220000 then s.updSuite ((o - 0x200000) / 0x1000) (fun u => clearHold u (o % 0x1000))
    else s
  | .cell c o =>
    let s := if 0x4090 ≤ o ∧ o < 0x40B0 then s.peek c else s
    s.updCell c (fun x => clearCell x o)
  | .bay b o => if o = 0x40 then s.updBay b (fun y => { y with violCount := 0 }) else s
  | .engine e o => s.clearContext (fun c => .se (Fin.ofNat 96 e) c) o
  | .memPort p o =>
    if o = 0x10 then
      s.updPort p (fun q => { q with corr := 0, retry := 0, uncorr := 0, poisonRd := 0, scrubUncorr := 0, stackReport := 0, rfmColl := 0 })
    else s
  | .gacon g o =>
    if o = 0x10 then s.updGport g (fun q => { q with replays := 0, crcErr := 0, fecCorr := 0, fecUncorr := 0, failovers := 0 })
    else s.clearContext (fun c => .gacon (Fin.ofNat 16 g) c) o
  | .builder i o =>
    if o = 0x28 then s.updSuite i (fun u => { u with sb := { u.sb with misses := 0, latMax := 0 } }) else s
  | _ => s

/-! ### Writing registers -/

/-- The select register of a bay counter: OVF_MSG is reserved. -/
def bayCtrSelOf (v : Nat) : CtrSel := { ctrSelOf v 0 with ovfMsg := false }

/-- A counter written (R576, R580). -/
def putCtr (k : Counters) (i : Nat) (v : W64) : Counters := { k with ctr := sset k.ctr i (fld v 0 48) }
def putSel (k : Counters) (i : Nat) (q : CtrSel) : Counters := { k with sel := sset k.sel i q }

/-- A write of a cell register through the PF, but for LZ_CFG and the configuration window. -/
def writeCell (x : Cell) (o : Nat) (v : W64) : Cell :=
  if o = 0x4040 then { x with fault := { x.fault with valid := x.fault.valid && !v.getLsbD 63 } }
  else if o = 0x4070 then
    { x with trk := { x.trk with uncorr := x.trk.uncorr &&& ~~~ (fld v 10 5), overrun := x.trk.overrun &&& ~~~ (fld v 5 5)
                                 underrun := x.trk.underrun &&& ~~~ (fld v 0 5) } }
  else if o = 0x4078 then
    { x with cfg := { x.cfg with provDropped := x.cfg.provDropped && !v.getLsbD 5, idErr := x.cfg.idErr && !v.getLsbD 4
                                 crcErr := x.cfg.crcErr && !v.getLsbD 3, voidErr := x.cfg.voidErr && !v.getLsbD 2 } }
  else if o = 0x4080 then { x with que := { x.que with selQueue := fld v 0 8, selSlot := fld v 16 9 } }
  else if 0x4100 ≤ o ∧ o < 0x4140 then { x with ctrs := putCtr x.ctrs ((o - 0x4100) / 8) v }
  else if 0x4140 ≤ o ∧ o < 0x4180 then { x with ctrs := putSel x.ctrs ((o - 0x4140) / 8) (ctrSelOf v.toNat 0) }
  else if o = 0x4180 then
    { x with ctrs := { x.ctrs with ovfQueue := fld v 0 8, ovf := x.ctrs.ovf &&& ~~~ ((fld v 8 8).setWidth 16) } }
  else if o = 0x4188 then { x with obs := { x.obs with wdExpired := x.obs.wdExpired && !v.getLsbD 63 } }
  else x

/-- A write of a bay's counters. -/
def writeBayCtr (k : Counters) (o : Nat) (v : W64) : Counters :=
  if 0x100 ≤ o ∧ o < 0x140 then putCtr k ((o - 0x100) / 8) v
  else if 0x140 ≤ o ∧ o < 0x180 then putSel k ((o - 0x140) / 8) (bayCtrSelOf v.toNat)
  else if o = 0x180 then { k with ovf := k.ovf &&& ~~~ ((fld v 8 8).setWidth 16) }
  else k

/-- A write of a suite's hold block through the PF; SUITE_OBS, SAMPLE_RING and SAMPLE_STATUS while SAMPLE_EN is 1 are discarded (none). -/
def writeHold (u : Suite) (o : Nat) (v : W64) : Option Suite :=
  if o = 0 then some { u with hold := { u.hold with mgmtHold := v.getLsbD 63, limit := fld v 0 32 }, sb := { u.sb with spoiled := u.sb.spoiled || v.getLsbD 63 } }
  else if o = 8 then
    some { u with hold := { u.hold with timeout := u.hold.timeout && !v.getLsbD 62, overBudget := u.hold.overBudget && !v.getLsbD 61 } }
  else if o = 0xA0 then some { u with freq := { u.freq with overridden := u.freq.overridden && !v.getLsbD 63 } }
  else if o = 0xC0 ∨ o = 0xC8 ∨ o = 0xD0 then
    (if u.obs.sampleEn then none
     else if o = 0xC0 then some { u with obs := { u.obs with ctrUser := v.getLsbD 63, sampleEn := v.getLsbD 62, n := fld v 32 24, records := fld v 0 32 } }
     else if o = 0xC8 then some { u with obs := { u.obs with ringAddr := fld v 0 48 } }
     else some u)
  else some u

/-- ALERT_CTL written (Table 18.2). -/
def State.writeAlert (s : State) (v : W64) : State :=
  { s with mgmt := { s.mgmt with alert := s.mgmt.alert &&& ~~~ (fld v 0 8), alertMask := fld v 32 8 } }

/-- The outcome of another row's meaning as a state. -/
def nextOf (s : State) (o : Host.Outcome State Fault Refusal) : State :=
  match o with
  | .next t => t
  | _ => s

/-- A write of a function's ring registers (R502). -/
def State.writeRing (s : State) (f : HostFn) (o : Nat) (v : W64) : State :=
  if o % 16 = 0 then nextOf s (execRingEnable f (decide (0x10 ≤ o)) v s)
  else if o = 8 then s.ringDoorbell f v
  else s.ringHead f v

/-- A write of a hub register through the PF. -/
def State.writeHub (s : State) (o : Nat) (v : W64) : State :=
  if o = 0x20 then nextOf s (execDomainIdWrite .pf v s)
  else if o = 0x60 then
    { s with power := { s.power with early48 := s.power.early48 && !v.getLsbD 15, early12 := s.power.early12 && !v.getLsbD 14
                                     railFault := s.power.railFault && !v.getLsbD 13 } }
  else if o = 0x98 then { s with mgmt := { s.mgmt with sealOpened := s.mgmt.sealOpened && !v.getLsbD 8 } }
  else if o = 0xA0 then s.writeAlert v
  else if o = 0xB0 then { s with fw := { s.fw with reverted := s.fw.reverted && !v.getLsbD 7 } }
  else if o = 0xB8 then nextOf s (execMeterCtlWrite .pf v s)
  else if 0x2000 ≤ o ∧ o < 0x2200 then
    let k := (o - 0x2000) / 8
    { s with routes := sset s.routes k (v.getLsbD 63, fld v 0 4) }
  else if 0x100000 ≤ o ∧ o < 0x100020 then s.writeRing .pf (o - 0x100000) v
  else if 0x100040 ≤ o ∧ o < 0x100060 then { s with mbox := { s.mbox with apertures := sset s.mbox.apertures ((o - 0x100040) / 8) (fld v 23 25) } }
  else if 0x200000 ≤ o ∧ o < 0x220000 then
    let i := (o - 0x200000) / 0x1000
    match writeHold (s.suite i) (o % 0x1000) v with
    | some u => s.setSuite i u
    | none => s.logDiscard (some .pf) (0x030000000000 + o)
  else s

/-- A write of BAR_CMD (Table 10.11, R396, R397): with ARM and DISARM only DISARM acts. -/
def State.writeBarCmd (s : State) (src : BarSrc) (n : BarId) (v : W64) : State :=
  if v.getLsbD 62 then nextOf s (execBarCmdDisarm src n s)
  else
    let s := if v.getLsbD 63 then nextOf s (execBarCmdArm src n s) else s
    if v.getLsbD 61 then nextOf s (execBarCmdArrive src n (v.getLsbD 60) (v.getLsbD 59) (fld v 32 16) s)
    else if v.getLsbD 60 then nextOf s (execBarCmdErr src n (v.getLsbD 59) (fld v 32 16) s)
    else s

/-- A write of a barrier's registers. -/
def State.writeBarrier (s : State) (f : HostFn) (n o : Nat) (v : W64) : State :=
  let id : BarId := Fin.ofNat 16384 n
  if o = 8 then
    let b := s.barrier n
    s.setBarrier n { b with lateErr := b.lateErr && !v.getLsbD 61, stale := b.stale && !v.getLsbD 60 }
  else if o = 0x10 then s
  else if o = 0x38 then
    s.writeBarCmd (match f with
      | .pf => .mgmt
      | .vf i => .vf i) id v
  else if o = 0 then nextOf s (execBarCfgWrite f id 0 v s)
  else nextOf s (execBarCfgWrite f id (Fin.ofNat 5 ((o - 0x18) / 8 + 1)) v s)

/-- A write of a builder register (R430, R431). -/
def State.writeBuilder (s : State) (f : HostFn) (i o : Nat) (v : W64) : State :=
  let log := s.logDiscard (some f) (builderAddr i o)
  let r := (o - 0x100) / 16
  if 0x100 ≤ o ∧ o < 0x200 ∧ o % 16 = 0 then
    let q := sget ({} : OutRing) (s.suite i).sb.rings r
    if q.enable then log
    else s.updSuite i (fun u => { u with sb := { u.sb with rings := sset u.sb.rings r { q with addr := fld v 4 60 } } })
  else if 0x100 ≤ o ∧ o < 0x200 then nextOf s (execOutRingCtlWrite f (Fin.ofNat 32 i) (Fin.ofNat 16 r) v s)
  else if 0x1000 ≤ o ∧ o < 0x2000 then
    s.updSuite i (fun u => { u with sb := { u.sb with stopSets := sset u.sb.stopSets ((o - 0x1000) / 4) (fld v 0 32) } })
  else match f with
    | .pf => s
    | .vf _ => log

/-- A write of a configuration word through the PF (R46, R48). -/
def State.writeConfig (s : State) (c k : Nat) (v : W32) : State :=
  let x := s.cell c
  if !x.frozen && (x.state == .idle || x.state == .halted || x.state == .faulted) then s.setCell c (x.putCfg k v)
  else s.logDiscard (some .pf) (cellRegAddr c (4 * k))

/-- CONFIG_WINDOW_WRITE (R48, R49): it takes effect in IDLE, HALTED or FAULTED only, and never through a VF. -/
def execConfigWindowWrite (f : HostFn) (c : CellId) (word : Fin 4096) (v : W32) (s : State) : Host.Outcome State Fault Refusal :=
  if !s.answers f then .next s else
  .next (match f with
    | .pf => s.writeConfig c.val word.val v
    | .vf _ => s.logDiscard (some f) (cellRegAddr c.val (4 * word.val)))

/-- A write of a function's MSI-X table, as PCI Express has it (Tables 14.2, 14.4): a vector whose mask is lifted sends the message that pends. -/
def State.writeMsix (s : State) (f : HostFn) (o : Nat) (v : W64) : State :=
  let k := o / 16
  let put := fun (s : State) (x : MsixVector) => { s with pcie := { s.pcie with vectors := sset s.pcie.vectors (8 * fnIx f + k) x } }
  let x := s.vector f k
  if o % 16 = 0 then put s { x with addr := v &&& ~~~ 3#64 }
  else
    let y := { x with data := fld v 0 32, masked := v.getLsbD 32 }
    if x.pending ∧ !y.masked then (put s { y with pending := false }).msix f k else put s y

/-- A write of a register through the PF. -/
def State.writePf (s : State) (p : Place) (v : W64) : State :=
  match p with
  | .hub o => s.writeHub o v
  | .cell c o =>
    if o < 0x4000 then s.writeConfig c (o / 4) (fld v 0 32)
    else if 0x4400 ≤ o ∧ o < 0x4600 then s.writeLz .pf c ((o - 0x4400) / 8) v
    else s.updCell c (fun x => writeCell x o v)
  | .bay b o => if o = 0x40 then s.writeIso (bayId b) v else s.updBay b (fun y => { y with ctrs := writeBayCtr y.ctrs o v })
  | .memPort p o =>
    if o = 0x18 then s.updPort p (fun q => { q with eccValid := q.eccValid && !v.getLsbD 63 })
    else if 0x1000 ≤ o then nextOf s (execMpSlotWrite .pf (Fin.ofNat 12 p) (Fin.ofNat 1024 ((o - 0x1000) / 2)) (fld v 0 16) s)
    else s
  | .gacon g o =>
    if o = 0 then s.writeGcCtl .pf g v
    -- only the loader writes the transmit pattern (R444)
    else if 0x100 ≤ o ∧ o < 0x140 then s.logDiscard (some .pf) (gcAddr g o)
    else s
  | .seqTable n o => s.logDiscard (some .pf) (placeAddr (.seqTable n o))
  | .builder i o => s.writeBuilder .pf i o v
  | .barrier n o => s.writeBarrier .pf n o v
  | .msix f o => s.writeMsix f o v
  | .counters o =>
    if o < 0x80 then { s with devCtrs := putCtr s.devCtrs (o / 8) v }
    else { s with devCtrs := putSel s.devCtrs ((o - 0x100) / 8) { ctrSelOf v.toNat (fld v 16 8) with ovfMsg := false } }
  | _ => s

/-- A write of a register through a VF (R49, R280, R404, R430, R499). -/
def State.writeVf (s : State) (i : SuiteId) (p : Place) (v : W64) : State :=
  match p with
  | .vfRegs k o =>
    if o < 0x20 then s.writeRing (.vf i) o v
    else if o = 0x28 then { s with mbox := { s.mbox with vfApertures := sset s.mbox.vfApertures k (fld v 44 2, fld v 32 12, fld v 0 13) } }
    else s
  | .builder k o => s.writeBuilder (.vf i) k o v
  | .barrier n o => s.writeBarrier (.vf i) n o v
  | .msix f o => s.writeMsix f o v
  | .pba _ _ => s
  | p => s.logDiscard (some (.vf i)) (placeAddr p)

/-! ### Host accesses -/

/-- INFO of an unmapped access (Table 16.4b, code 0x02). -/
def unmappedInfo (f : HostFn) (write : Bool) : Nat :=
  b2n write + (match f with
    | .pf => 0
    | .vf i => 256 * (i.val + 1))

/-- An access to a place that is none (R37, R499, R500): all ones, or discarded; logged, and in a suite's VF aperture also to the suite's
error queue. Nothing is logged for the VF of a suite that does not exist. -/
def State.missAccess (s : State) (f : HostFn) (p : Place) (off : Nat) (write : Bool) : State :=
  let s := if write then s else s.giveRead (BitVec.ofNat 64 (2 ^ 64 - 1))
  match p with
  | .ones => s
  | .firmware o => if write then s.logDiscard (some f) (placeAddr (.firmware o)) else s
  | .lost i =>
    let r := errRecord s 0 2 0 off (unmappedInfo f write) 0xFFFFF (some i)
    ((s.logEvent 2 off (unmappedInfo f write) (some i)).updSuite i (fun u => { u with errq := ringPush u.errq 512 r })).msix (vfOf i) 2
  | .nowhere => s.logEvent 2 off (unmappedInfo f write) none
  | p => s.logEvent 2 (placeAddr p) (unmappedInfo f write) none

/-- A host access to 8 bytes of HBM (R498, R533): outside every window it is unmapped. A stack in self-refresh leaves it for the access, which
waits behind earlier ones until a slot serves it. -/
def State.hbmAccess (s : State) (f : HostFn) (off a : Nat) (w : Option W64) : State :=
  if (windowSuite s a).isNone then s.missAccess f (.hbm a) off w.isSome else
  let s := s.updPort (stackOf a) (fun q => { q with selfRefresh := false })
  ({ s with mbox := { s.mbox with waits := s.mbox.waits ++ [⟨f, off, a, w⟩] } } : State).serveHost (stackOf a)

/-- Quanta of a clock cycle of the block that holds a register. -/
def State.placeCycle (s : State) : Place → Nat
  | .cell c _ => s.bayCycle (cellBay c)
  | .bay b _ => s.bayCycle b
  | .memPort _ _ => 25
  | _ => 15

/-- The next cycle of a register's block. -/
def State.freshCycle (s : State) (p : Place) : State := s.freshIn (s.placeCycle p)

/-- UNMAPPED_ACCESS (R37, R497, R499, R500): an access to an address that names nothing. -/
def execUnmappedAccess (f : HostFn) (off : Nat) (write : Bool) (s : State) : Host.Outcome State Fault Refusal :=
  if barSize f ≤ off then .fault .outsideBar else
  if !s.answers f then .next s else
  match barPlace s f off with
  | .spad _ _ => .next s
  | .hbm a => .next (if (windowSuite s a).isSome then s else s.missAccess f (.hbm a) off write)
  | p => .next (if (readReg s f p).isSome then s else s.missAccess f p off write)

/-- RC_FIELD_READ (R10, R12): a read returns the register's value, and its RC fields clear. -/
def execRcFieldRead (f : HostFn) (off : Nat) (s : State) : Host.Outcome State Fault Refusal :=
  if barSize f ≤ off then .fault .outsideBar else
  if !s.answers f then .next s else
  match barPlace s f off with
  | .spad c a => .next (s.access c (.read (a / 8 * 2) 2))
  | .hbm a => .next (s.hbmAccess f off a none)
  | p =>
    let s := s.freshCycle p
    match readReg s f p with
    | some v => .next ((s.giveRead (BitVec.ofNat 64 v)).clearRead p)
    | none => .next (s.missAccess f p off false)

/-- REGISTER_WRITE (R10, R49, R280, R404, R430, R431, R499): a write acts on a register by the types of its fields. -/
def execRegisterWrite (f : HostFn) (off : Nat) (v : W64) (s : State) : Host.Outcome State Fault Refusal :=
  if barSize f ≤ off then .fault .outsideBar else
  if !s.answers f then .next s else
  match barPlace s f off, f with
  | .spad c a, .pf => .next (s.access c (.write (enabledBytes (a / 8 * 8) 8 v 255)))
  | .spad c a, .vf i => .next (s.logDiscard (some (.vf i)) (placeAddr (.spad c a)))
  | .hbm a, _ => .next (s.hbmAccess f off a (some v))
  | p, _ =>
    let s := s.freshCycle p
    if (readReg s f p).isNone then .next (s.missAccess f p off true) else
    match f with
    | .pf => .next (s.writePf p v)
    | .vf i => .next (s.writeVf i p v)

/-- APERTURE_HBM_ACCESS (R498): a host access to HBM through an aperture. -/
def execApertureHbmAccess (f : HostFn) (off : Nat) (w : Option W64) (s : State) : Host.Outcome State Fault Refusal :=
  if barSize f ≤ off then .fault .outsideBar else
  if !s.answers f then .next s else
  match barPlace s f off with
  | .hbm a => .next (s.hbmAccess f off a w)
  | _ => .next s

end Sys2Proof.Machine
end

