-- ==== Sys2Proof/Machine/Management.lean ====
section
/-!
DEFINITION. The management complex (R594–R610): its two cores, the sideband, presence and the seal loop, keys, debug unlock, factory reset
and firmware update.
-/

namespace Sys2Proof.Machine

/-! ### Cores (R594–R598) -/

/-- HEARTBEAT (R595): the active core's heartbeat, 100 µs after the last; with it a takeover has ended (log 61). -/
def execHeartbeat (s : State) : Host.Outcome State Fault Refusal :=
  if s.devState = .off then .next s else
  let s := s.waitUntil (s.mgmt.heartbeatAt + 1500000)
  .next { s with mgmt := { s.mgmt with heartbeatAt := s.now, takeover := false } }

/-- CHECKPOINT (R595, R596): 10 ms after the last, a complete checkpoint with the next generation stands in the standby's SRAM. A core that is
held in reset takes none. -/
def execCheckpoint (s : State) : Host.Outcome State Fault Refusal :=
  if s.devState = .off ∨ s.mgmt.failedCore then .next s else
  let s := s.waitUntil (s.mgmt.ckptAt + msec 10)
  .next { s with mgmt := { s.mgmt with ckptAt := s.now, ckptGen := s.mgmt.ckptGen + 1, standbyOk := true } }

/-- The number of a core. -/
def coreNo (b : Bool) : Fin 2 := if b then 1 else 0

/-- ACTIVE_CORE_FAILURE (R595, R597, R598): the standby takes over, and everything else goes on; a failure of both cores is device-fatal, and the
first core to pass its BIST becomes active (which one is open, log 1). -/
def execActiveCoreFailure (s : State) : Host.Outcome State Fault Refusal :=
  if s.devState = .off then .next s else
  let g := s.mgmt
  if g.failedCore then
    let (r, s) := s.fresh
    let s := { s with mgmt := { g with active := r.getLsbD 0, standbyOk := false } }
    .next (if s.devState = .ready ∨ s.devState = .active ∨ s.devState = .draining then s.deviceFatal else s)
  else
    let s := { s with mgmt := { g with active := !g.active, takeovers := satAdd g.takeovers 1, takeover := true, standbyOk := false, failedCore := true } }
    .next ((s.report 8 1 0 0 0 (.core (coreNo g.active)) none).setAlert 8)

/-- STANDBY_BIST_DONE (R595): a core that passes may become the standby at the next checkpoint; one that fails stays out. -/
def execStandbyBistDone (pass : Bool) (s : State) : Host.Outcome State Fault Refusal :=
  if !s.mgmt.failedCore then .next s
  else if pass then .next { s with mgmt := { s.mgmt with failedCore := false } }
  else .next (s.setAlert 8)

/-! ### Sideband, presence and seal (R599–R602) -/

/-- SIDEBAND_READ (R599, R12): the hub register at 8k, for k up to 31; where no register stands the value is open (log 1). -/
def execSidebandRead (k : Byte) (s : State) : Host.Outcome State Fault Refusal :=
  if s.devState = .off ∨ 31 < k.toNat then .next s else
  let s := s.freshIn 15
  match hubReg s (8 * k.toNat) with
  | some v => .next (({ s with out := { s.out with sideband := BitVec.ofNat 64 v } } : State).clearRead (.hub (8 * k.toNat)))
  | none =>
    let (r, s) := s.fresh
    .next { s with out := { s.out with sideband := r } }

/-- SIDEBAND_WRITE (R599): only ALERT_CTL can be written. -/
def execSidebandWrite (k : Byte) (v : W64) (s : State) : Host.Outcome State Fault Refusal :=
  .next (if s.devState ≠ .off ∧ k = 20 then (s.freshIn 15).writeAlert v else s)

/-- PRESENCE_ASSERT (R600, Table 18.2). -/
def execPresenceAssert (s : State) : Host.Outcome State Fault Refusal :=
  if s.devState = .off ∨ s.mgmt.present then .next s else
  .next (({ s with mgmt := { s.mgmt with present := true } } : State).setAlert 0x40)

/-- PRESENCE_DEASSERT (R600, R603): unlocks end. -/
def execPresenceDeassert (s : State) : Host.Outcome State Fault Refusal :=
  if s.devState = .off ∨ !s.mgmt.present then .next s else
  .next (({ s with mgmt := { s.mgmt with present := false, unlockJtag := false, unlockUart := false } } : State).setAlert 0x40)

/-- SEAL_OPEN (R526, R602): the seal monitor, which runs from VBAT or VAON, zeroises both BBK slots. -/
def execSealOpen (s : State) : Host.Outcome State Fault Refusal :=
  let s := { s with mgmt := { s.mgmt with loopOpen := true, sealClosed := false } }
  if !s.power.vbatGood ∧ s.devState = .off then .next s else
  let s := (s.zeroiseBbk 0).zeroiseBbk 1
  .next (({ s with mgmt := { s.mgmt with sealOpened := true } } : State).setAlert 0x80)

/-! ### Keys (R604) -/

/-- Parameter bytes of KEY_PROVISION. -/
def keyBytes : List (Nat × Nat) := whole 8 2 ++ whole 16 12

/-- Host data of a command of n bytes; none: the read failed (R493). -/
def hostBytes (buf : HostRead) (n : Nat) : Option (List Byte) := buf.bind (fun b => if b.length < n then none else some (b.take n))

/-- The checks of a KEY_PROVISION operation (R601, R604), before its own: slot, presence, length; then its material is read (R493). -/
def provision (t : Taken) (s : State) (slots size : Nat) (buf : HostRead) (free : Bool) (refuse : Option Nat) (run : List Byte → Reply × State) : State :=
  if slots ≤ param t 9 1 then s.finish t { status := 4 }
  else if !free && !s.mgmt.present then s.finish t { status := 7 }
  else if param t 24 4 ≠ size then s.finish t { status := 0x3B }
  else match refuse with
    | some st => s.finish t { status := st }
    | none =>
      let read := fun (s : State) => if size = 0 then s else s.dmaRead .pf (param t 16 8) size
      match hostBytes buf size with
      | none => (read s).finish t { status := 0x0C }
      | some b =>
        let (r, s) := run b
        (read s).finish t r

/-- A signer slot. -/
def signerOf (s : State) (n : Nat) : Signer := sget {} s.keys.signers n
def State.putSigner (s : State) (n : Nat) (v : Signer) : State := { s with keys := { s.keys with signers := sset s.keys.signers n v } }

/-- KEY_PROVISION OP 0: FKn is programmed once. An OP above 7 fails. -/
def execKeyProvisionFk (t : Nat) (buf : HostRead) (s : State) : Host.Outcome State Fault Refusal :=
  .next (runCommand s t 0x50 (fun t => param t 8 1 == 0 || decide (7 < param t 8 1)) (fun _ => keyBytes) (fun t s =>
    if param t 8 1 ≠ 0 then s.finish t { status := 4 } else
    let n := param t 9 1
    let used := s.keys.fk.any (fun e => e.1 == n) || s.keys.fkRevoked.getLsbD n
    provision t s 4 32 buf false (if used then some 0x38 else none)
      (fun b => (okReply [], { s with keys := { s.keys with fk := sset s.keys.fk n b } }))))

/-- KEY_PROVISION OP 1: a BBK slot is loaded (R526, R602). -/
def execKeyProvisionBbk (t : Nat) (buf : HostRead) (s : State) : Host.Outcome State Fault Refusal :=
  .next (runCommand s t 0x50 (fun t => param t 8 1 == 1) (fun _ => keyBytes) (fun t s =>
    let refuse := if !s.power.vbatGood then some 0x39 else if s.mgmt.loopOpen then some 0x3F else none
    provision t s 2 32 buf false refuse
      (fun b => (okReply [], { s with keys := if param t 9 1 = 0 then { s.keys with bbk0 := some b } else { s.keys with bbk1 := some b } }))))

/-- KEY_PROVISION OP 2: a BBK slot is zeroised; presence is not needed. -/
def execKeyProvisionBbkZeroise (t : Nat) (s : State) : Host.Outcome State Fault Refusal :=
  .next (runCommand s t 0x50 (fun t => param t 8 1 == 2) (fun _ => keyBytes) (fun t s =>
    provision t s 2 0 (some []) true none
      (fun _ => (okReply [], s.zeroiseBbk (param t 9 1)))))

/-- KEY_PROVISION OP 3: a signer slot is provisioned once: digest and SVN floor. -/
def execKeyProvisionSigner (t : Nat) (buf : HostRead) (s : State) : Host.Outcome State Fault Refusal :=
  .next (runCommand s t 0x50 (fun t => param t 8 1 == 3) (fun _ => keyBytes) (fun t s =>
    let n := param t 9 1
    let v := signerOf s n
    provision t s 4 49 buf false (if v.valid || v.revoked then some 0x38 else none)
      (fun b => (okReply [], s.putSigner n { digest := b.take 48, valid := true, revoked := false, svnFloor := b.getD 48 0 }))))

/-- KEY_PROVISION OP 4: a signer slot is revoked. -/
def execKeyProvisionRevokeSigner (t : Nat) (s : State) : Host.Outcome State Fault Refusal :=
  .next (runCommand s t 0x50 (fun t => param t 8 1 == 4) (fun _ => keyBytes) (fun t s =>
    let n := param t 9 1
    provision t s 4 0 (some []) false none
      (fun _ => if (signerOf s n).revoked then (already, s) else (okReply [], s.putSigner n { signerOf s n with revoked := true }))))

/-- KEY_PROVISION OP 5: FKn is revoked. -/
def execKeyProvisionRevokeFk (t : Nat) (s : State) : Host.Outcome State Fault Refusal :=
  .next (runCommand s t 0x50 (fun t => param t 8 1 == 5) (fun _ => keyBytes) (fun t s =>
    let n := param t 9 1
    provision t s 4 0 (some []) false none
      (fun _ => if s.keys.fkRevoked.getLsbD n then (already, s)
        else (okReply [], { s with keys := { s.keys with fkRevoked := s.keys.fkRevoked ||| BitVec.ofNat 4 (2 ^ n) } }))))

/-- KEY_PROVISION OP 6: a signer slot's SVN floor rises. -/
def execKeyProvisionSvnFloor (t : Nat) (buf : HostRead) (s : State) : Host.Outcome State Fault Refusal :=
  .next (runCommand s t 0x50 (fun t => param t 8 1 == 6) (fun _ => keyBytes) (fun t s =>
    let n := param t 9 1
    provision t s 4 1 buf false none
      (fun b =>
        let v := b.getD 0 0
        if v ≤ (signerOf s n).svnFloor then ({ status := 0x3B }, s) else (okReply [], s.putSigner n { signerOf s n with svnFloor := v }))))

/-- KEY_PROVISION OP 7: SVN_MIN rises, to SVN_CUR at most. -/
def execKeyProvisionSvnMin (t : Nat) (buf : HostRead) (s : State) : Host.Outcome State Fault Refusal :=
  .next (runCommand s t 0x50 (fun t => param t 8 1 == 7) (fun _ => keyBytes) (fun t s =>
    provision t s 1 1 buf false none
      (fun b =>
        let v := b.getD 0 0
        if v ≤ s.fw.svnMin ∨ s.fw.svnCur < v then ({ status := 0x3B }, s) else (okReply [], { s with fw := { s.fw with svnMin := v } }))))

/-! ### Debug unlock (R603) -/

/-- Whether an unlock token of 200 bytes is accepted for a scope: its reserved bytes, its signer slot, the digest of its key and its signature
over DEVICE_UID, the scope byte and DEBUG_CHAL. -/
def tokenGood (s : State) (scope : Nat) (b : List Byte) : Bool :=
  let k := leAt b 1 1
  let v := signerOf s k
  let key := slice b 8 96
  leAt b 0 1 == scope && decide (k < 4) && leAt b 2 6 == 0 && v.valid && !v.revoked && Config.sha384 key == v.digest
    && Config.ecdsaP384 key (slice b 104 96) (leBytes 16 s.uid.toNat ++ leBytes 1 scope ++ leBytes 8 s.mgmt.challenge.toNat)

/-- DEBUG_UNLOCK (R601, R603): every attempt replaces DEBUG_CHAL. -/
def execDebugUnlock (t : Nat) (buf : HostRead) (s : State) : Host.Outcome State Fault Refusal :=
  .next (runCommand s t 0x51 (fun _ => true) (fun _ => whole 8 1 ++ whole 16 8) (fun t s =>
    let scope := param t 8 1
    let ok := match hostBytes buf 200 with
      | some b => tokenGood s scope b
      | none => false
    let (r, s) := s.fresh
    let s := { s with mgmt := { s.mgmt with challenge := r } }
    if 1 < scope then s.finish t { status := 4 }
    else if !s.mgmt.present then s.finish t { status := 7 } else
    let s := s.dmaRead .pf (param t 16 8) 200
    if (hostBytes buf 200).isNone then s.finish t { status := 0x0C }
    else if !ok then s.finish t { status := 0x3C }
    else
      let g := s.mgmt
      ({ s with mgmt := if scope = 0 then { g with unlockJtag := true } else { g with unlockUart := true } } : State).finish t (okReply [])))

/-- DEVICE_RESET MODE 3 (R605): factory reset, with presence. -/
def execDeviceResetFactory (t : Nat) (s : State) : Host.Outcome State Fault Refusal :=
  .next (runCommand s t 0x70 (fun t => resetMode t == 3) (fun _ => whole 8 1) (fun t s =>
    if !s.mgmt.present then s.finish t { status := 7 } else
    let free := fun (l : Lease) => { l with held := false, broken := false }
    let s := { s with store := [], keys := { s.keys with bbk0 := none, bbk1 := none }, repair := { s.repair with bootSplit := 0 }
                      mbox := { s.mbox with leases := s.mbox.leases.map (fun (e : Nat × Lease) => (e.1, free e.2)) } }
    s.warmReset 6 false))

/-! ### Firmware update (R606–R610) -/

/-- Slot B: the physical slot that the boot pointer does not name as confirmed. -/
def slotB (f : Firmware) : Bool := !(bootPtr f).slot

/-- SVN in the header of a physical slot (R606). -/
def slotSvn (f : Firmware) (slot : Bool) : Byte := if f.shipped = some slot then f.svnB else mread (slotBytes f slot) 4

/-- Bytes written into slot B, which is DOWNLOADED (Table 18.7). -/
def putSlotB (f : Firmware) (off : Nat) (bs : List Byte) : Firmware :=
  let f' := { f with bState := 1, shipped := if f.shipped = some (slotB f) then none else f.shipped }
  let m := mwriteN (if f.shipped = some (slotB f) then [] else slotBytes f (slotB f)) off bs
  if slotB f then { f' with slot1 := m } else { f' with slot0 := m }

/-- FW_DOWNLOAD (R601, R608, R549). -/
def execFwDownload (t : Nat) (buf : HostRead) (s : State) : Host.Outcome State Fault Refusal :=
  .next (runCommand s t 0x40 (fun _ => true) (fun _ => whole 8 16) (fun t s =>
    let n := param t 16 4
    let off := param t 20 4
    if s.devState = .safe ∧ !s.mgmt.present then s.finish t { status := 7 }
    else if (bootPtr s.fw).trial then s.finish t { status := 0x34 }
    else if 2 ^ 26 < off + n then s.finish t { status := 0x35 } else
      let s := s.dmaRead .pf (param t 8 8) n
      match hostBytes buf n with
      | none => s.finish t { status := 0x0C }
      | some b => ({ s with fw := putSlotB s.fw off b } : State).finish t (okReply [])))

/-- FW_VERIFY (R606, R608). -/
def execFwVerify (t : Nat) (s : State) : Host.Outcome State Fault Refusal :=
  .next (runCommand s t 0x41 (fun _ => true) (fun _ => []) (fun t s =>
    let f := s.fw
    let svn := slotSvn f (slotB f)
    if (bootPtr f).trial then s.finish t { status := 0x34 }
    else if f.bState = 0 then s.finish t { status := 0x30 }
    else if !slotGood f (slotB f) then ({ s with fw := { f with bState := 0, svnB := 0 } } : State).finish t { status := 0x31 }
    else if svn < f.svnMin then s.finish t { status := 0x32 }
    else ({ s with fw := { f with bState := 2, svnB := svn } } : State).finish t (okReply (leBytes 4 svn.toNat))))

/-- FW_ACTIVATE (R601, R608): the trial opens, and a warm reset follows; no completion is written (R506). -/
def execFwActivate (t : Nat) (s : State) : Host.Outcome State Fault Refusal :=
  .next (runCommand s t 0x42 (fun _ => true) (fun _ => []) (fun t s =>
    let f := s.fw
    let p := bootPtr f
    if s.devState = .safe ∧ !s.mgmt.present then s.finish t { status := 7 }
    else if p.trial ∨ anyRunning s then s.finish t { status := 0x34 }
    else if f.bState ≠ 2 then s.finish t { status := 0x33 }
    else if f.svnB < f.svnCur ∧ !s.mgmt.present then s.finish t { status := 7 }
    else ({ s with fw := writePtr f { p with trial := true, trialsLeft := 3 } } : State).warmReset 8 false))

/-- FW_CONFIRM (R608): B is confirmed, and the old A becomes B. -/
def execFwConfirm (t : Nat) (s : State) : Host.Outcome State Fault Refusal :=
  .next (runCommand s t 0x43 (fun _ => true) (fun _ => []) (fun t s =>
    let f := s.fw
    let p := bootPtr f
    if !p.trial then s.finish t already else
    let f' := writePtr f { p with slot := !p.slot, trial := false }
    ({ s with fw := { f' with svnCur := f.svnB, svnB := f.svnCur, bState := 2 } } : State).finish t (okReply [])))

end Sys2Proof.Machine
end

