-- ==== Sys2Proof/Machine/Dispatch.lean ====
section
/-!
DEFINITION. The commands and their meanings: one arm per constructor of Instr.
-/

namespace Sys2Proof.Machine

def exec (i : Instr) (s : State) : Host.Outcome State Fault Refusal :=
  match i with
  | .nop c x => Sys2Proof.Machine.execNop c x s
  | .loop c x => Sys2Proof.Machine.execLoop c x s
  | .endloop c x => Sys2Proof.Machine.execEndloop c x s
  | .setvl c x => Sys2Proof.Machine.execSetvl c x s
  | .wait c x => Sys2Proof.Machine.execWait c x s
  | .seal c x => Sys2Proof.Machine.execSeal c x s
  | .release c x => Sys2Proof.Machine.execRelease c x s
  | .mode c x => Sys2Proof.Machine.execMode c x s
  | .drydown c x => Sys2Proof.Machine.execDrydown c x s
  | .halt c x => Sys2Proof.Machine.execHalt c x s
  | .mclr c x => Sys2Proof.Machine.execMclr c x s
  | .mloadI8 c x => Sys2Proof.Machine.execMloadI8 c x s
  | .mloadI4 c x => Sys2Proof.Machine.execMloadI4 c x s
  | .mloadMb8 c x => Sys2Proof.Machine.execMloadMb8 c x s
  | .mloadMb4 c x => Sys2Proof.Machine.execMloadMb4 c x s
  | .mloadSp c x => Sys2Proof.Machine.execMloadSp c x s
  | .mmacI8 c x => Sys2Proof.Machine.execMmacI8 c x s
  | .mmacI4 c x => Sys2Proof.Machine.execMmacI4 c x s
  | .mmacMb8 c x => Sys2Proof.Machine.execMmacMb8 c x s
  | .mmacMb4 c x => Sys2Proof.Machine.execMmacMb4 c x s
  | .mmacSp c x => Sys2Proof.Machine.execMmacSp c x s
  | .mmov c x => Sys2Proof.Machine.execMmov c x s
  | .vadd c x => Sys2Proof.Machine.execVadd c x s
  | .vsub c x => Sys2Proof.Machine.execVsub c x s
  | .vmul c x => Sys2Proof.Machine.execVmul c x s
  | .vmax c x => Sys2Proof.Machine.execVmax c x s
  | .vmin c x => Sys2Proof.Machine.execVmin c x s
  | .vabs c x => Sys2Proof.Machine.execVabs c x s
  | .vneg c x => Sys2Proof.Machine.execVneg c x s
  | .vfma c x => Sys2Proof.Machine.execVfma c x s
  | .vfmac c x => Sys2Proof.Machine.execVfmac c x s
  | .vcmp c x => Sys2Proof.Machine.execVcmp c x s
  | .vselc c x => Sys2Proof.Machine.execVselc c x s
  | .vsel c x => Sys2Proof.Machine.execVsel c x s
  | .vcvt c x => Sys2Proof.Machine.execVcvt c x s
  | .vquant c x => Sys2Proof.Machine.execVquant c x s
  | .vdeq c x => Sys2Proof.Machine.execVdeq c x s
  | .vmxi c x => Sys2Proof.Machine.execVmxi c x s
  | .vmxe c x => Sys2Proof.Machine.execVmxe c x s
  | .vslice c x => Sys2Proof.Machine.execVslice c x s
  | .vbshuf c x => Sys2Proof.Machine.execVbshuf c x s
  | .vxp4 c x => Sys2Proof.Machine.execVxp4 c x s
  | .vexp2 c x => Sys2Proof.Machine.execVexp2 c x s
  | .vlog2 c x => Sys2Proof.Machine.execVlog2 c x s
  | .vrsqrt c x => Sys2Proof.Machine.execVrsqrt c x s
  | .vrcp c x => Sys2Proof.Machine.execVrcp c x s
  | .vtanh c x => Sys2Proof.Machine.execVtanh c x s
  | .vsigm c x => Sys2Proof.Machine.execVsigm c x s
  | .vtwosum c x => Sys2Proof.Machine.execVtwosum c x s
  | .vftwosum c x => Sys2Proof.Machine.execVftwosum c x s
  | .vrand c x => Sys2Proof.Machine.execVrand c x s
  | .rsum c x => Sys2Proof.Machine.execRsum c x s
  | .rmax c x => Sys2Proof.Machine.execRmax c x s
  | .rmin c x => Sys2Proof.Machine.execRmin c x s
  | .rargmax c x => Sys2Proof.Machine.execRargmax c x s
  | .rargmin c x => Sys2Proof.Machine.execRargmin c x s
  | .rpsum c x => Sys2Proof.Machine.execRpsum c x s
  | .rtopk c x => Sys2Proof.Machine.execRtopk c x s
  | .rtopkm c x => Sys2Proof.Machine.execRtopkm c x s
  | .move c x => Sys2Proof.Machine.execMove c x s
  | .send c x => Sys2Proof.Machine.execSend c x s
  | .recv c x => Sys2Proof.Machine.execRecv c x s
  | .lsend c x => Sys2Proof.Machine.execLsend c x s
  | .msg c x => Sys2Proof.Machine.execMsg c x s
  | .qpop c x => Sys2Proof.Machine.execQpop c x s
  | .htake c x => Sys2Proof.Machine.execHtake c x s
  | .barr c x => Sys2Proof.Machine.execBarr c x s
  | .zctlGrant c x => Sys2Proof.Machine.execZctlGrant c x s
  | .zctlCommit c x => Sys2Proof.Machine.execZctlCommit c x s
  | .zctlVoid c x => Sys2Proof.Machine.execZctlVoid c x s
  | .zctlNormalMode c x => Sys2Proof.Machine.execZctlNormalMode c x s
  | .zctlCreditMode c x => Sys2Proof.Machine.execZctlCreditMode c x s
  | .crd c x => Sys2Proof.Machine.execCrd c x s
  | .cclr c x => Sys2Proof.Machine.execCclr c x s
  | .ctd c x => Sys2Proof.Machine.execCtd c x s
  | .issueCheckPoint c => Sys2Proof.Machine.execIssueCheckPoint c s
  | .lateCheckPass c => Sys2Proof.Machine.execLateCheckPass c s
  | .matrixStart c => Sys2Proof.Machine.execMatrixStart c s
  | .vectorStart c => Sys2Proof.Machine.execVectorStart c s
  | .reductionStart c => Sys2Proof.Machine.execReductionStart c s
  | .moveSendStart c => Sys2Proof.Machine.execMoveSendStart c s
  | .counterUnitStart c => Sys2Proof.Machine.execCounterUnitStart c s
  | .instructionComplete c e => Sys2Proof.Machine.execInstructionComplete c e s
  | .handlerDispatch c => Sys2Proof.Machine.execHandlerDispatch c s
  | .configWindowWrite f c word v => Sys2Proof.Machine.execConfigWindowWrite f c word v s
  | .registerWrite f off v => Sys2Proof.Machine.execRegisterWrite f off v s
  | .rcFieldRead f off => Sys2Proof.Machine.execRcFieldRead f off s
  | .unmappedAccess f off write => Sys2Proof.Machine.execUnmappedAccess f off write s
  | .landingStrip c octant => Sys2Proof.Machine.execLandingStrip c octant s
  | .noticeArrival t commit beat step sect => Sys2Proof.Machine.execNoticeArrival t commit beat step sect s
  | .zoneCommit c z => Sys2Proof.Machine.execZoneCommit c z s
  | .zoneVoid c z => Sys2Proof.Machine.execZoneVoid c z s
  | .zoneModeChange c z => Sys2Proof.Machine.execZoneModeChange c z s
  | .lzCfgCommit f c z rest => Sys2Proof.Machine.execLzCfgCommit f c z rest s
  | .lzCfgVoid f c z rest => Sys2Proof.Machine.execLzCfgVoid f c z rest s
  | .lzCfgGrant f c z g => Sys2Proof.Machine.execLzCfgGrant f c z g s
  | .lzCfgWrite f c z v => Sys2Proof.Machine.execLzCfgWrite f c z v s
  | .scrubRead c o => Sys2Proof.Machine.execScrubRead c o s
  | .scrubIntervalEnd c => Sys2Proof.Machine.execScrubIntervalEnd c s
  | .correctionWriteBack c o => Sys2Proof.Machine.execCorrectionWriteBack c o s
  | .mgmtScratchpadRead c word => Sys2Proof.Machine.execMgmtScratchpadRead c word s
  | .mgmtScratchpadWrite c word v be => Sys2Proof.Machine.execMgmtScratchpadWrite c word v be s
  | .flitReceive c port track err => Sys2Proof.Machine.execFlitReceive c port track err s
  | .routeTablePhase c => Sys2Proof.Machine.execRouteTablePhase c s
  | .holdRootSample sid => Sys2Proof.Machine.execHoldRootSample sid s
  | .holdBegin sid => Sys2Proof.Machine.execHoldBegin sid s
  | .holdEnd sid => Sys2Proof.Machine.execHoldEnd sid s
  | .holdTimeout sid => Sys2Proof.Machine.execHoldTimeout sid s
  | .bayIsoWrite f b v => Sys2Proof.Machine.execBayIsoWrite f b v s
  | .readyRaise c => Sys2Proof.Machine.execReadyRaise c s
  | .configGroupSend c spine => Sys2Proof.Machine.execConfigGroupSend c spine s
  | .configGroupReceive c track err => Sys2Proof.Machine.execConfigGroupReceive c track err s
  | .paneClearing c => Sys2Proof.Machine.execPaneClearing c s
  | .configCommit c => Sys2Proof.Machine.execConfigCommit c s
  | .sectionClose sid => Sys2Proof.Machine.execSectionClose sid s
  | .sectionStart sid => Sys2Proof.Machine.execSectionStart sid s
  | .regulatorRampDone b => Sys2Proof.Machine.execRegulatorRampDone b s
  | .dutyWithholdEnd sid => Sys2Proof.Machine.execDutyWithholdEnd sid s
  | .readSlot p => Sys2Proof.Machine.execReadSlot p s
  | .writeSlot p => Sys2Proof.Machine.execWriteSlot p s
  | .remoteSlot p => Sys2Proof.Machine.execRemoteSlot p s
  | .maintenanceSlot p => Sys2Proof.Machine.execMaintenanceSlot p s
  | .rfmRequest p pc absorb defer => Sys2Proof.Machine.execRfmRequest p pc absorb defer s
  | .tileReadReturn p => Sys2Proof.Machine.execTileReadReturn p s
  | .mpSlotWrite f p ix v => Sys2Proof.Machine.execMpSlotWrite f p ix v s
  | .descriptorStart x => Sys2Proof.Machine.execDescriptorStart x s
  | .indexFrameReceive x => Sys2Proof.Machine.execIndexFrameReceive x s
  | .spineFrameSend x => Sys2Proof.Machine.execSpineFrameSend x s
  | .writeStripTake x => Sys2Proof.Machine.execWriteStripTake x s
  | .routerForward c input => Sys2Proof.Machine.execRouterForward c input s
  | .hubPathTransfer c up => Sys2Proof.Machine.execHubPathTransfer c up s
  | .hubMessageRoute b => Sys2Proof.Machine.execHubMessageRoute b s
  | .messageEnqueue c => Sys2Proof.Machine.execMessageEnqueue c s
  | .barCmdArm src n => Sys2Proof.Machine.execBarCmdArm src n s
  | .barCmdDisarm src n => Sys2Proof.Machine.execBarCmdDisarm src n s
  | .barCmdArrive src n err genchk gen => Sys2Proof.Machine.execBarCmdArrive src n err genchk gen s
  | .barCmdErr src n genchk gen => Sys2Proof.Machine.execBarCmdErr src n genchk gen s
  | .barCfgWrite f n reg v => Sys2Proof.Machine.execBarCfgWrite f n reg v s
  | .stepBuild sid => Sys2Proof.Machine.execStepBuild sid s
  | .tokenRecordReceive b => Sys2Proof.Machine.execTokenRecordReceive b s
  | .stepCommit sid => Sys2Proof.Machine.execStepCommit sid s
  | .outputRecordWrite sid ring dmaOk => Sys2Proof.Machine.execOutputRecordWrite sid ring dmaOk s
  | .outRingCtlWrite f sid ring v => Sys2Proof.Machine.execOutRingCtlWrite f sid ring v s
  | .linkFlitReceive g flit fec => Sys2Proof.Machine.execLinkFlitReceive g flit fec s
  | .flitOpportunity g => Sys2Proof.Machine.execFlitOpportunity g s
  | .gaconIdle g flit => Sys2Proof.Machine.execGaconIdle g flit s
  | .gaconNak g flit => Sys2Proof.Machine.execGaconNak g flit s
  | .nakTimeout g => Sys2Proof.Machine.execNakTimeout g s
  | .replayTimeout g => Sys2Proof.Machine.execReplayTimeout g s
  | .gaconSwap g flit => Sys2Proof.Machine.execGaconSwap g flit s
  | .gaconSwapAck g flit => Sys2Proof.Machine.execGaconSwapAck g flit s
  | .failoverSwitch g rx => Sys2Proof.Machine.execFailoverSwitch g rx s
  | .laneFailure g rx lane => Sys2Proof.Machine.execLaneFailure g rx lane s
  | .partnerSignalLost g => Sys2Proof.Machine.execPartnerSignalLost g s
  | .gcCtlTrain f g v => Sys2Proof.Machine.execGcCtlTrain f g v s
  | .gcCtlDown f g v => Sys2Proof.Machine.execGcCtlDown f g v s
  | .detect g signal => Sys2Proof.Machine.execDetect g signal s
  | .equalise g rxGood txGood slow => Sys2Proof.Machine.execEqualise g rxGood txGood slow s
  | .negotiate g cap => Sys2Proof.Machine.execNegotiate g cap s
  | .align g lock => Sys2Proof.Machine.execAlign g lock s
  | .domainIdWrite f v => Sys2Proof.Machine.execDomainIdWrite f v s
  | .gaconWrite g vc => Sys2Proof.Machine.execGaconWrite g vc s
  | .gaconRead g vc => Sys2Proof.Machine.execGaconRead g vc s
  | .gaconReturn g vc => Sys2Proof.Machine.execGaconReturn g vc s
  | .gaconMsg g vc => Sys2Proof.Machine.execGaconMsg g vc s
  | .gaconBarcmd g vc => Sys2Proof.Machine.execGaconBarcmd g vc s
  | .gaconNotice g vc => Sys2Proof.Machine.execGaconNotice g vc s
  | .sessionOpen t => Sys2Proof.Machine.execSessionOpen t s
  | .sessionClose t => Sys2Proof.Machine.execSessionClose t s
  | .deviceStatus t => Sys2Proof.Machine.execDeviceStatus t s
  | .suiteCreate t buf => Sys2Proof.Machine.execSuiteCreate t buf s
  | .suiteDestroy t => Sys2Proof.Machine.execSuiteDestroy t s
  | .imageLoad t buf peers => Sys2Proof.Machine.execImageLoad t buf peers s
  | .imageUnload t => Sys2Proof.Machine.execImageUnload t s
  | .suiteStart t => Sys2Proof.Machine.execSuiteStart t s
  | .suiteStop t => Sys2Proof.Machine.execSuiteStop t s
  | .suiteStopForce t => Sys2Proof.Machine.execSuiteStopForce t s
  | .seqSubmit t => Sys2Proof.Machine.execSeqSubmit t s
  | .seqCancel t => Sys2Proof.Machine.execSeqCancel t s
  | .policySetDevice t => Sys2Proof.Machine.execPolicySetDevice t s
  | .policySetSuite t => Sys2Proof.Machine.execPolicySetSuite t s
  | .policySetSplit t => Sys2Proof.Machine.execPolicySetSplit t s
  | .counterConfig t => Sys2Proof.Machine.execCounterConfig t s
  | .sampleConfig t => Sys2Proof.Machine.execSampleConfig t s
  | .meterRead t => Sys2Proof.Machine.execMeterRead t s
  | .timeSet t => Sys2Proof.Machine.execTimeSet t s
  | .fwDownload t buf => Sys2Proof.Machine.execFwDownload t buf s
  | .fwVerify t => Sys2Proof.Machine.execFwVerify t s
  | .fwActivate t => Sys2Proof.Machine.execFwActivate t s
  | .fwConfirm t => Sys2Proof.Machine.execFwConfirm t s
  | .keyProvisionFk t buf => Sys2Proof.Machine.execKeyProvisionFk t buf s
  | .keyProvisionBbk t buf => Sys2Proof.Machine.execKeyProvisionBbk t buf s
  | .keyProvisionBbkZeroise t => Sys2Proof.Machine.execKeyProvisionBbkZeroise t s
  | .keyProvisionSigner t buf => Sys2Proof.Machine.execKeyProvisionSigner t buf s
  | .keyProvisionRevokeSigner t => Sys2Proof.Machine.execKeyProvisionRevokeSigner t s
  | .keyProvisionRevokeFk t => Sys2Proof.Machine.execKeyProvisionRevokeFk t s
  | .keyProvisionSvnFloor t buf => Sys2Proof.Machine.execKeyProvisionSvnFloor t buf s
  | .keyProvisionSvnMin t buf => Sys2Proof.Machine.execKeyProvisionSvnMin t buf s
  | .debugUnlock t buf => Sys2Proof.Machine.execDebugUnlock t buf s
  | .leaseAcquire t => Sys2Proof.Machine.execLeaseAcquire t s
  | .leaseRelease t => Sys2Proof.Machine.execLeaseRelease t s
  | .logRead t => Sys2Proof.Machine.execLogRead t s
  | .deviceResetWarm t => Sys2Proof.Machine.execDeviceResetWarm t s
  | .deviceResetDrainedWarm t => Sys2Proof.Machine.execDeviceResetDrainedWarm t s
  | .deviceResetDrainedQuiesce t => Sys2Proof.Machine.execDeviceResetDrainedQuiesce t s
  | .deviceResetFactory t => Sys2Proof.Machine.execDeviceResetFactory t s
  | .deviceResetRepairRetest t => Sys2Proof.Machine.execDeviceResetRepairRetest t s
  | .drainTimeout sid => Sys2Proof.Machine.execDrainTimeout sid s
  | .drainComplete => Sys2Proof.Machine.execDrainComplete s
  | .commandDoorbell f v => Sys2Proof.Machine.execCommandDoorbell f v s
  | .completionHeadWrite f v => Sys2Proof.Machine.execCompletionHeadWrite f v s
  | .ringEnable f cpl v => Sys2Proof.Machine.execRingEnable f cpl v s
  | .commandFetch f entry => Sys2Proof.Machine.execCommandFetch f entry s
  | .apertureHbmAccess f off w => Sys2Proof.Machine.execApertureHbmAccess f off w s
  | .flrPf => Sys2Proof.Machine.execFlrPf s
  | .flrVf sid => Sys2Proof.Machine.execFlrVf sid s
  | .perstN => Sys2Proof.Machine.execPerstN s
  | .deviceFatalError => Sys2Proof.Machine.execDeviceFatalError s
  | .vaonGood => Sys2Proof.Machine.execVaonGood s
  | .vaonLoss => Sys2Proof.Machine.execVaonLoss s
  | .vin12Good => Sys2Proof.Machine.execVin12Good s
  | .vin12Loss => Sys2Proof.Machine.execVin12Loss s
  | .vin48Good => Sys2Proof.Machine.execVin48Good s
  | .vin48Loss => Sys2Proof.Machine.execVin48Loss s
  | .vin48Return => Sys2Proof.Machine.execVin48Return s
  | .vbatLoss => Sys2Proof.Machine.execVbatLoss s
  | .resonatorFailure => Sys2Proof.Machine.execResonatorFailure s
  | .holdoverEnd => Sys2Proof.Machine.execHoldoverEnd s
  | .bayPllLock b => Sys2Proof.Machine.execBayPllLock b s
  | .asleepScrubWake b => Sys2Proof.Machine.execAsleepScrubWake b s
  | .stackSelfRefreshEntry p => Sys2Proof.Machine.execStackSelfRefreshEntry p s
  | .stackSelfRefreshExit p => Sys2Proof.Machine.execStackSelfRefreshExit p s
  | .powerCapLoop p10 peak => Sys2Proof.Machine.execPowerCapLoop p10 peak s
  | .protectionTrigger cause => Sys2Proof.Machine.execProtectionTrigger cause s
  | .protectionClear cause => Sys2Proof.Machine.execProtectionClear cause s
  | .thermtrip tj => Sys2Proof.Machine.execThermtrip tj s
  | .thermtripRearm tj => Sys2Proof.Machine.execThermtripRearm tj s
  | .macerationStepComplete r => Sys2Proof.Machine.execMacerationStepComplete r s
  | .unitCheckError u => Sys2Proof.Machine.execUnitCheckError u s
  | .recoveryDetect sid => Sys2Proof.Machine.execRecoveryDetect sid s
  | .quickTestDone sid pass => Sys2Proof.Machine.execQuickTestDone sid pass s
  | .lateralCopyDone sid => Sys2Proof.Machine.execLateralCopyDone sid s
  | .restoreDone sid => Sys2Proof.Machine.execRestoreDone sid s
  | .mirrorRestore c o pane => Sys2Proof.Machine.execMirrorRestore c o pane s
  | .mirrorRewrite c o pane => Sys2Proof.Machine.execMirrorRewrite c o pane s
  | .suiteFatalFault sid => Sys2Proof.Machine.execSuiteFatalFault sid s
  | .pseudoChannelLoss p pc => Sys2Proof.Machine.execPseudoChannelLoss p pc s
  | .stateMismatchRecheck u differs => Sys2Proof.Machine.execStateMismatchRecheck u differs s
  | .counterOverflow k => Sys2Proof.Machine.execCounterOverflow k s
  | .watchdogExpiry c => Sys2Proof.Machine.execWatchdogExpiry c s
  | .sampleTaken c e => Sys2Proof.Machine.execSampleTaken c e s
  | .sampleRecordWrite sid => Sys2Proof.Machine.execSampleRecordWrite sid s
  | .heartbeat => Sys2Proof.Machine.execHeartbeat s
  | .checkpoint => Sys2Proof.Machine.execCheckpoint s
  | .activeCoreFailure => Sys2Proof.Machine.execActiveCoreFailure s
  | .standbyBistDone pass => Sys2Proof.Machine.execStandbyBistDone pass s
  | .sidebandRead k => Sys2Proof.Machine.execSidebandRead k s
  | .sidebandWrite k v => Sys2Proof.Machine.execSidebandWrite k v s
  | .presenceAssert => Sys2Proof.Machine.execPresenceAssert s
  | .presenceDeassert => Sys2Proof.Machine.execPresenceDeassert s
  | .sealOpen => Sys2Proof.Machine.execSealOpen s
  | .meterPeriodBoundary => Sys2Proof.Machine.execMeterPeriodBoundary s
  | .meterCheckpoint => Sys2Proof.Machine.execMeterCheckpoint s
  | .meterCtlWrite f v => Sys2Proof.Machine.execMeterCtlWrite f v s
  | .perstNDeassertion => Sys2Proof.Machine.execPerstNDeassertion s
  | .vbatGood => Sys2Proof.Machine.execVbatGood s

end Sys2Proof.Machine
end

