-- ==== Sys2Proof/Machine/Step.lean ====
section
/-!
DEFINITION. One step of the block: the command at the front of the queue, or, on an empty queue, a moment of time (log 11).
-/

namespace Sys2Proof.Machine

/-- A step takes the command at the front of the queue and carries it out with the queue's rest; with no command waiting, one
quantum of time passes (DESIGN CHOICE, log 11). -/
def step (s : State) : Host.Outcome State Fault Refusal :=
  match s.pending with
  | [] => .next (s.advance 1)
  | c :: r => exec c { s with pending := r }

/-- The command that a word spells goes to the front of the queue; the table gives its rows no bits, so no word spells one. -/
def State.withFetchWord (s : State) (nbits w : Nat) : State :=
  match decodeTableWord nbits w with
  | some c => { s with pending := c :: s.pending }
  | none => s

end Sys2Proof.Machine
end

