-- ==== Sys2Proof/Safety.lean ====
section
/-!
DEFINITION. The terms in which claims are stated: which commands issue an instruction, when an instruction may issue, what makes a run
safe, and what no command may undo.
-/

namespace Sys2Proof

open Sys2Proof.Machine

/-! ### The commands that issue an instruction -/

/-- Opcode, cell and context of a command whose instruction its opcode alone names (Tables 2.11, 5.3, 6.1–6.5, 10.1, 17.7). -/
def opcodeOf : Instr → Option (Nat × CellId × Ctx)
  | .nop c x => some (0x00, c, x)
  | .loop c x => some (0x01, c, x)
  | .setvl c x => some (0x03, c, x)
  | .wait c x => some (0x04, c, x)
  | .seal c x => some (0x05, c, x)
  | .release c x => some (0x06, c, x)
  | .mode c x => some (0x07, c, x)
  | .drydown c x => some (0x08, c, x)
  | .halt c x => some (0x09, c, x)
  | .mclr c x => some (0x20, c, x)
  | .mloadI8 c x => some (0x21, c, x)
  | .mloadI4 c x => some (0x22, c, x)
  | .mloadMb8 c x => some (0x23, c, x)
  | .mloadMb4 c x => some (0x24, c, x)
  | .mloadSp c x => some (0x25, c, x)
  | .mmacI8 c x => some (0x28, c, x)
  | .mmacI4 c x => some (0x29, c, x)
  | .mmacMb8 c x => some (0x2A, c, x)
  | .mmacMb4 c x => some (0x2B, c, x)
  | .mmacSp c x => some (0x2C, c, x)
  | .mmov c x => some (0x30, c, x)
  | .vadd c x => some (0x40, c, x)
  | .vsub c x => some (0x41, c, x)
  | .vmul c x => some (0x42, c, x)
  | .vmax c x => some (0x43, c, x)
  | .vmin c x => some (0x44, c, x)
  | .vabs c x => some (0x45, c, x)
  | .vneg c x => some (0x46, c, x)
  | .vfma c x => some (0x48, c, x)
  | .vfmac c x => some (0x49, c, x)
  | .vcmp c x => some (0x50, c, x)
  | .vselc c x => some (0x51, c, x)
  | .vsel c x => some (0x52, c, x)
  | .vcvt c x => some (0x58, c, x)
  | .vquant c x => some (0x59, c, x)
  | .vdeq c x => some (0x5A, c, x)
  | .vmxi c x => some (0x5B, c, x)
  | .vmxe c x => some (0x5C, c, x)
  | .vslice c x => some (0x5D, c, x)
  | .vbshuf c x => some (0x60, c, x)
  | .vxp4 c x => some (0x61, c, x)
  | .vexp2 c x => some (0x68, c, x)
  | .vlog2 c x => some (0x69, c, x)
  | .vrsqrt c x => some (0x6A, c, x)
  | .vrcp c x => some (0x6B, c, x)
  | .vtanh c x => some (0x6C, c, x)
  | .vsigm c x => some (0x6D, c, x)
  | .vtwosum c x => some (0x70, c, x)
  | .vftwosum c x => some (0x71, c, x)
  | .vrand c x => some (0x78, c, x)
  | .rsum c x => some (0x80, c, x)
  | .rmax c x => some (0x81, c, x)
  | .rmin c x => some (0x82, c, x)
  | .rargmax c x => some (0x83, c, x)
  | .rargmin c x => some (0x84, c, x)
  | .rpsum c x => some (0x85, c, x)
  | .rtopk c x => some (0x88, c, x)
  | .rtopkm c x => some (0x89, c, x)
  | .move c x => some (0x90, c, x)
  | .send c x => some (0x91, c, x)
  | .recv c x => some (0x92, c, x)
  | .lsend c x => some (0x93, c, x)
  | .msg c x => some (0x98, c, x)
  | .qpop c x => some (0x99, c, x)
  | .htake c x => some (0x9A, c, x)
  | .barr c x => some (0x9C, c, x)
  | .crd c x => some (0xB0, c, x)
  | .cclr c x => some (0xB1, c, x)
  | .ctd c x => some (0xB2, c, x)
  | _ => none

/-- Operation, cell and context of a ZCTL command (R364). -/
def zctlOf : Instr → Option (Nat × CellId × Ctx)
  | .zctlGrant c x => some (1, c, x)
  | .zctlCommit c x => some (2, c, x)
  | .zctlVoid c x => some (3, c, x)
  | .zctlNormalMode c x => some (4, c, x)
  | .zctlCreditMode c x => some (5, c, x)
  | _ => none

/-- The instruction at the main context's next address. -/
def nextWord (s : State) (c : Nat) : BitVec 128 := (s.cell c).instr (s.cell c).seq.pc

/-- Its count (R57, R74). -/
def nextCount (s : State) (c : Nat) : Nat :=
  let x := s.cell c
  countOf (nextWord s c) x.seq.vlNow x.const

/-- Whether it acts under PROV (R206). -/
def nextProv (s : State) (c : Nat) : Bool := actsProv (nextWord s c) (s.cell c).mat.issued (s.cell c).seq.lastChain

/-- The main context may issue in its present cycle, and the instruction at its next address has opcode op and meets no fault (R61–R68,
R88–R93). -/
def mayIssue (s : State) (c op : Nat) : Prop :=
  let x := s.cell c
  let w := nextWord s c
  (s.runningSuite x).isSome = true ∧ x.seq.ready ≤ x.seq.cyc ∧ mainReady s x = true ∧ s.faultsNow c = false ∧ x.parity = none ∧
  x.seq.pc ≤ 511 ∧
  x.instrBad x.seq.pc = none ∧ (opInfo w).isSome = true ∧ wOp w = op ∧
  issueFault x w (legalCtx x x.seq x.mat.issued false x.seq.pc) (nextCount s c) x.seq.lastChain.isSome
    (if x.seq.pc < 511 then some (x.instr (x.seq.pc + 1)) else none) (queueFull x ((opInfo w).bind (·.unit))) (ownOf s x)
    (checkedFault x.seq) = none

/-- The instruction as it issues (R43, R76). -/
def nextIssued (s : State) (c : Nat) : Issued :=
  let x := s.cell c
  mkIssued x .main (nextWord s c) x.seq.pc (nextCount s c) (nextProv s c) (x.seq.lastChain.map (·.1))

/-- The instruction at a running handler's next address, as it issues. -/
def handlerIssued (s : State) (c : Nat) (h : Handler) : Issued :=
  let x := s.cell c
  let w := x.instr h.pc
  mkIssued x .handler w h.pc (countOf w h.vl x.const) (wProv w) none

/-- The running handler h may issue in the cell's present cycle (R80–R82), and its next instruction has opcode op and meets no fault. -/
def mayIssueHandler (s : State) (c op : Nat) (h : Handler) : Prop :=
  let x := s.cell c
  let i := handlerIssued s c h
  let w := i.word
  (s.runningSuite x).isSome = true ∧ x.seq.handler = some h ∧ h.ready ≤ x.seq.cyc ∧ beatFrozen s x = false ∧
  (x.state = .running ∨ x.state = .loading) ∧
  s.faultsNow c = false ∧ h.pc ≤ 511 ∧ x.instrBad h.pc = none ∧ (opInfo w).isSome = true ∧ wOp w = op ∧
  (h.issued + 1 < h.maxLen ∨ op = 9) ∧
  (∃ mask window, openSlot x = some (mask, window) ∧ slotAdmits mask window i = true) ∧
  checkInstr x (effTags x) w i.n (wProv w) false = ⟨[], none⟩ ∧
  issueFault x w (legalCtx x x.seq x.mat.issued true h.pc) i.n false none (queueFull x ((opInfo w).bind (·.unit))) (ownOf s x) none = none

/-! ### Mailbox commands -/

/-- The taken command x, of an opcode, may start (R505), passes the checks that every command meets (log 41), and its completion can be
written (R503, R504). used: the bytes of the entry that carry its parameters, with their bits. -/
def mayAnswer (s : State) (x : Taken) (op : Nat) (used : List (Nat × Nat)) : Prop :=
  startable s x.ticket op (fun _ => true) = some x ∧ x.running = false ∧ gate s x used = none ∧ x.lost = false ∧
  (s.ring x.fn true).enable = true

/-- In t the command x has completed last: with a STATUS, ALREADY and RESULT bytes, in one DMA write of 32 bytes (Table 14.9), and it is no
longer in progress. -/
def answered (t : State) (x : Taken) (status : Nat) (again : Bool) (result : List Byte) : Prop :=
  (∀ e ∈ t.mbox.taken, e.ticket ≠ x.ticket) ∧
  ∃ w, t.out.dma.getLast? = some w ∧ w.fn = x.fn ∧ w.bytes.length = 32 ∧ leAt w.bytes 0 2 = x.cmdId.toNat ∧ leAt w.bytes 2 2 = status ∧
    leAt w.bytes 4 1 % 2 = b2n again ∧ slice w.bytes 8 24 = slice result 0 24

/-! ### Host accesses -/

/-- In t vector v of a function has been raised since s: a masked one is pending, and an unmasked one's message is sent when the link is up
(Table 14.14). -/
def raised (s t : State) (f : HostFn) (v : Nat) : Prop :=
  if (s.vector f v).masked = true then (t.vector f v).pending = true else s.power.linkUp = true → (f, v) ∈ t.out.msix

/-- Function and BAR offset of a command that is a host access (R496, R499). -/
def hostOffset : Instr → Option (HostFn × Nat)
  | .registerWrite f off _ => some (f, off)
  | .rcFieldRead f off => some (f, off)
  | .unmappedAccess f off _ => some (f, off)
  | .apertureHbmAccess f off _ => some (f, off)
  | _ => none

/-! ### What every step keeps -/

/-- Whether a side of a bay lies on the device edge: 0 north (Y = 0), 1 east (X = 63), 2 south (Y = 63), 3 west (X = 0) (R286). -/
def onEdge (b side : Nat) : Bool :=
  (side == 0 && decide (b < 4)) || (side == 1 && b % 4 == 3) || (side == 2 && decide (28 ≤ b)) || (side == 3 && b % 4 == 0)

/-- Every side of a bay on the device edge is CLOSED, and no write that waits for its beat opens one (R286, R287). -/
def EdgesClosed (s : State) : Prop :=
  ∀ e ∈ s.bays, e.1 < 32 → ∀ d < 4, onEdge e.1 d = true →
    e.2.iso.getLsbD d = false ∧ ∀ v, e.2.isoReq = some v → v.getLsbD d = false

/-- What fuses hold in b where a stood before: the device's identity, its good-bay map, its row shifts and its unique key as they were, a
programmed FK slot as it was, no revocation undone, no valid signer's digest changed, and no SVN floor of one, nor SVN_MIN, lower. -/
def FusesFrom (a b : State) : Prop :=
  b.uid = a.uid ∧ b.grade = a.grade ∧ b.keys.duk = a.keys.duk ∧ b.repair.fuseGood = a.repair.fuseGood ∧ b.repair.fuseShift = a.repair.fuseShift ∧
  a.fw.svnMin ≤ b.fw.svnMin ∧
  (∀ n, a.keys.fk.any (fun e => e.1 == n) = true → b.keys.fk.any (fun e => e.1 == n) = true ∧ sget [] b.keys.fk n = sget [] a.keys.fk n) ∧
  (∀ n, a.keys.fkRevoked.getLsbD n = true → b.keys.fkRevoked.getLsbD n = true) ∧
  (∀ n, (signerOf a n).revoked = true → (signerOf b n).revoked = true) ∧
  (∀ n, (signerOf a n).valid = true →
    (signerOf b n).valid = true ∧ (signerOf b n).digest = (signerOf a n).digest ∧ (signerOf a n).svnFloor ≤ (signerOf b n).svnFloor)

end Sys2Proof
end

