-- ==== Sys2Proof/Certificates/Slice0/Obligations.lean ====
section
/-!
DEFINITION. The statements about the model that the provers prove.
-/

open Sys2Proof Sys2Proof.Machine

/-- O1. For every command c and state s: a step of s with c at the front of its queue is exec c on s with the queue's rest.
(spec/opcode_table.json, R10) -/
def Obligations.StepTakesTheFrontCommand : Prop :=
  ∀ (c : Instr) (rest : List Instr) (s : State), step { s with pending := c :: rest } = exec c { s with pending := rest }

/-- O2. For every state with an empty queue, a step answers the state in which one quantum (1/15 ns) has passed: now rises by 1, and
tick counts the multiples of 600 quanta (R8: 25 MHz) while VAON is good. That an idle step passes time is the model's choice
(log 11). (R8, notes/assumptions/11.md) -/
def Obligations.IdleStepPassesOneQuantum : Prop :=
  ∀ s : State, s.pending = [] → ∃ t, step s = .next t ∧ t.now = s.now + 1 ∧
    t.tick = (if s.power.vaonGood then s.tick + BitVec.ofNat 64 ((s.now + 1) / 600 - s.now / 600) else s.tick) ∧
    t.pending = [] ∧ t.devState = s.devState

/-- O3. No command changes the commands that wait. Every command but a host access answers a next state, whatever the state: what the
device cannot do changes nothing, is answered with a status, or is recorded as the spec says. A host access outside its
function's BAR faults as such; one inside it answers a next state. That the first stops is the model's choice (no rule gives it
another effect). (R10, R496, R499, spec/opcode_table.json) -/
def Obligations.NoCommandStopsTheBlockOrLosesTheQueue : Prop :=
  (∀ (i : Instr) (s t : State), exec i s = .next t → t.pending = s.pending) ∧
  (∀ (i : Instr) (s : State), hostOffset i = none → ∃ t, exec i s = .next t) ∧
  (∀ (i : Instr) (f : HostFn) (off : Nat) (s : State), hostOffset i = some (f, off) →
    (barSize f ≤ off → exec i s = .fault .outsideBar) ∧
    (off < barSize f → ∃ t, exec i s = .next t))

/-- O4. For every engine instruction of Tables 5.3, 6.1-6.5, 10.1 and 17.7 (and every ZCTL operation): when the main context may issue
and the instruction at its next address has the command's opcode and meets no fault, exec answers a next state in which the
instruction, with its word, count, MODE and PROV, stands last in its engine's queue; the other queues are as they were; the next
address is one on, the next issue cycle is the one after, the issue number is one on, loops, VL and MODE are as they were; the
pending marks of its SEAL and RELEASE stand; scratchpad data and check bits, tags, zones, message queues, tracks and the loaded
accumulators and buffers are unchanged; every other cell is unchanged, and outside the cells nothing changes but, with DRYDOWN,
the suite's feeder. (R43, R51, R62, R69, R76, R364) -/
def Obligations.EngineInstructionEntersItsQueue : Prop :=
  ∀ (i : Instr) (op : Nat) (c : CellId) (s : State) (e : Engine),
    (opcodeOf i = some (op, c, .main) ∨
      ∃ k, zctlOf i = some (k, c, .main) ∧ op = 0x9D ∧ wE (nextWord s c) 8 3 = k) →
    mayIssue s c op → (opInfo (nextWord s c)).bind (·.unit) = some e →
    ∃ t, exec i s = .next t ∧
      (t.cell c).eng.queue e = (s.cell c).eng.queue e ++ [nextIssued s c] ∧
      (∀ g, g ≠ e → (t.cell c).eng.queue g = (s.cell c).eng.queue g) ∧
      (t.cell c).eng.inflight = (s.cell c).eng.inflight ∧
      (t.cell c).seq.pc = (s.cell c).seq.pc + 1 ∧ (t.cell c).seq.ready = (s.cell c).seq.cyc + 1 ∧
      (t.cell c).seq.seqNo = (s.cell c).seq.seqNo + 1 ∧
      (t.cell c).seq.loops = (s.cell c).seq.loops ∧ (t.cell c).seq.vl = (s.cell c).seq.vl ∧
      (t.cell c).seq.mode = (s.cell c).seq.mode ∧
      (wSeal (nextWord s c) = true → ∀ g ∈ (nextIssued s c).dsts, (g, (s.cell c).seq.seqNo) ∈ (t.cell c).pendSeal) ∧
      (wRelease (nextWord s c) = true → ∀ g ∈ (nextIssued s c).srcs, g ∉ (nextIssued s c).dsts →
        (g, (s.cell c).seq.seqNo) ∈ (t.cell c).pendRelease) ∧
      (t.cell c).mem = (s.cell c).mem ∧ (t.cell c).check = (s.cell c).check ∧ (t.cell c).tags = (s.cell c).tags ∧
      (t.cell c).zones = (s.cell c).zones ∧ (t.cell c).que = (s.cell c).que ∧ (t.cell c).trk = (s.cell c).trk ∧
      (t.cell c).mat.acc = (s.cell c).mat.acc ∧ (t.cell c).mat.buf0 = (s.cell c).mat.buf0 ∧
      (t.cell c).mat.buf1 = (s.cell c).mat.buf1 ∧ (t.cell c).state = (s.cell c).state ∧
      (∀ k, k ≠ c.val → t.cell k = s.cell k) ∧
      (wDrydown (nextWord s c) = false → t.suites = s.suites) ∧
      { t with cells := s.cells, suites := s.suites } = s

/-- O5. When the main context may issue and the instruction at its next address is a NOP, LOOP, SETVL or MODE that meets no fault, exec
answers a next state: NOP fills max(1, n) issue cycles and, with OPEN, opens its slots; LOOP opens a level whose body begins at
the next address with counter n, and whose VL starts at the enclosing VL; SETVL writes n to the VL of the current depth; MODE
writes its four bits; the next address is one on. Scratchpad, tags, zones, engines and every other cell are unchanged; outside
the cells only the bay's sampling, and with DRYDOWN the suite's feeder, may change. When the main context may issue and its next
address holds a legal ENDLOOP, exec answers a next state in which the innermost counter has fallen by 1 and the next address is
the body's first instruction, or, when the counter was 1 (or less), the loop is closed and the next address is one on; the issue
cycle, VL and MODE, everything else of the cell and every other part of the state are unchanged. (R60, R70, R74, R75, R77, R80,
R71, R73) -/
def Obligations.SequencingInstructionsTakeEffectAtIssue : Prop :=
  (∀ (c : CellId) (s : State),
      let x := s.cell c
      let w := nextWord s c
      let n := nextCount s c
      let frame := fun (t : State) => (t.cell c).mem = x.mem ∧ (t.cell c).check = x.check ∧ (t.cell c).tags = x.tags ∧
        (t.cell c).zones = x.zones ∧ (t.cell c).eng = x.eng ∧ (t.cell c).mat = x.mat ∧ (t.cell c).state = x.state ∧
        (t.cell c).seq.pc = x.seq.pc + 1 ∧
        (∀ k, k ≠ c.val → t.cell k = s.cell k) ∧ { t with cells := s.cells, suites := s.suites, bays := s.bays, free := s.free } = s
      (mayIssue s c 0x00 → ∃ t, exec (.nop c .main) s = .next t ∧ frame t ∧ (t.cell c).seq.ready = x.seq.cyc + max 1 n ∧
        (t.cell c).seq.loops = x.seq.loops ∧ (t.cell c).seq.vl = x.seq.vl ∧ (t.cell c).seq.mode = x.seq.mode ∧
        (t.cell c).seq.openNop = (if wOpen w then some ⟨x.seq.cyc, max 1 n, BitVec.ofNat 8 (wE w 16 8), wE w 0 8⟩ else x.seq.openNop)) ∧
      (mayIssue s c 0x01 → ∃ t, exec (.loop c .main) s = .next t ∧ frame t ∧ (t.cell c).seq.ready = x.seq.cyc + 1 ∧
        (t.cell c).seq.loops = x.seq.loops ++ [⟨x.seq.pc + 1, n⟩] ∧
        (t.cell c).seq.vl = x.seq.vl.set (x.seq.loops.length + 1) x.seq.vlNow ∧ (t.cell c).seq.mode = x.seq.mode) ∧
      (mayIssue s c 0x03 → ∃ t, exec (.setvl c .main) s = .next t ∧ frame t ∧ (t.cell c).seq.ready = x.seq.cyc + 1 ∧
        (t.cell c).seq.vl = x.seq.vl.set x.seq.loops.length n ∧ (t.cell c).seq.loops = x.seq.loops ∧
        (t.cell c).seq.mode = x.seq.mode) ∧
      (mayIssue s c 0x07 → ∃ t, exec (.mode c .main) s = .next t ∧ frame t ∧ (t.cell c).seq.ready = x.seq.cyc + 1 ∧
        (t.cell c).seq.mode = BitVec.ofNat 4 (wE w 0 4) ∧ (t.cell c).seq.loops = x.seq.loops ∧ (t.cell c).seq.vl = x.seq.vl)) ∧
  (∀ (c : CellId) (s : State) (outer : List Loop) (l : Loop),
      let x := s.cell c
      mayIssue s c 0x02 → x.seq.loops = outer ++ [l] →
      exec (.endloop c .main) s = .next (s.setCell c { x with seq :=
        if l.counter ≤ 1 then { x.seq with loops := outer, pc := x.seq.pc + 1, lastChain := none }
        else { x.seq with loops := outer ++ [{ l with counter := l.counter - 1 }], pc := l.body, lastChain := none } }))

/-- O6. When the main context may issue and the next instruction is a WAIT on zone z with threshold n that meets no fault, exec answers
a next state in which the next address is one on, nothing but this cell and its bay's sampling has changed, and the WAIT acts on
the tags of its issue cycle. With nothing in flight, and no opcode that acts on tags issued in this cycle before it, the cycle's
tag events (R114), on the cell as it then is, give: LANDED has fallen by min(n, LANDED) and PROV_LANDED by what is left of n;
each EMPTY pane of the zone has become FULL, or PROVISIONAL when LANDED alone did not meet n; every other pane keeps its tag;
the other zones, the memory and the sequencer are as they were. (R127, R113, R114) -/
def Obligations.WaitTakesTheLandingThreshold : Prop :=
  ∀ (c : CellId) (s : State), mayIssue s c 0x04 →
    let x := s.cell c
    let n := nextCount s c
    let z := wE (nextWord s c) 0 6
    let v := x.zone z
    ∃ t, exec (.wait c .main) s = .next t ∧
      (t.cell c).eng.tagOps = x.eng.tagOps ++ [nextIssued s c] ∧ (t.cell c).eng.inflight = x.eng.inflight ∧
      (t.cell c).tags = x.tags ∧ (t.cell c).zones = x.zones ∧
      (t.cell c).mem = x.mem ∧ (t.cell c).check = x.check ∧ (t.cell c).seq.pc = x.seq.pc + 1 ∧
      (t.cell c).seq.ready = x.seq.cyc + 1 ∧
      (∀ k, k ≠ c.val → t.cell k = s.cell k) ∧ { t with cells := s.cells, suites := s.suites, bays := s.bays, free := s.free } = s ∧
      (x.eng.inflight = [] → x.eng.tagOps = [] →
        let y := (t.cell c).ownTags x.seq.cyc
        (y.zone z).landed = v.landed - BitVec.ofNat 24 (min n v.landed.toNat) ∧
        (y.zone z).provLanded = v.provLanded - BitVec.ofNat 24 (min (n - min n v.landed.toNat) v.provLanded.toNat) ∧
        (∀ g, g ∈ zonePanes v → x.tag g = .empty → y.tag g = if v.landed.toNat < n then .provisional else .full) ∧
        (∀ g, (g ∉ zonePanes v ∨ x.tag g ≠ .empty) → y.tag g = x.tag g) ∧
        (∀ k, k ≠ z → y.zone k = x.zone k) ∧ y.mem = x.mem ∧ y.check = x.check ∧ y.seq = (t.cell c).seq)

/-- O7. When the main context may issue and the next instruction is a SEAL (or RELEASE) that meets no fault, exec answers a next state
in which the next address is one on, nothing but this cell and its bay's sampling has changed, and the opcode acts on the tags
of its issue cycle. With nothing in flight, and no opcode that acts on tags issued in this cycle before it, the cycle's tag
events (R114), on the cell as it then is, give each pane of its range the tag that Table 3.2 gives for its old tag (where the
table gives none, the old tag); every other pane keeps its tag, and scratchpad data, check bits and zones are unchanged. (R116,
R112, R114) -/
def Obligations.SealAndReleaseFollowTheTagTable : Prop :=
  ∀ (c : CellId) (s : State),
    let x := s.cell c
    let w := nextWord s c
    let ps := (opcodePanes w (nextCount s c)).1
    let frame := fun (t : State) => (t.cell c).eng.tagOps = x.eng.tagOps ++ [nextIssued s c] ∧
      (t.cell c).eng.inflight = x.eng.inflight ∧ (t.cell c).tags = x.tags ∧ (t.cell c).zones = x.zones ∧ (t.cell c).mem = x.mem ∧
      (t.cell c).check = x.check ∧ (t.cell c).seq.pc = x.seq.pc + 1 ∧ (t.cell c).seq.ready = x.seq.cyc + 1 ∧
      (∀ k, k ≠ c.val → t.cell k = s.cell k) ∧ { t with cells := s.cells, suites := s.suites, bays := s.bays, free := s.free } = s
    let after := fun (t : State) (rule : Nat → Option Tag) => x.eng.inflight = [] → x.eng.tagOps = [] →
      let y := (t.cell c).ownTags x.seq.cyc
      (∀ g, y.tag g = if g ∈ ps then (rule g).getD (x.tag g) else x.tag g) ∧ y.mem = x.mem ∧ y.check = x.check ∧ y.zones = x.zones
    (mayIssue s c 0x05 → ∃ t, exec (.seal c .main) s = .next t ∧ frame t ∧
      after t (fun g => sealTag (x.tag g) (nextProv s c) false (x.inZone g))) ∧
    (mayIssue s c 0x06 → ∃ t, exec (.release c .main) s = .next t ∧ frame t ∧
      after t (fun g => releaseTag (x.tag g) (nextProv s c)))

/-- O8. When the main context may issue and the next instruction is a DRYDOWN, exec answers a next state in which the cell has dried
down, its watchdog is stopped, and its suite counts one more dried cell and is DRYING; for a HALT the cell is HALTED, and in a
final section no suite is told of an error. In both, the main context may issue no longer, and scratchpad data, check bits,
tags, zones, engines and every other cell are as they were; with DRYDOWN, nothing outside the cell but its suite's feeder
changes. (R60, R293, R583) -/
def Obligations.DrydownAndHaltEndIssue : Prop :=
  ∀ (c : CellId) (s : State),
    let x := s.cell c
    (mayIssue s c 0x08 → ∃ t, exec (.drydown c .main) s = .next t ∧ (t.cell c).seq.dried = true ∧
      (t.cell c).obs.wdRunning = false ∧ mainReady t (t.cell c) = false ∧
      (∀ i, cellSuite x = some i → (t.suite i).feeder.dried = (s.suite i).feeder.dried + 1 ∧ (t.suite i).feeder.phase = 1) ∧
      (t.cell c).mem = x.mem ∧ (t.cell c).check = x.check ∧ (t.cell c).tags = x.tags ∧ (t.cell c).zones = x.zones ∧
      (t.cell c).eng = x.eng ∧ (t.cell c).seq.pc = x.seq.pc + 1 ∧ (t.cell c).state = x.state ∧
      (∀ k, k ≠ c.val → t.cell k = s.cell k) ∧ { t with cells := s.cells, suites := s.suites } = s) ∧
    (mayIssue s c 0x09 → ∃ t, exec (.halt c .main) s = .next t ∧ (t.cell c).state = .halted ∧
      mainReady t (t.cell c) = false ∧
      (∀ i sec, cellSuite x = some i → (s.suite i).sections[(s.suite i).feeder.current]? = some sec → sec.final = true →
        (t.cell c).obs.wdRunning = false ∧ t.errLog = s.errLog ∧ (t.suite i).recov = (s.suite i).recov) ∧
      (t.cell c).mem = x.mem ∧ (t.cell c).check = x.check ∧ (t.cell c).tags = x.tags ∧ (t.cell c).zones = x.zones ∧
      (t.cell c).eng = x.eng ∧ (∀ k, k ≠ c.val → t.cell k = s.cell k))

/-- O9. For every cell instruction: when the running handler may issue (an OPEN slot whose octant mask and window admit the
instruction), its next instruction has the command's opcode and meets no fault, exec answers a next state in which the handler
is one instruction further (or has ended, on HALT); an engine instruction stands last in its engine's queue, a SEAL or RELEASE
acts on the tags of its issue cycle; the main context's next address, loops, VL and MODE, the scratchpad, the tags, the zones
and every other cell are unchanged. (R80, R81, R82, R391) -/
def Obligations.HandlerInstructionIssuesInAnOpenSlot : Prop :=
  ∀ (i : Instr) (op : Nat) (c : CellId) (s : State) (h : Handler),
    (opcodeOf i = some (op, c, .handler) ∨
      ∃ k, zctlOf i = some (k, c, .handler) ∧ op = 0x9D ∧ wE ((s.cell c).instr h.pc) 8 3 = k) →
    mayIssueHandler s c op h →
    let x := s.cell c
    let k := handlerIssued s c h
    ∃ t, exec i s = .next t ∧
      (t.cell c).seq.handler = (if op = 9 then none else
        some { h with pc := h.pc + 1, issued := h.issued + 1, ready := x.seq.cyc + issueCycles k.word k.n }) ∧
      (∀ e, (opInfo k.word).bind (·.unit) = some e → (t.cell c).eng.queue e = x.eng.queue e ++ [k]) ∧
      (t.cell c).eng.tagOps = (if op = 5 ∨ op = 6 then x.eng.tagOps ++ [k] else x.eng.tagOps) ∧ (t.cell c).tags = x.tags ∧
      (t.cell c).seq.pc = x.seq.pc ∧ (t.cell c).seq.loops = x.seq.loops ∧ (t.cell c).seq.vl = x.seq.vl ∧
      (t.cell c).seq.mode = x.seq.mode ∧ (t.cell c).seq.ready = x.seq.ready ∧
      (t.cell c).mem = x.mem ∧ (t.cell c).check = x.check ∧ (t.cell c).zones = x.zones ∧
      (∀ j, j ≠ c.val → t.cell j = s.cell j) ∧ { t with cells := s.cells, bays := s.bays, free := s.free } = s

/-- O10. When the main context may issue and the word at its next address has a reserved or unassigned opcode, any issue command for that
cell takes the fault: the cell is FAULTED, FAULT_INFO is VALID with CAUSE 4, DETAIL 0x01, the opcode, the instruction's address,
its loop counters and depth; no later main-context instruction issues; scratchpad and tags are unchanged and every other cell is
as it was. Taking a fault in a cell of suite i that is not FAULTED yet: the device error log gains one record and the suite's
error queue the same, VF vector 2 is raised (its message sent when the link is up, or its pending bit set when it is masked),
and the suite's recovery is asked for when its section is recoverable and no recovery runs, or the suite is marked for a suite-
fatal stop when it is not. A cell that is FAULTED already is unchanged by a further fault. (R88, R89, R94, R95, R552, R553,
R554, R557) -/
def Obligations.IllegalOpcodeFaultsTheCellAndIsReported : Prop :=
  (∀ (i : Instr) (op : Nat) (c : CellId) (s : State),
      opcodeOf i = some (op, c, .main) →
      let x := s.cell c
      (s.runningSuite x).isSome = true → x.seq.ready ≤ x.seq.cyc → mainReady s x = true → s.faultsNow c = false → x.parity = none →
      x.seq.pc ≤ 511 → x.instrBad x.seq.pc = none → opInfo (nextWord s c) = none →
      ∃ t, exec i s = .next t ∧ (t.cell c).state = .faulted ∧ (t.cell c).fault.valid = true ∧ (t.cell c).fault.cause = 4 ∧
        (t.cell c).fault.detail = 1 ∧ (t.cell c).fault.exec = false ∧ (t.cell c).fault.handler = false ∧
        (t.cell c).fault.opcode = BitVec.ofNat 8 (wOp (nextWord s c)) ∧ (t.cell c).fault.pc = BitVec.ofNat 9 x.seq.pc ∧
        (t.cell c).fault.depth = BitVec.ofNat 3 x.seq.loops.length ∧ (t.cell c).fault.mode = x.seq.mode ∧
        (t.cell c).fault.beat = BitVec.ofNat 32 (x.seq.schedCycle / 16) ∧ (t.cell c).fault.cycle = BitVec.ofNat 4 (x.seq.schedCycle % 16) ∧
        mainReady t (t.cell c) = false ∧ (t.cell c).mem = x.mem ∧ (t.cell c).tags = x.tags ∧
        (∀ k, k ≠ c.val → t.cell k = s.cell k)) ∧
  (∀ (s : State) (c cause detail addr : Nat) (ex : Bool) (f : FaultAt) (i : Nat),
      ((s.cell c).state = .faulted → s.takeFault c cause detail addr ex f = s) ∧
      ((s.cell c).state ≠ .faulted → cellSuite (s.cell c) = some i →
        let t := s.takeFault c cause detail addr ex f
        t.errLog.records.length = s.errLog.records.length + 1 ∧ (t.suite i).errq.next = (s.suite i).errq.next + 1 ∧
        raised s t (vfOf i) 2 ∧
        (sectRecov (s.suite i) = true → (s.suite i).recov.active = false → (s.suite i).recov.requested = false → (s.suite i).recov.redo = false →
          (t.suite i).recov.requested = true ∧ (t.suite i).recov.fatal = (s.suite i).recov.fatal ∧
          (t.suite i).recov.fault = some (c, cause, detail, f.pc)) ∧
        (sectRecov (s.suite i) = false → (t.suite i).recov.fatal = true)))

/-- O11. In a cell whose schedule time passes: when the oldest queued instruction of the matrix, vector, reduction, move/send or counter
unit may start in the present cycle t (it issued before, the unit is free, the interlocks of Table 5.6 are met, its own unit's
writes to its sources are done, all its chained strips are promised and the first has come), the start command answers a next
state in which the queue has lost its head, the other queues are as they were, and the instruction is in flight from t on with
the reads, writes, sends, takes and last cycles of the plan that its unit's rules give it; the unit is busy for its occupancy
(Tables 5.7, 6.6, 10.1). Scratchpad data, check bits, tags, the sequencer and every other cell are unchanged. For the move/send
unit the statement names the opcodes that need no room in a buffer. (R207, R246, R248, R361, R363, R585) -/
def Obligations.EnginesStartTheHeadOfTheirQueue : Prop :=
  ∀ (c : CellId) (s : State) (i : Issued) (r : List Issued),
    let x := s.cell c
    let t := x.seq.cyc
    let now := fun (e : Engine) (free : Nat) => (∃ k, chainStart x e i = some k ∧
      max (max (i.cycle + 1) free) (max (ownWrites x e i) k) ≤ t) ∧
      ∀ p, i.chainedIn = some p → chainNeed (flightOf i e t) ≤ (chainOf (x.eng.pathTo e) p).length
    let started := fun (e : Engine) (u : State) => (u.cell c).eng.queue e = r ∧
      (∀ g, g ≠ e → (u.cell c).eng.queue g = x.eng.queue g) ∧
      (∃ f, (u.cell c).eng.inflight = x.eng.inflight ++ [f] ∧ f.instr = i ∧ f.engine = e ∧ f.start = t ∧ f.cut = none ∧
        let p := planOf x s.part.toNat f
        f.reads = p.reads ∧ f.slots = p.slots ∧ f.sends = p.sends ∧ f.takes = p.takes ∧ f.lastRead = p.lastRead ∧ f.done = p.done) ∧
      (u.cell c).mem = x.mem ∧ (u.cell c).check = x.check ∧ (u.cell c).tags = x.tags ∧ (u.cell c).seq = x.seq ∧
      (∀ k, k ≠ c.val → u.cell k = s.cell k)
    (s.runningSuite x).isSome = true → x.clocked = true →
    (∀ g ∈ x.eng.inflight, g.instr.seqNo ≠ i.seqNo ∧ g.takes.contains t = false) →
    (x.eng.matrixQ = i :: r → max (i.cycle + 1) (matStart x.mat i) ≤ t →
      ∃ u, exec (.matrixStart c) s = .next u ∧ started .matrix u ∧
        (u.cell c).mat = matTimes { x.mat with started := trackMatrix x.mat.started i.word i.n } i t) ∧
    (x.eng.vectorQ = i :: r → now .vector x.eng.vectorFree →
      ∃ u, exec (.vectorStart c) s = .next u ∧ started .vector u ∧ (u.cell c).mat = x.mat ∧
        (u.cell c).eng.vectorFree = t + cdiv i.n (vecStep i.word) * vecPace (wOp i.word)) ∧
    (x.eng.reductionQ = i :: r → now .reduction x.eng.reductionFree →
      ∃ u, exec (.reductionStart c) s = .next u ∧ started .reduction u ∧ (u.cell c).mat = x.mat ∧
        (u.cell c).eng.reductionFree = t + redSteps i.word i.n) ∧
    (x.eng.moveQ = i :: r → wOp i.word ∈ [0x90, 0x91, 0x92, 0x93, 0x99, 0x9A] →
      now .moveSend x.eng.moveFree →
      ∃ u, exec (.moveSendStart c) s = .next u ∧ started .moveSend u ∧ (u.cell c).mat = x.mat ∧
        (u.cell c).eng.moveFree = t + moveOcc i.word i.n i.chainedIn.isSome) ∧
    (x.eng.counterQ = i :: r → now .counter x.eng.counterFree →
      ∃ u, exec (.counterUnitStart c) s = .next u ∧ started .counter u ∧ (u.cell c).mat = x.mat ∧
        (u.cell c).eng.counterFree = t + 1)

/-- O12. In a cell in which one instruction f is in flight: in the cycle of a strip read, what f has read at that place is the bytes of
the strip's words as the code reads them (a corrected word as corrected). In the cycle in which a strip write is stored (the
second of a merging write), for a write of whole words that meets no pending RELEASE, when no other access of f is made in that
cycle: the strip's bytes are those of the plan's result at the write's place, every other word keeps its data and check bits,
the tags are as they were, and no fault is found. (R58, R69, R106, R136, R139) -/
def Obligations.StartedInstructionReadsAndWrites : Prop :=
  ∀ (s : State) (c : Nat) (f : InFlight) (d : Found),
    let x := s.cell c
    x.eng.inflight = [f] → f.cut = none → d.s = s →
    (∀ (k t : Nat) (as : List Nat), f.reads[k]? = some (t, as) → (∀ j, j ≠ k → (f.reads[j]?).map (·.1) ≠ some t) →
      let r := d.reads c t f
      ∃ g, (r.s.cell c).eng.inflight = [g] ∧ sget [] g.got k = as.map (x.readWords (wordsOf as)).byte ∧
        (∀ j, j ≠ k → sget [] g.got j = sget [] f.got j) ∧ (r.s.cell c).mem = x.mem ∧ (r.s.cell c).tags = x.tags) ∧
    (∀ w, f.slots = [w] → mergingWords w = [] → w.addrs.Nodup → firstPane w.addrs (marked x.pendRelease f.instr.seqNo) = none →
      let bs := (planOf x s.part.toNat f).bytes f.data
      let r := d.writes c w.cycle f
      r.faults = d.faults ∧
      (∀ k a, w.addrs[k]? = some a → mread (r.s.cell c).mem a = nth bs k 0) ∧
      (∀ a, (∀ b ∈ w.addrs, b / 4 ≠ a / 4) → mread (r.s.cell c).mem a = mread x.mem a ∧
        mread (r.s.cell c).check (a / 4) = mread x.check (a / 4)) ∧
      (r.s.cell c).tags = x.tags ∧ (∀ k, k ≠ c → r.s.cell k = s.cell k))

/-- O13. When an instruction f of an engine is in flight and not cut: INSTRUCTION_COMPLETE answers a next state at the end of f's last
cycle. In the cycle of its last read its RELEASE acts: each source pane that is no destination has the tag that Table 3.2 gives
for its old tag, and its pending RELEASE marks are gone; in its last cycle its SEAL acts: each destination pane has the tag that
Table 3.2 gives for its old tag, and its pending SEAL marks are gone; every other pane keeps its tag, other instructions' marks
stand, and scratchpad data, check bits and zones are unchanged. When that cycle has passed, it is in flight no longer, and every
instruction that still has an access to make is. (R58, R69, R116) -/
def Obligations.CompletionSealsAndClearsMarks : Prop :=
  ∀ (s : State) (c : CellId) (e : Engine) (f : InFlight),
    let x := s.cell c
    let i := f.instr
    let t := x.seq.cyc
    f ∈ x.eng.inflight → f.cut = none → i.dsts.Nodup → i.srcs.Nodup →
    (∀ u, x.eng.inflight.find? (fun g => g.engine == e) = some f → s.runningSuite x = some u → x.clocked = true → t ≤ f.done →
      ∃ r, exec (.instructionComplete c e) s = .next r ∧
        r.now = (s.now / cycleLen u.freq.current + (f.done + 1 - t)) * cycleLen u.freq.current) ∧
    (let y := x.tagFlags t f
     (∀ g, y.tag g =
        if f.done = t ∧ wSeal i.word = true ∧ g ∈ i.dsts then
          (sealTag (x.tag g) i.prov (i.srcs.contains g) (x.inZone g)).getD (x.tag g)
        else if f.lastRead = t ∧ wRelease i.word = true ∧ g ∈ i.srcs ∧ g ∉ i.dsts then (releaseTag (x.tag g) i.prov).getD (x.tag g)
        else x.tag g) ∧
     y.pendSeal = (if f.done = t then x.pendSeal.filter (fun m => m.2 != i.seqNo) else x.pendSeal) ∧
     y.pendRelease = (if f.lastRead = t then x.pendRelease.filter (fun m => m.2 != i.seqNo) else x.pendRelease) ∧
     y.mem = x.mem ∧ y.check = x.check ∧ y.zones = x.zones) ∧
    (let r := s.retire c
     (∀ g, g ∈ (r.cell c).eng.inflight ↔ g ∈ x.eng.inflight ∧ t ≤ g.done) ∧
     (r.cell c).mem = x.mem ∧ (r.cell c).tags = x.tags ∧ (∀ k, k ≠ c.val → r.cell k = s.cell k))

/-- O14. For a scratchpad in canonical form, a cell with words that read without an uncorrectable error, and bytes to write with distinct
addresses: after the write each written address reads the byte written; every word that holds a written byte reads as a good
code word; every word that holds none keeps its data and check bits; and the canonical form of data and check bits is kept.
(R106, R135) -/
def Obligations.BytesWrittenAreReadBack : Prop :=
  ∀ (x : Cell) (bs : List (Nat × Byte)), Memory.wf x.mem = true → Memory.wf x.check = true →
    (bs.map (·.1)).Nodup → (∀ e ∈ bs, x.readWord (e.1 / 4 * 4) ≠ .uncorrectable) →
    let y := x.putBytes bs
    (∀ e ∈ bs, mread y.mem e.1 = e.2) ∧
    (∀ e ∈ bs, ∃ d, y.readWord (e.1 / 4 * 4) = .good d) ∧
    (∀ a, (∀ e ∈ bs, e.1 / 4 ≠ a / 4) → mread y.mem a = mread x.mem a ∧ mread y.check (a / 4) = mread x.check (a / 4)) ∧
    Memory.wf y.mem = true ∧ Memory.wf y.check = true ∧ y.tags = x.tags ∧ y.zones = x.zones

/-- O15. For every data word: stored with its check bits it reads good; with any one of its 32 data bits or 7 check bits flipped it reads
corrected, with the data that was stored; with any two of them flipped it reads uncorrectable. (The check byte is that of R135.)
(R135, R136) -/
def Obligations.SingleErrorCorrectedDoubleErrorFound : Prop :=
  ∀ d : W32,
    let code : BitVec 39 := (checkOf d).setWidth 7 ++ d
    let read := fun (v : BitVec 39) => decodeWord (v.setWidth 32) (((v >>> 32).setWidth 7).setWidth 8)
    read code = .good d ∧
    (∀ i : Fin 39, read (code ^^^ (1#39 <<< i.val)) = .corrected d) ∧
    (∀ i j : Fin 39, i ≠ j → read (code ^^^ (1#39 <<< i.val) ^^^ (1#39 <<< j.val)) = .uncorrectable)

/-- O16. At the start of a move/send instruction in the present cycle with nothing in flight: a BARR starts while its cell's outbound
buffer holds fewer than 4 items, and waits, changing nothing, when it holds 4; a MSG by PATH 1 to another part waits likewise;
in the cycle after its start the BARR's command of its constant word, or that message with its stamped fields, stands last in
the outbound buffer. In a RUNNING cell a ZCTL commit or void makes the request of its zone that LZ_CFG makes, due in cycle 0 of
the next beat; a ZCTL mode operation requests the mode; a ZCTL grant to a zone in normal service changes nothing. In all, the
scratchpad and the tags are unchanged. (R361, R364, R371, R377, R400) -/
def Obligations.MessageInstructionsUseTheirBuffers : Prop :=
  ∀ (c : CellId) (s : State) (i : Issued) (r : List Issued),
    let x := s.cell c
    let t := x.seq.cyc
    let z := wE i.word 0 6
    let off := (x.trk.outbound.length < 4 : Prop)
    let m := msgOf s c ((List.range 32).map (fun k => (x.readWords ((List.range 8).map (fun j => 4 * j + oAddr (wS1 i.word)))).byte (k + oAddr (wS1 i.word))))
    let starts := fun (u : State) => exec (.moveSendStart c) s = .next u ∧ (u.cell c).eng.moveQ = r ∧
      (∃ f, (u.cell c).eng.inflight = [f] ∧ f.instr = i ∧ f.start = t ∧ f.done = (planOf x s.part.toNat f).done) ∧
      (u.cell c).mem = x.mem ∧ (u.cell c).tags = x.tags ∧ (u.cell c).trk.outbound = x.trk.outbound
    (s.runningSuite x).isSome = true → x.clocked = true →
    x.eng.moveQ = i :: r → i.chainedIn = none → x.eng.inflight = [] → max (i.cycle + 1) x.eng.moveFree ≤ t →
    (wOp i.word = 0x9C → off → ∃ u, starts u) ∧
    (wOp i.word = 0x9C → ¬ off → exec (.moveSendStart c) s = .next s) ∧
    (wOp i.word = 0x98 → wE i.word 3 1 = 1 → mDstPart m ≠ s.part.toNat → tokenTarget s m = none →
      (off → ∃ u, starts u) ∧ (¬ off → exec (.moveSendStart c) s = .next s)) ∧
    (∀ f : InFlight, f.engine = .moveSend → f.instr = i → f.sends = [] → f.cut = none → f.done = t →
      (wOp i.word = 0x9C → ((s.sendDue c t f).cell c).trk.outbound =
        x.trk.outbound ++ [.bar (barrCmd (nth i.consts 0 0)).1 (barrCmd (nth i.consts 0 0)).2]) ∧
      (wOp i.word = 0x98 → wE i.word 3 1 = 1 → byRouter s c (msgOf s c f.data.flatten) = false →
        ((s.sendDue c t f).cell c).trk.outbound = x.trk.outbound ++ [.msg (msgOf s c f.data.flatten)])) ∧
    (wOp i.word = 0x9D → x.state = .running →
      (wE i.word 8 3 = 2 ∨ wE i.word 8 3 = 3 → ∃ u, starts u ∧
        ((u.cell c).zone z).notices = (x.zone z).notices ++ [⟨wE i.word 8 3 == 2, false, 16 * x.nextBeat⟩]) ∧
      (wE i.word 8 3 = 4 ∨ wE i.word 8 3 = 5 → ∃ u, starts u ∧
        ((u.cell c).zone z).modeReq = some (wE i.word 8 3 == 5, x.nextBeat)) ∧
      (wE i.word 8 3 = 1 → (x.zone z).mode = false → ∃ u, starts u ∧ (u.cell c).zones = x.zones))

/-- O17. In a RUNNING cell of a RUNNING suite that is not held and has not dried down, in or after cycle 8 of the beat before its next
unchecked beat: the check point answers a next state in which one more beat is checked and the late checks of that beat stand
beside the earlier ones; scratchpad, tags, zones, engines and the next address are unchanged, and so is everything outside the
cell. In a WAITING_START cell of a RUNNING suite, in cycle 8 of a beat, it checks beat 0, and the cell is start-ready exactly
when no check is late. In a held cell with a late check, the late-check command answers a next state in which every check still
late was late before; the cell's next address, scratchpad, tags, zones and engines are unchanged, and so is everything outside
the cell. A cell that is not held is left as it is. (R63, R64, R309, R66, R67) -/
def Obligations.CheckPointChecksTheNextBeat : Prop :=
  (∀ (c : CellId) (s : State),
      let x := s.cell c
      (x.state = .running → x.seq.dried = false → x.held = false → (s.runningSuite x).isSome = true → 16 * (x.seq.checked - 1) + 8 ≤ x.seq.cyc →
        ∃ t, exec (.issueCheckPoint c) s = .next t ∧ (t.cell c).seq.checked = x.seq.checked + 1 ∧
          (t.cell c).seq.late = x.seq.late ++ (runAhead x x.seq.checked).late ∧
          (t.cell c).seq.pc = x.seq.pc ∧ (t.cell c).mem = x.mem ∧ (t.cell c).tags = x.tags ∧ (t.cell c).zones = x.zones ∧
          (t.cell c).eng = x.eng ∧ (∀ k, k ≠ c.val → t.cell k = s.cell k) ∧ { t with cells := s.cells } = s) ∧
      (∀ u, x.state = .waitingStart → s.runningSuite x = some u → s.now / cycleLen u.freq.current % 16 = 8 →
        ∃ t, exec (.issueCheckPoint c) s = .next t ∧ (t.cell c).startReady = (runAhead x 0).late.isEmpty ∧
          (t.cell c).seq.checked = 1 ∧ (t.cell c).mem = x.mem ∧ (t.cell c).tags = x.tags ∧
          (∀ k, k ≠ c.val → t.cell k = s.cell k) ∧ { t with cells := s.cells } = s)) ∧
  (∀ (c : CellId) (s : State),
      let x := s.cell c
      (x.held = true → x.seq.late ≠ [] →
        ∃ t, exec (.lateCheckPass c) s = .next t ∧ (∀ l ∈ (t.cell c).seq.late, ∃ k ∈ x.seq.late, k.cycle = l.cycle) ∧
          (t.cell c).seq.pc = x.seq.pc ∧ (t.cell c).mem = x.mem ∧ (t.cell c).tags = x.tags ∧ (t.cell c).zones = x.zones ∧
          (t.cell c).eng = x.eng ∧ (∀ k, k ≠ c.val → t.cell k = s.cell k) ∧ { t with cells := s.cells } = s) ∧
      (x.held = false → exec (.lateCheckPass c) s = .next s))

/-- O18. In a RUNNING cell of a RUNNING suite that is not held and runs no handler, in a cycle after that of its oldest dispatch entry,
which names a queue with good parity and a message that did not come in this very cycle, and a VALID handler entry: dispatch
answers a next state in which a handler runs from the entry's start address with its VL and MAX_LEN, having issued nothing,
ready 4 cycles after the arrival or after the last handler issue, whichever is later; the handler message register holds the
message popped, the queue has one message less and its HEAD is one slot on; scratchpad and tags are unchanged. (R79, R390, R391) -/
def Obligations.HandlerDispatchStartsTheOldestEntry : Prop :=
  ∀ (c : CellId) (s : State) (q at_ w : Nat) (rest : List (Nat × Nat × Nat)) (m : W256),
    let x := s.cell c
    let h := x.qHandler q
    x.held = false → x.state = .running → (s.runningSuite x).isSome = true → x.seq.handler = none →
    x.seq.dispatch = (q, at_, w) :: rest → at_ + 1 ≤ x.seq.cyc → x.qBad q = none →
    x.parityBad (0xE00 + 2 * h) = false → x.parityBad (0xE00 + 2 * h + 1) = false → x.hWord h 0 % 2 = 1 →
    (if (x.que.qlive q).fresh.1 = x.obs.wall then (x.que.qlive q).fresh.2 else 0) < (x.que.qlive q).count → x.que.slot (x.que.qlive q).head = some m →
    ∃ t, exec (.handlerDispatch c) s = .next t ∧
      (t.cell c).seq.handler = some { pc := nbits (x.hWord h 0) 8 9, issued := 0, maxLen := nbits (x.hWord h 0) 24 8
                                      vl := x.hWord h 1 % 2 ^ 16, ready := max at_ (x.seq.lastHandlerIssue.getD 0) + 4, queue := q } ∧
      (t.cell c).seq.hmsg = m ∧ ((t.cell c).que.qlive q).count = (x.que.qlive q).count - 1 ∧
      ((t.cell c).que.qlive q).head = x.qNext q (x.que.qlive q).head ∧
      (t.cell c).mem = x.mem ∧ (t.cell c).tags = x.tags ∧ (t.cell c).seq.pc = x.seq.pc ∧
      (∀ k, k ≠ c.val → t.cell k = s.cell k)

/-- O19. An access of management or of a scrubber to an octant: in a cell of a RUNNING suite, or while panes are being cleared, or behind
another one, it joins the accesses that wait, last, and changes nothing else; in a cell of no RUNNING suite whose octant made no
access in this cycle it takes the octant at once. When an access takes its octant: a scrub read of a period with reads left
counts one more read, and when every word of the strip is good changes no data, tag or log; a write-back stores its corrected
word with good check bits and is no longer queued; a management read of a good word returns it; a management write of a whole
word stores it, and one of no byte changes nothing; the words around a written word are unchanged. At the end of the present
scrub interval (781,250 ticks each, 64 to a period; time has passed to its end) in a cell that is then RUNNING in suite j: when
the octant with the fewest reads of the period is d short of 64 x (i + 1), i being the interval's place in its period, the cell
raises SCRUB from its next check point on for min(4, ceil(d / 16)) beats and the suite's hold has ORIGIN 4; when no octant is
short its signal is left as it was. The cell has taken this interval's end; scratchpad and tags are as they were at that moment.
In a period that has begun since, an octant has made no read. (R110, R137, R138, R139, R140, R141) -/
def Obligations.ScrubbersReadWriteBackAndSignal : Prop :=
  (∀ (c : CellId) (o : Fin 8) (s : State),
      let x := s.cell c
      let takes := fun (i : Instr) (a : SpadAccess) =>
        (((s.runningSuite x).isSome = true ∨ x.cfg.clearing = true ∨ x.accesses ≠ []) →
          exec i s = .next (s.setCell c { x with accesses := x.accesses ++ [a] })) ∧
        (s.runningSuite x = none → x.cfg.clearing = false → x.accesses = [] → sget 0 x.octUsed a.octant ≠ s.wallCycle c + 1 →
          exec i s = .next (s.serveAccess c a))
      (s.powered c = true → (sget {} x.scrub o.val).made (scrubPeriod s.tick) < 4096 → takes (.scrubRead c o) (.scrub o.val)) ∧
      ((sget {} x.scrub o.val).made (scrubPeriod s.tick) < 4096 →
        ((scrubWords o.val ((sget {} x.scrub o.val).made (scrubPeriod s.tick))).all (fun a => match x.readWord a with
          | .good _ => true
          | _ => false)) = true →
        let t := s.serveAccess c (.scrub o.val)
        (sget {} (t.cell c).scrub o.val).made (scrubPeriod s.tick) = (sget {} x.scrub o.val).made (scrubPeriod s.tick) + 1 ∧
          (t.cell c).mem = x.mem ∧ (t.cell c).check = x.check ∧ (t.cell c).tags = x.tags ∧ t.errLog = s.errLog) ∧
      (∀ a d r, (sget {} x.scrub o.val).backs = (a, d) :: r →
        takes (.correctionWriteBack c o) (.writeBack o.val) ∧
        (a % 4 = 0 → Memory.wf x.mem = true → Memory.wf x.check = true →
          let t := s.serveAccess c (.writeBack o.val)
          (t.cell c).readWord a = .good d ∧ (sget {} (t.cell c).scrub o.val).backs = r.filter (fun e => e.1 != a) ∧
          (t.cell c).tags = x.tags ∧ (∀ b, b / 4 ≠ a / 4 → mread (t.cell c).mem b = mread x.mem b))) ∧
      (∀ (w : BitVec 20), takes (.mgmtScratchpadRead c w) (.read w.toNat 1) ∧
        (∀ v, x.readWord (4 * w.toNat) = .good v →
          let t := s.serveAccess c (.read w.toNat 1)
          t.out.readData = v.setWidth 64 ∧ (t.cell c).mem = x.mem ∧ (t.cell c).tags = x.tags)) ∧
      (∀ (w : BitVec 20) (v : W32), takes (.mgmtScratchpadWrite c w v 15) (.write (enabledBytes (4 * w.toNat) 4 (v.setWidth 64) 15)) ∧
        (Memory.wf x.mem = true → Memory.wf x.check = true →
          let t := s.serveAccess c (.write (enabledBytes (4 * w.toNat) 4 (v.setWidth 64) 15))
          (t.cell c).readWord (4 * w.toNat) = .good v ∧ (t.cell c).tags = x.tags ∧
          (∀ b, b / 4 ≠ w.toNat → mread (t.cell c).mem b = mread x.mem b)) ∧
        exec (.mgmtScratchpadWrite c w v 0) s = .next s)) ∧
  (∀ (c : CellId) (s : State) (j : Nat),
      let k0 := s.tick.toNat / 781250
      let k := if s.tick.toNat % 781250 = 0 ∧ (s.cell c).interval < k0 then k0 else k0 + 1
      let s1 := s.waitUntil (s.now + (781250 * k - s.tick.toNat) * 600 - s.now % 600)
      let x := s1.cell c
      let d := (List.range 8).foldl (fun m o => max m (64 * ((k - 1) % 64 + 1) - (sget {} x.scrub o).made ((k - 1) / 64))) 0
      (x.state = .running → cellSuite x = some j →
        ∃ t, exec (.scrubIntervalEnd c) s = .next t ∧
          (t.cell c).scrubLate = (if d = 0 then x.scrubLate else (s1.nextCheckBeat c, min 4 (cdiv d 16))) ∧
          (d ≠ 0 → (t.suite j).hold.origin = 4) ∧ (t.cell c).interval = k ∧ (t.cell c).mem = x.mem ∧ (t.cell c).tags = x.tags) ∧
      (∀ (q : Scrub) (p : Nat), q.period < p → q.made p = 0))

/-- O20. For a valid zone with one notice that waits: ZONE_COMMIT (of a commit) and ZONE_VOID (of a void) answer a next state at the end
of the schedule cycle in which the notice is due, in a cell of a RUNNING suite whose schedule time passes. In a cell of no
RUNNING suite, the only one that has been written, with no access waiting, they answer the next state at the moment the notice
is due, in which it has taken effect. A notice takes effect so: a commit makes LANDED LANDED + PROV_LANDED, saturating at
0xFFFFFF, PROV_LANDED 0, PGEN one on, and the zone's PROVISIONAL panes FULL; a void leaves LANDED, sets PROV_LANDED to 0,
advances PGEN and makes the PROVISIONAL panes EMPTY; the notice is gone, every other pane keeps its tag, every other zone and
the memory are unchanged. Where a void and a commit are due together, the void alone takes effect. For a commit or void notice
that a builder has sent: at a zone of a RUNNING cell whose epoch and section are the notice's, the notice waits there for its
beat (the next one when its own has passed); at a read context with work in the open section it waits for its beat where cycle 0
of that is still to come, else for the suite's next; at a cell of another epoch or section it changes no zone and is logged. In
all of them it is no longer on its way, and no scratchpad changes. (R128, R129, R130, R354, R425) -/
def Obligations.NoticesWaitForTheirBeatAndMoveTheZone : Prop :=
  (∀ (c : CellId) (z : ZoneId) (s : State) (n : ZoneNotice),
      let x := s.cell c
      let v := x.zone z
      let cmd : Instr := if n.commit then .zoneCommit c z else .zoneVoid c z
      let moved := fun (commit : Bool) (t : State) => (t.cell c).mem = x.mem ∧ (t.cell c).check = x.check ∧
        (∀ k, k ≠ z.val → (t.cell c).zone k = x.zone k) ∧
        (∀ g, (g ∉ zonePanes v ∨ x.tag g ≠ .provisional) → (t.cell c).tag g = x.tag g) ∧
        (∀ g ∈ zonePanes v, x.tag g = .provisional → (t.cell c).tag g = if commit then .full else .empty) ∧
        ((t.cell c).zone z).landed = (if commit then BitVec.ofNat 24 (min (v.landed.toNat + v.provLanded.toNat) 0xFFFFFF) else v.landed) ∧
        ((t.cell c).zone z).provLanded = 0 ∧ ((t.cell c).zone z).pgen = v.pgen + 1 ∧ ((t.cell c).zone z).notices = []
      v.valid = true →
      (v.notices = [n] → ∀ due : ZoneNotice → Bool, due n = true → moved n.commit (s.applyNotices c z due)) ∧
      (∀ m, v.notices = [n, m] → n.commit = true → m.commit = false → moved false (s.applyNotices c z (fun _ => true))) ∧
      (v.notices = [n] → n.off = false → ∀ u, s.runningSuite x = some u → x.clocked = true → x.seq.cyc ≤ n.due →
        ∃ t, exec cmd s = .next t ∧
          t.now = (s.now / cycleLen u.freq.current + (n.due + 1 - x.seq.cyc)) * cycleLen u.freq.current) ∧
      (v.notices = [n] → n.off = true → s.cells = [(c.val, x)] → s.runningSuite x = none → x.accesses = [] →
        (∀ k, k ≠ z.val → (x.zone k).notices = []) → s.now < n.due →
        ∃ t, exec cmd s = .next t ∧ t.now = n.due ∧ moved n.commit t)) ∧
  (∀ (s : State) (commit : Bool) (nb step : W32) (sect : W16) (i : Nat) (target : NoticeTarget),
      findBelow 32 (fun i => (s.suite i).sb.noticeList.any (fun n =>
        n.target == target && n.commit == commit && some nb == some n.beat && n.step == step && n.sect == sect)) = some i →
      (∀ c z, target = .zone c z → (s.cell c).epoch = step → (s.cell c).cfg.sect = sect → (s.cell c).state = .running →
        ∃ t, exec (.noticeArrival target commit (some nb) step sect) s = .next t ∧
          ((t.cell c).zone z).notices = ((s.cell c).zone z).notices ++
            [⟨commit, false, 16 * (if (s.cell c).seq.cyc ≤ 16 * nb.toNat then nb.toNat else (s.cell c).nextBeat)⟩] ∧
          (t.suite i).sb.noticeList = (s.suite i).sb.noticeList.erase ⟨target, commit, nb, step, sect⟩ ∧ (t.cell c).mem = (s.cell c).mem) ∧
      (∀ c z, target = .zone c z → ((s.cell c).epoch ≠ step ∨ (s.cell c).cfg.sect ≠ sect) →
        ∃ t, exec (.noticeArrival target commit (some nb) step sect) s = .next t ∧ t.cells = s.cells ∧ t.devLog.next = s.devLog.next + 1 ∧
          (t.suite i).sb.noticeList = (s.suite i).sb.noticeList.erase ⟨target, commit, nb, step, sect⟩) ∧
      (∀ x, target = .context x → (s.suite i).feeder.isOpen = true → (s.suite i).feeder.current = sect.toNat →
        (s.suite i).contexts.any (fun k => k.2.2 == x) = true → (s.stream x).active = true →
        ∃ t, exec (.noticeArrival target commit (some nb) step sect) s = .next t ∧
          suiteNextBeat s i nb.toNat ∈ (t.stream x).notices ∧ t.cells = s.cells ∧
          (t.suite i).sb.noticeList = (s.suite i).sb.noticeList.erase ⟨target, commit, nb, step, sect⟩))

/-- O21. Where the function does not answer on the bus, an access to LZ_CFG does nothing; where it does, the access takes place as the
next cycle of the cell's bay begins (log 91). Through the PF, then: in a RUNNING cell LZ_CFG.COMMIT (without VOID) and
LZ_CFG.VOID request a notice for the next beat, with the GRANT of the same write adding to CREDITS as a grant does; a GRANT to a
zone in credit mode adds to CREDITS, saturating, and to a zone in normal service changes nothing; in all, nothing else of the
zone, and no other zone, pane or byte, changes. ZONE_MODE_CHANGE answers a next state at the end of cycle 0 of the beat of a
mode change asked for, and in the zone events of that cycle the mode comes into force, with CREDITS 0 and no partner when it is
a new one. In a cell that is IDLE and not held a write sets VALID, OCTANT, PANE and COUNT; in a RUNNING cell it leaves them.
Through a VF the write is discarded and logged. (R131, R132, R133, R134) -/
def Obligations.ZoneRegisterActions : Prop :=
  ∀ (c : CellId) (z : ZoneId) (s : State),
    let s1 := s.freshIn (s.bayCycle (cellBay c))
    let x := s1.cell c
    let v := x.zone z
    let same := fun (t : State) => (t.cell c).mem = x.mem ∧ (t.cell c).tags = x.tags ∧ (∀ k, k ≠ z.val → (t.cell c).zone k = x.zone k) ∧
      (∀ k, k ≠ c.val → t.cell k = s1.cell k) ∧ { t with cells := s1.cells } = s1
    (∀ m b, ((s.cell c).zone z).modeReq = some (m, b) →
      (∀ u, s.runningSuite (s.cell c) = some u → (s.cell c).clocked = true → (s.cell c).seq.cyc ≤ 16 * b →
        ∃ t, exec (.zoneModeChange c z) s = .next t ∧
        t.now = (s.now / cycleLen u.freq.current + (16 * b + 1 - (s.cell c).seq.cyc)) * cycleLen u.freq.current) ∧
      (∀ k, 16 * b ≤ k →
        let t := s.zoneEvents c k
        ((t.cell c).zone z).mode = m ∧
        (m ≠ ((s.cell c).zone z).mode → ((t.cell c).zone z).credits = 0 ∧ ((t.cell c).zone z).partner = none) ∧
        ((t.cell c).zone z).modeReq = none)) ∧
    (∀ (f : HostFn) (w : W64) (g : W16), s.answers f = false → exec (.lzCfgCommit f c z w) s = .next s ∧
      exec (.lzCfgVoid f c z w) s = .next s ∧ exec (.lzCfgGrant f c z g) s = .next s ∧ exec (.lzCfgWrite f c z w) s = .next s) ∧
    (∀ (k : SuiteId) (w : W64), s.answers (.vf k) = true →
      exec (.lzCfgWrite (.vf k) c z w) s = .next (s1.logDiscard (some (.vf k)) (lzAddr c z))) ∧
    (s.answers .pf = true →
    (x.state = .running → ∀ rest : W64, rest.getLsbD 62 = false → ∃ t, exec (.lzCfgCommit .pf c z rest) s = .next t ∧ same t ∧
      (t.cell c).zone z = grantZone { v with notices := v.notices ++ [⟨true, false, 16 * x.nextBeat⟩] } (fld rest 46 16).toNat) ∧
    (x.state = .running → ∀ rest : W64, ∃ t, exec (.lzCfgVoid .pf c z rest) s = .next t ∧ same t ∧
      (t.cell c).zone z = grantZone { v with notices := v.notices ++ [⟨false, false, 16 * x.nextBeat⟩] } (fld rest 46 16).toNat) ∧
    (∀ g : W16, g ≠ 0 → ∃ t, exec (.lzCfgGrant .pf c z g) s = .next t ∧ same t ∧
      (t.cell c).zone z = (if v.mode then { v with credits := satAdd v.credits g.toNat } else v)) ∧
    (∀ w : W64, w.getLsbD 28 = true → x.held = false → x.state = .idle →
      ∃ t, exec (.lzCfgWrite .pf c z w) s = .next t ∧ ((t.cell c).zone z).valid = true ∧
        ((t.cell c).zone z).octant = fld w 15 3 ∧ ((t.cell c).zone z).pane = fld w 8 7 ∧ ((t.cell c).zone z).count = fld w 0 8 ∧
        (t.cell c).mem = x.mem ∧ (t.cell c).tags = x.tags) ∧
    (∀ w : W64, x.held = false → x.state = .idle →
      ∃ t, exec (.lzCfgWrite .pf c z w) s = .next t ∧ ((t.cell c).zone z).valid = w.getLsbD 28 ∧
        ((t.cell c).zone z).count = fld w 0 8 ∧ (∀ k, k ≠ z.val → (t.cell c).zone k = x.zone k)) ∧
    (∀ w : W64, x.state = .running → ∃ t, exec (.lzCfgWrite .pf c z w) s = .next t ∧ ((t.cell c).zone z).valid = v.valid ∧
        ((t.cell c).zone z).octant = v.octant ∧ ((t.cell c).zone z).pane = v.pane ∧ ((t.cell c).zone z).count = v.count))

/-- O22. At a beat boundary of a RUNNING suite: with HOLD sent, every cell that the hold lanes reach over OPEN borders and that is not
IDLE is held, a cell that was held stays so, the count of holds is one more and the run of held beats starts at 0; with RELEASE
sent in a hold, and no deferred check late on its recheck, none of those cells is held, HEAD is one on and the ring entry at the
old HEAD records the hold; with a check late, the hold goes on. A root that has sent neither leaves the state as it is. (R270,
R272, R274, R275, R281) -/
def Obligations.HoldBeginsAndEndsAtABoundary : Prop :=
  ∀ (sid : SuiteId) (s s1 : State), s.waitBoundary sid.val = some s1 →
    let h := (s1.suite sid.val).hold
    let reached := treeCells s1 sid.val
    ((s.suite sid.val).hold.sendHold = true →
      ∃ t, exec (.holdBegin sid) s = .next t ∧ (t.suite sid.val).hold.held = true ∧ (t.suite sid.val).hold.sendHold = false ∧
        (t.suite sid.val).hold.holds = h.holds + 1 ∧ (t.suite sid.val).hold.run = 0 ∧ (t.suite sid.val).hold.startTick = s1.tick ∧
        (∀ c ∈ reached, (t.cell c).held = ((s1.cell c).held || holdable (s1.cell c))) ∧ (∀ c, c ∉ reached → t.cell c = s1.cell c) ∧
        (∀ c, (t.cell c).mem = (s1.cell c).mem ∧ (t.cell c).tags = (s1.cell c).tags ∧ (t.cell c).seq.pc = (s1.cell c).seq.pc)) ∧
    ((s.suite sid.val).hold.held = true → (s.suite sid.val).hold.sendRelease = true →
      ∃ t, exec (.holdEnd sid) s = .next t ∧
        (∀ c, (t.cell c).mem = (s1.cell c).mem ∧ (t.cell c).tags = (s1.cell c).tags ∧ (t.cell c).seq.pc = (s1.cell c).seq.pc) ∧
        ((∀ c ∈ reached, (s1.cell c).state = .running → (recheckFaults (s1.cell c)).1 = []) →
          (t.suite sid.val).hold.held = false ∧ (t.suite sid.val).hold.head = h.head + 1 ∧
          sget 0 (t.suite sid.val).hold.ring h.head.toNat = holdEntry h ∧ (∀ c ∈ reached, (t.cell c).held = false)) ∧
        ((∃ c ∈ reached, (s1.cell c).state = .running ∧ (recheckFaults (s1.cell c)).1 ≠ []) →
          (t.suite sid.val).hold.held = h.held ∧ (t.suite sid.val).hold.sendRelease = false ∧ (∀ c, (t.cell c).held = (s1.cell c).held))) ∧
    ((s.suite sid.val).hold.sendHold = false → exec (.holdBegin sid) s = .next s) ∧
    ((s.suite sid.val).hold.sendRelease = false → exec (.holdEnd sid) s = .next s)

/-- O23. In cycle 12 of a beat of a RUNNING suite whose root has not sampled in it: a root that is not held and sees a cause while its
section is open sends HOLD with those causes, and sends none when it sees no cause; in a hold, RELEASE is sent exactly when no
cause is left; the cells are unchanged. As time passes, a held suite's run of held beats grows by the beats that pass. A hold
whose held-beat count has reached a LIMIT other than 0 (no recovery running) sets TIMEOUT once, is logged, and marks the suite
for a suite-fatal stop; a hold below its LIMIT is left as it is. (R272, R274, R279) -/
def Obligations.HoldRootSamplesAndTimesOut : Prop :=
  ∀ (sid : SuiteId) (s : State),
    let u := s.suite sid.val
    let h := u.hold
    let beat := suiteWallBeat s sid.val
    let late := (treeCells s sid.val).filter (fun c => (s.cell c).state == .running && lateMask (s.cell c) beat != 0)
    let cause := !late.isEmpty || protectAsked s sid.val u || mgmtAsked u
    (u.state = .running → s.now / cycleLen u.freq.current % 16 = 12 → h.sampled ≠ beat + 1 →
      ∃ t, exec (.holdRootSample sid) s = .next t ∧ (t.suite sid.val).hold.sampled = beat + 1 ∧
        (h.held = false → u.feeder.isOpen = true → cause = true → (t.suite sid.val).hold.sendHold = true) ∧
        (h.held = false → cause = false → (t.suite sid.val).hold.sendHold = h.sendHold) ∧
        (h.held = true → (t.suite sid.val).hold.sendRelease = !cause) ∧ t.cells = s.cells) ∧
    (∀ k, h.held = true → s.suites.any (fun e => e.1 == sid.val) = true → (s.suites.map (·.1)).Nodup →
      let n := (s.now + k) / (16 * cycleLen u.freq.current) - s.now / (16 * cycleLen u.freq.current)
      ((s.passHolds k).suite sid.val).hold.run = h.run + n ∧ (s.passHolds k).cells = s.cells) ∧
    (h.held = true → h.timedOut = false → h.limit ≠ 0 → h.limit.toNat ≤ h.run → u.recov.active = false →
      ∃ t, exec (.holdTimeout sid) s = .next t ∧ (t.suite sid.val).hold.timeout = true ∧ (t.suite sid.val).recov.fatal = true ∧
        t.errLog.records.length = s.errLog.records.length + 1 ∧ t.cells = s.cells) ∧
    (h.run < h.limit.toNat → exec (.holdTimeout sid) s = .next s)

/-- O24. A write of BAY_ISO.STATE through the PF of a device that answers on the bus takes place as the next cycle of the bay begins (log
91) and answers a next state in which the sides asked for that border a bay of the same suite are to open and all others to
close: at once in a bay whose clock is stopped, else at its next beat boundary; the write of a side that may not open is logged
as event code 3; flags written with 1 are cleared. Through a VF that answers the write is discarded and logged. No other bay,
cell or suite changes. (R280, R286, R287) -/
def Obligations.BayIsolationOpensOnlyInsideASuite : Prop :=
  ∀ (b : BayId) (v : W64) (s : State),
    let s1 := s.freshIn (s.bayCycle b.val)
    let y := s1.bay b.val
    let ok := mayOpen s1 b.val (fld v 0 4)
    (s.answers .pf = true → ∃ t, exec (.bayIsoWrite .pf b v) s = .next t ∧
      (bayClocked y = true → (t.bay b.val).isoReq = some ok ∧ (t.bay b.val).iso = y.iso) ∧
      (bayClocked y = false → (t.bay b.val).isoReq = none ∧ (t.bay b.val).iso = ok) ∧
      (t.bay b.val).viol = y.viol &&& ~~~ (fld v 16 4) ∧
      (ok = fld v 0 4 → t.devLog = s1.devLog) ∧ (ok ≠ fld v 0 4 → t.devLog.next = s1.devLog.next + 1) ∧
      t.cells = s1.cells ∧ t.suites = s1.suites ∧ (∀ k, k ≠ b.val → t.bay k = s1.bay k)) ∧
    (∀ d < 4, ok.getLsbD d = true → ∃ n, bayNext b.val d = some n ∧ (s1.bay b.val).owner.isSome = true ∧ (s1.bay b.val).owner = (s1.bay n).owner) ∧
    (∀ f, s.answers f = false → exec (.bayIsoWrite f b v) s = .next s) ∧
    (∀ k : SuiteId, s.answers (.vf k) = true → exec (.bayIsoWrite (.vf k) b v) s = .next (s1.logDiscard (some (.vf k)) (bayRegAddr b.val 0x40)))

/-- O25. For the oldest flit on an input track's wire of a cell, on a side inside the bay (or a spine inlet): a VALID one with no code
error leaves the wire and, when the FIFO holds fewer than 8 flits, stands last in it as it was sent; an uncorrectable one stands
last with VOID set and the port's UNCORR bit; at a FIFO of 8 the flit is dropped, the FIFO's later flits are marked VOID and the
port's OVERRUN bit is set; an idle one, which an acting entry sent, takes its place like a VALID one where the FIFO has room and
the table acts, and otherwise goes without a trace. Scratchpad, tags and zones are unchanged; with no flit on the wire nothing
happens. (R256, R266, R268) -/
def Obligations.FlitsEnterTheirFifoOrOverrun : Prop :=
  ∀ (c : CellId) (port : Fin 5) (track : Fin 4) (s : State),
    let j := 4 * port.val + track.val
    let x := s.cell c
    let q := sget [] x.trk.fifos j
    let inside := (∀ n, neighbour c.val port.val = some n → cellBay n = cellBay c.val)
    (sget [] x.trk.wires j = [] → ∀ e, exec (.flitReceive c port track e) s = .next s) ∧
    (∀ f rest, sget [] x.trk.wires j = f :: rest → inside → q.length < 8 → (f.valid = true ∨ tracksAct x = true) →
      ∃ t, exec (.flitReceive c port track .none) s = .next t ∧ sget [] (t.cell c).trk.wires j = rest ∧
        sget [] (t.cell c).trk.fifos j = q ++ [f] ∧ (∀ k, k ≠ j → sget [] (t.cell c).trk.fifos k = sget [] x.trk.fifos k) ∧
        (t.cell c).mem = x.mem ∧ (t.cell c).tags = x.tags ∧ (t.cell c).zones = x.zones ∧ { t with cells := s.cells } = s) ∧
    (∀ f rest, sget [] x.trk.wires j = f :: rest → inside → f.valid = false → (8 ≤ q.length ∨ tracksAct x = false) →
      ∃ t, exec (.flitReceive c port track .none) s = .next t ∧ sget [] (t.cell c).trk.wires j = rest ∧
        (t.cell c).trk.fifos = x.trk.fifos ∧ (t.cell c).trk.overrun = x.trk.overrun ∧ { t with cells := s.cells } = s) ∧
    (∀ f rest seen, sget [] x.trk.wires j = f :: rest → inside → f.valid = true → q.length < 8 →
      ∃ t, exec (.flitReceive c port track (.uncorrectable seen)) s = .next t ∧ sget [] (t.cell c).trk.wires j = rest ∧
        sget [] (t.cell c).trk.fifos j = q ++ [{ f with data := seen, void := true }] ∧
        (t.cell c).trk.uncorr = setPortBit x.trk.uncorr port.val ∧ (t.cell c).mem = x.mem ∧ (t.cell c).tags = x.tags) ∧
    (∀ f rest, sget [] x.trk.wires j = f :: rest → inside → f.valid = true → 8 ≤ q.length →
      ∃ t, exec (.flitReceive c port track .none) s = .next t ∧ sget [] (t.cell c).trk.wires j = rest ∧
        sget [] (t.cell c).trk.fifos j = q ∧ j ∈ (t.cell c).trk.fifoBad ∧ (t.cell c).trk.overrun = setPortBit x.trk.overrun port.val ∧
        (t.cell c).mem = x.mem ∧ (t.cell c).tags = x.tags)

/-- O26. In a cell of a RUNNING suite whose route table acts and whose present cycle's phase has not been carried out: the phase answers
a next state in which each input FIFO that an acting output or input entry names has lost its head flit (if it had one) once,
every other FIFO is as it was, the cycle's phase is marked done, and the scratchpad is unchanged (landings write in their own
slot). A cell whose table does not act (LOADING, WAITING_START, IDLE, or dried down) is left as it is. (R259, R263) -/
def Obligations.RouteTablePopsEachNamedFifoOnce : Prop :=
  ∀ (c : CellId) (s : State) (u : Suite),
    let x := s.cell c
    let ph := s.phase u x
    let named := namedFifos (x.outsActing c ph) (x.insActing c ph)
    s.runningSuite x = some u → x.trk.phaseDone ≠ some x.obs.wall →
    (tracksAct x = true →
      ∃ t, exec (.routeTablePhase c) s = .next t ∧ (t.cell c).trk.phaseDone = some x.obs.wall ∧
        (∀ j < 20, sget [] (t.cell c).trk.fifos j =
          if j ∈ named then (sget [] x.trk.fifos j).drop 1 else sget [] x.trk.fifos j) ∧
        (t.cell c).mem = x.mem ∧ (t.cell c).check = x.check) ∧
    (tracksAct x = false → exec (.routeTablePhase c) s = .next s)

/-- O27. LANDING_STRIP answers a next state at the end of the landing slot of the first strip that waits for an octant of a cell of a
RUNNING suite. In its slot a strip is taken so: in a RUNNING or HELD cell of its suite, when its pane lies in a valid zone of
that octant, is EMPTY, its PGEN is current if it is PROV, and the zone (in credit mode) has a credit, the 128 bytes at its
address are those of its four data flits, LANDED (or PROV_LANDED) is one more unless saturated, a credit is taken in credit
mode, and every byte outside the strip is as it was. In a cell that is neither RUNNING nor HELD, in one of another suite, in no
zone, in a zone without credit, on a pane that is not EMPTY, or with a stale PGEN nothing is written and no counter moves.
(R123, R124) -/
def Obligations.LandingStripIsWrittenCountedAndCredited : Prop :=
  ∀ (c : CellId) (o : Fin 8) (s : State) (l : Landing) (flits : List Flit),
    let x := s.cell c
    let a := lhAddr l.header
    let g := gPane a
    (∀ u, x.trk.landings.find? (fun k => k.octant == o.val) = some l → s.runningSuite x = some u →
      ∃ t, exec (.landingStrip c o) s = .next t ∧
        t.now = max s.now ((s.now / cycleLen u.freq.current + (l.wall + 1 - x.obs.wall)) * cycleLen u.freq.current)) ∧
    (let t := (s.landStrip c l).1
    (∀ z, x.onSchedule = true → cellSuite x = some (lhSuite l.header) → aOctant a = l.octant → x.zoneOf g = some z →
      (lhProv l.header = true → lhPgen l.header = (x.zone z).pgen) → ((x.zone z).mode = true → (x.zone z).credits ≠ 0) →
      x.tag g = .empty → l.data = flits.map some → flits.length = 4 → (∀ f ∈ flits, f.void = false) →
      Memory.wf x.mem = true → Memory.wf x.check = true →
        (∀ k < 128, mread (t.cell c).mem (a + k) = nth (flits.flatMap flitBytes) k 0) ∧
        (∀ b, (b < a ∨ a + 128 ≤ b) → mread (t.cell c).mem b = mread x.mem b) ∧
        ((t.cell c).zone z).landed = (if lhProv l.header = false ∧ (x.zone z).landed ≠ 0xFFFFFF then (x.zone z).landed + 1 else (x.zone z).landed) ∧
        ((t.cell c).zone z).provLanded =
          (if lhProv l.header = true ∧ (x.zone z).provLanded ≠ 0xFFFFFF then (x.zone z).provLanded + 1 else (x.zone z).provLanded) ∧
        ((t.cell c).zone z).credits = (if (x.zone z).mode then (x.zone z).credits - 1 else (x.zone z).credits) ∧
        (t.cell c).tags = x.tags ∧ (s.landStrip c l).2 = []) ∧
    ((x.onSchedule = false ∨ cellSuite x ≠ some (lhSuite l.header) ∨ aOctant a ≠ l.octant ∨ x.zoneOf g = none ∨ x.tag g ≠ .empty ∨
        (∃ z, x.zoneOf g = some z ∧ (lhProv l.header = true ∧ lhPgen l.header ≠ (x.zone z).pgen ∨
          (x.zone z).mode = true ∧ (x.zone z).credits = 0))) →
      (t.cell c).mem = x.mem ∧ (t.cell c).tags = x.tags ∧ (s.landStrip c l).2 = [] ∧
        (∀ z, ((t.cell c).zone z).landed = (x.zone z).landed ∧ ((t.cell c).zone z).provLanded = (x.zone z).provLanded ∧
          ((t.cell c).zone z).credits = (x.zone z).credits)))

/-- O28. A message at a router input of its own destination cell joins the cell's arrivals; one for another cell, in an OPEN slot whose
phase gives the port to the router, goes one hop to a neighbour of the same bay that has room. An arrival for a valid queue of a
cell with room, from the cell's own suite, is stored in the slot at TAIL and reads back whole, COUNT is one more and TAIL one
slot on; at an invalid or full queue it is discarded and DROPPED is one more. (R375, R383, R387, R388) -/
def Obligations.MessagesReachTheirQueues : Prop :=
  ∀ (c : CellId) (s : State),
    let x := s.cell c
    (∀ (k : Fin 5) m rest, x.state = .running → x.held = false → sget [] x.trk.router k.val = m :: rest →
      routePort c.val (mDstQueue m / 256) = 4 →
      ∃ t, exec (.routerForward c k) s = .next t ∧ sget [] (t.cell c).trk.router k.val = rest ∧
        (t.cell c).trk.arrivals = x.trk.arrivals ++ [⟨.router, mDstQueue m % 256, m, none⟩] ∧ (t.cell c).mem = x.mem) ∧
    (∀ (k : Fin 5) m rest n, x.state = .running → x.held = false → sget [] x.trk.router k.val = m :: rest →
      let p := routePort c.val (mDstQueue m / 256)
      let e := 64 * p + 32 + x.seq.cyc % 16
      x.seq.dried = false → (s.runningSuite x).isSome = true → p ≠ 4 → neighbour c.val p = some n → cellBay n = cellBay c.val →
      openAt x x.seq.cyc = true → nbit (x.outEntry e) 15 = true → nbits (x.outEntry e) 13 2 = 2 → x.parityBad (0x800 + e / 2) = false →
      x.trk.phaseDone ≠ some x.obs.wall → x.trk.routed.any (fun r => r.1 == p && r.2 == x.obs.wall) = false → routerRoom (s.cell n) (facing p) = true →
      ∃ t, exec (.routerForward c k) s = .next t ∧ sget [] (t.cell c).trk.router k.val = rest ∧
        sget [] (t.cell n).trk.wires (4 * facing p + 2) = sget [] (s.cell n).trk.wires (4 * facing p + 2) ++ [⟨m, true, false, false, none⟩]) ∧
    (∀ a, x.trk.arrivals = [a] → x.qBad a.queue = none → x.qValid a.queue = true → mRemote a.msg = false →
      cellSuite x = some (mSuite a.msg) → (x.que.qlive a.queue).count + (x.que.qlive a.queue).retained < x.qSize a.queue →
      Memory.wf x.que.storeA = true → Memory.wf x.que.checkA = true →
      ∃ t, exec (.messageEnqueue c) s = .next t ∧ (t.cell c).trk.arrivals = [] ∧
        (t.cell c).que.slot (x.que.qlive a.queue).tail = some a.msg ∧
        ((t.cell c).que.qlive a.queue).count = (x.que.qlive a.queue).count + 1 ∧
        ((t.cell c).que.qlive a.queue).tail = x.qNext a.queue (x.que.qlive a.queue).tail ∧ (t.cell c).mem = x.mem) ∧
    (∀ a, x.trk.arrivals = [a] → x.qBad a.queue = none → mRemote a.msg = false →
      (x.qValid a.queue = false ∨ x.qSize a.queue ≤ (x.que.qlive a.queue).count + (x.que.qlive a.queue).retained) →
      ∃ t, exec (.messageEnqueue c) s = .next t ∧ (t.cell c).trk.arrivals = [] ∧
        ((t.cell c).que.qlive a.queue).dropped = satAdd (x.que.qlive a.queue).dropped 1 ∧
        ((t.cell c).que.qlive a.queue).count = (x.que.qlive a.queue).count ∧ (t.cell c).que.storeA = x.que.storeA)

/-- O29. With the bay node free: the oldest item of a cell's outbound buffer goes to the bay node when it holds fewer than 16, and is
last there; the oldest message down for a cell (not LOADING or WAITING_START) joins the cell's arrivals; in both the node is
busy for 4 cycles. At the hub, the first item of a bay node of a suite that stages nothing and has nothing released, when it is
a message (no token record) for a cell of the same suite of this part, goes down that cell's bay node. (R377, R378) -/
def Obligations.HubPathMovesOneItem : Prop :=
  ∀ (c : CellId) (s : State),
    let x := s.cell c
    let b := cellBay c.val
    let y := s.bay b
    (∀ k rest, x.trk.outbound = k :: rest → y.up.length < 16 → y.upFree ≤ s.now →
      ∃ t, exec (.hubPathTransfer c true) s = .next t ∧ (t.cell c).trk.outbound = rest ∧ (t.bay b).up = y.up ++ [(c, k)] ∧
        (t.bay b).upFree = s.now + 4 * s.bayCycle b ∧ (t.cell c).mem = x.mem ∧ t.suites = s.suites) ∧
    (∀ m vc rest, y.down = (c, m, vc) :: rest → x.state ≠ .loading → x.state ≠ .waitingStart → y.downFree ≤ s.now →
      ∃ t, exec (.hubPathTransfer c false) s = .next t ∧ (t.bay b).down = rest ∧ (t.bay b).downFree = s.now + 4 * s.bayCycle b ∧
        (t.cell c).trk.arrivals = x.trk.arrivals ++ [⟨.hub, mDstQueue m % 256, m, vc⟩] ∧ (t.cell c).mem = x.mem) ∧
    (∀ (n : BayId) (o : SuiteId) m rest, (s.bay n.val).owner = some o → (s.suite o.val).feeder.released = [] → staging (s.suite o.val) = false →
      (s.bay n.val).up = (c, .msg m) :: rest → tokenTarget s m = none → mDstPart m = s.part.toNat →
      cellSuite (s.cell (mDstQueue m / 256)) = some o.val → cellBay (mDstQueue m / 256) ≠ n.val →
      ∃ t, exec (.hubMessageRoute n) s = .next t ∧ (t.bay n.val).up = rest ∧
        (t.bay (cellBay (mDstQueue m / 256))).down = (s.bay (cellBay (mDstQueue m / 256))).down ++ [(cellId (mDstQueue m / 256), m, none)] ∧
        t.cells = s.cells)

/-- O30. For a barrier: ARRIVE of the current generation on an armed barrier counts one arrival; the one that reaches the latched count
advances GEN, clears the arrivals and ERROR, and leaves the barrier armed exactly when AUTO_REARM is set. ARRIVE on a disarmed
barrier (not as an error) sets STALE and counts nothing. ERR sets ERROR on an armed barrier, LATE_ERR for the generation before.
So for every sender whose command is not refused: management, the VF of the suite that owns the barrier, a cell of it whose
arrival is its suite's next item at the hub, and, on a REMOTE barrier, another part whose transaction is the next of its
channel. A VF that does not own the barrier arms none. BAR_CFG and BAR_NOTIFY are written while the barrier is disarmed, by the
PF or the VF of the owner, when the function answers on the bus; while it is armed the write is discarded and logged. (R396,
R397, R398, R399) -/
def Obligations.BarrierCountsItsArrivals : Prop :=
  ∀ (n : BarId) (s : State),
    let b := s.barrier n.val
    let after := fun (arrive err genchk : Bool) (gen : W16) (t : State) => (∀ m, m ≠ n.val → t.barrier m = s.barrier m) ∧
      t.barrier n.val = if err = true ∧ genchk = true ∧ gen = b.gen - 1 then { b with lateErr := true }
        else if b.armed = false ∨ (genchk = true ∧ gen ≠ b.gen) then { b with stale := true }
        else if arrive = false then { b with error := true }
        else if b.arrived + 1 = b.latched then { b with gen := b.gen + 1, arrived := 0, error := false, armed := b.autoRearm }
        else { b with arrived := b.arrived + 1, error := b.error || err }
    let direct := fun (src : BarSrc) => src = .mgmt ∨ ∃ k : SuiteId, src = .vf k ∧ s.barOwner n.val = some k.val
    let next := fun (part : BitVec 6) (i : SuiteId) (v : W64) => (s.barrier n.val).remote = true ∧
      ∃ (g : Fin 16) (vc : Fin 5) (x : Txn), gHead s g.val vc.val 4 = some x ∧ txnDst x = s.part.toNat ∧ txnSrc x = part.toNat ∧
        txnSuite x = i.val ∧ barOf (txnAddr x % 2 ^ 48) = some n.val ∧ BitVec.ofNat 64 (leAt x.body 0 8) = v
    (∀ (err genchk : Bool) (gen : W16),
      (∀ src, direct src → ∃ t, exec (.barCmdArrive src n err genchk gen) s = .next t ∧ after true err genchk gen t) ∧
      (∀ i : SuiteId, s.barOwner n.val = some i.val →
        (∃ k ∈ suiteBays s i.val, ∃ rel c, hubHead s i.val k = some (rel, c, .bar n.val (arriveCmd err genchk gen))) →
        ∃ t, exec (.barCmdArrive (.cell i) n err genchk gen) s = .next t ∧ after true err genchk gen t) ∧
      (∀ part i, next part i (arriveCmd err genchk gen) →
        ∃ t, exec (.barCmdArrive (.remote part i) n err genchk gen) s = .next t ∧ after true err genchk gen t) ∧
      (∀ src, direct src → ∃ t, exec (.barCmdErr src n genchk gen) s = .next t ∧ after false true genchk gen t) ∧
      (∀ part i, next part i (flag64 true 60 ||| flag64 genchk 59 ||| at64 gen 32) →
        ∃ t, exec (.barCmdErr (.remote part i) n genchk gen) s = .next t ∧ after false true genchk gen t)) ∧
    (∀ k : SuiteId, s.barOwner n.val ≠ some k.val → ∃ t, exec (.barCmdArm (.vf k) n) s = .next t ∧ t.barriers = s.barriers) ∧
    (∀ (f : HostFn) (v : W64), s.answers f = true → (f = .pf ∨ ∃ k : SuiteId, f = .vf k ∧ s.barOwner n.val = some k.val) →
      (b.armed = false → exec (.barCfgWrite f n 0 v) s = .next (s.setBarrier n.val
        { b with tag := fld v 48 16, remote := v.getLsbD 29, autoRearm := v.getLsbD 28, notifyCount := fld v 24 3, participants := fld v 0 24 })) ∧
      (b.armed = false → ∀ r : Fin 4, ∃ t, exec (.barCfgWrite f n r.succ v) s = .next t ∧ (∀ m, m ≠ n.val → t.barrier m = s.barrier m) ∧
        t.barrier n.val = { b with notify := (List.range 4).map (fun k => if k = r.val then fld v 0 26 else nth b.notify k 0) }) ∧
      (b.armed = true → ∀ r, ∃ t, exec (.barCfgWrite f n r v) s = .next t ∧ t.barriers = s.barriers ∧ t.devLog.next = s.devLog.next + 1))

/-- O31. With a suite context free to begin and an owned slot found, at which START_BEAT has come: a VALID descriptor that keeps its
table becomes the active one, with no tile read yet, and leaves the queue; one that breaks its table leaves the queue with ERR 2
in the context. In the next owned read slot of a port whose stack serves: when the owning context has a tile to read at a legal
address, one more tile is under way for it, 48 slots from arrival, its tile count is one more and the suite's HBM byte count
rises by 4,096; when the context has nothing to read, no tile is read (no host access waiting at the port, which would follow).
The oldest tile under way is in the return buffer once its arrival slot has come. (R326, R338, R344, R345, R349) -/
def Obligations.ContextsStartReadAndDeliver : Prop :=
  ∀ (s : State) (p : PortId),
    (∀ (x : StreamCtx) (e : Fin 96) (k : Fin 16) d rest i n, x = .se e k → (s.stream x).queue = d :: rest → s.ctxSuite x = some i →
      canBegin (s.stream x) = true →
      s.nextSlot (ctxPort x) (fun _ j q => match q with
        | some (_, a) => a.toNat == seAgent e.val k.val && decide (slotClass s.repair.split j < 2)
        | none => false) = some n →
      dStart d ≤ suiteBeat (s.waitSlot (ctxPort x) n) i → nbit d.toNat 0 = true →
      (dBad d i (ctxPort x) = false → ∃ t, exec (.descriptorStart x) s = .next t ∧ (t.stream x).desc = d ∧ (t.stream x).active = true ∧
        (t.stream x).queue = rest ∧ (t.stream x).rdTile = 0 ∧ (t.stream x).taken = 0 ∧ (t.stream x).serial = (s.stream x).serial + 1) ∧
      (dBad d i (ctxPort x) = true → ∃ t, exec (.descriptorStart x) s = .next t ∧ (t.stream x).err = 2 ∧ (t.stream x).queue = rest ∧
        (t.stream x).active = (s.stream x).active)) ∧
    (∀ n su ag, stackServes (s.port p.val) = true → (∀ h ∈ s.mbox.waits, stackOf h.addr ≠ p.val) →
      s.nextSlot p.val (fun _ i k => slotClass s.repair.split i == 0 && k.isSome) = some n →
      let s1 := (s.waitSlot p.val n).updPort p.val (fun q => { q with lastSlot := some n })
      let x := agentCtx p.val ag
      let use := readUse (s1.stream x) (inBufferOf (s1.port p.val).reads x s1.now) (fun row a => legalTile (s1.suite su.toNat) p.val row a)
      ((s1.port p.val).slots.find? (fun e => e.1 == slotIx (s1.port p.val) n)).map (·.2) = some (su, ag) →
      (∀ a, use = .data a → ∃ t, exec (.readSlot p) s = .next t ∧ t.stream x = countRead (s1.stream x) ∧
        (t.port p.val).reads.length = (stillHeld (s1.port p.val).reads s1.now).length + 1 ∧
        (∃ r, (t.port p.val).reads.getLast? = some r ∧ r.id = ⟨x, (s1.stream x).serial, false, (s1.stream x).rdTile⟩ ∧ r.arrives = n + 48) ∧
        (t.suite su.toNat).meter.hbmBytes = (s1.suite su.toNat).meter.hbmBytes + 4096 ∧
        (t.port p.val).data = (s1.port p.val).data) ∧
      (use = .nothing → ∃ t, exec (.readSlot p) s = .next t ∧ (t.port p.val).reads = (s1.port p.val).reads ∧ t.streams = s1.streams)) ∧
    (∀ r, (s.port p.val).reads = [r] → r.inBuffer = false → r.id.index = false → 25 * r.arrives ≤ s.now →
      ∃ t, exec (.tileReadReturn p) s = .next t ∧ (t.port p.val).reads = [{ r with inBuffer := true }] ∧ t.streams = s.streams)

/-- O32. In the next owned write slot of a port whose stack serves, when the owning context has a tile ready at a legal address, its
strips leave the write-combining buffer, its tile count is one more and the suite's HBM byte count rises by 4,096; with no tile
ready nothing is stored and no context changes (no host access waiting at the port, which would follow). A maintenance slot in
which nothing waits and no scrub read is due changes no stored byte. A refresh request that a maintenance slot absorbs waits
there last on its pseudo-channel. A slot entry written through the PF of a device that answers on the bus waits for the port's
next period and changes no entry at once; through a VF it is discarded and logged. In a port's next owned remote slot, whose
agent names a Gacon port none of whose contexts has a tile to ask for: when a returned tile waits there for a context of the
owning suite with a target on the port's die, the tile is in its buffer afterwards, and the suite's HBM byte count rises by
4,096. A port whose stack does not serve, and one without an owned remote slot, are left as they are. (R338, R339, R341, R358,
R463, R613) -/
def Obligations.WriteRemoteAndMaintenanceSlots : Prop :=
  (∀ (s : State) (p : PortId),
      (∀ n su ag t a a', stackServes (s.port p.val) = true → (∀ h ∈ s.mbox.waits, stackOf h.addr ≠ p.val) →
        s.nextSlot p.val (fun _ i k => slotClass s.repair.split i == 1 && k.isSome) = some n →
        let s1 := (s.waitSlot p.val n).updPort p.val (fun q => { q with lastSlot := some n })
        let x := agentCtx p.val ag
        ((s1.port p.val).slots.find? (fun e => e.1 == slotIx (s1.port p.val) n)).map (·.2) = some (su, ag) →
        tileReady (s1.stream x) = some t → dTileAddr (s1.stream x).desc (s1.stream x).indices t = some a →
        legalTile (s1.suite su.toNat) p.val false a = some a' →
        ∃ r, exec (.writeSlot p) s = .next r ∧ r.stream x = countWrite (s1.stream x) t ∧
          (r.suite su.toNat).meter.hbmBytes = (s1.suite su.toNat).meter.hbmBytes + 4096 ∧ r.cells = s1.cells) ∧
      (∀ n su ag, stackServes (s.port p.val) = true → (∀ h ∈ s.mbox.waits, stackOf h.addr ≠ p.val) →
        s.nextSlot p.val (fun _ i k => slotClass s.repair.split i == 1 && k.isSome) = some n →
        let s1 := (s.waitSlot p.val n).updPort p.val (fun q => { q with lastSlot := some n })
        ((s1.port p.val).slots.find? (fun e => e.1 == slotIx (s1.port p.val) n)).map (·.2) = some (su, ag) →
        tileReady (s1.stream (agentCtx p.val ag)) = none →
        exec (.writeSlot p) s = .next s1) ∧
      (∀ n, stackServes (s.port p.val) = true → s.nextSlot p.val (fun _ i _ => slotClass s.repair.split i == 3) = some n →
        let s1 := s.waitSlot p.val n
        (s1.port p.val).maint = [] → (s1.port p.val).reads = [] → scrubDue s1 < (s1.port p.val).scrubPos →
        ∃ t, exec (.maintenanceSlot p) s = .next t ∧ (t.port p.val).data = (s1.port p.val).data ∧
          (t.port p.val).check = (s1.port p.val).check ∧ (t.port p.val).lastSlot = some n ∧ (t.port p.val).scrubPos = (s1.port p.val).scrubPos) ∧
      (∀ pc : Fin 64, stackServes (s.port p.val) = true → ∀ d, ∃ t, exec (.rfmRequest p pc true d) s = .next t ∧
        sget [] (t.port p.val).maint pc.val = sget [] (s.port p.val).maint pc.val ++ [.rfm] ∧ (t.port p.val).data = (s.port p.val).data) ∧
      (s.answers .pf = true → ∀ (i : Fin 1024) (v : W16), ∃ t, exec (.mpSlotWrite .pf p i v) s = .next t ∧ (t.port p.val).slots = (s.port p.val).slots ∧
        (t.port p.val).slotReqs = (s.port p.val).slotReqs ++ [(i.val, v, slotPeriod (s.port p.val) s.slotNow + 1)]) ∧
      (∀ (k : SuiteId) (i : Fin 1024) (v : W16), s.answers (.vf k) = true → ∃ t, exec (.mpSlotWrite (.vf k) p i v) s = .next t ∧ t.ports = s.ports ∧
        t.devLog.next = s.devLog.next + 1)) ∧
  (∀ (p : PortId) (s : State),
      (stackServes (s.port p.val) = false → exec (.remoteSlot p) s = .next s) ∧
      (s.nextSlot p.val (fun _ i k => slotClass s.repair.split i == 2 && k.isSome) = none → exec (.remoteSlot p) s = .next s) ∧
      (∀ n su ag r, stackServes (s.port p.val) = true →
        s.nextSlot p.val (fun _ i k => slotClass s.repair.split i == 2 && k.isSome) = some n →
        let s1 := (s.waitSlot p.val n).updPort p.val (fun q => { q with lastSlot := some n })
        let g := ag.toNat / 8
        let s2 := s1.settleGaconIndex g
        ((s1.port p.val).slots.find? (fun e => e.1 == slotIx (s1.port p.val) n)).map (·.2) = some (su, ag) →
        (∀ x ∈ gaconCtxs (s2.suite su.toNat) g, s2.askTile g su.toNat x = none) →
        (s2.gport g).reads = [r] → r.inBuffer = false → r.id.index = false → r.id.ctx ∈ gaconCtxs (s2.suite su.toNat) g →
        (s2.stream r.id.ctx).dlvs.any (fun e => e.1 == r.id.serial && cellDie (dTarget e.2) == p.val / 3) = true →
        ∃ t, exec (.remoteSlot p) s = .next t ∧ (t.gport g).reads = [{ r with inBuffer := true }] ∧
          (t.suite su.toNat).meter.hbmBytes = (s2.suite su.toNat).meter.hbmBytes + 4096 ∧ (t.port p.val).data = (s1.port p.val).data))

/-- O33. A read context whose tile is in its buffer with every granule good, in a suite that is RUNNING, sends its next strip: at its
moment five flits reach the injection cell's inlet track, the first the frame header, the others the strip's 128 bytes, and the
context's strip count moves on. A write context that finds a frame of its tracks and phases at its collection cell, of its
suite's bay, with room in its engine's buffer, takes the strip of 128 bytes as its next once its four flits have come. An index
frame adds its words to the context's indices, as far as COUNT asks for them. (R348, R351, R353, R357) -/
def Obligations.FramesPassBetweenSpineAndContext : Prop :=
  ∀ (x : StreamCtx) (s : State) (i : Nat), s.ctxSuite x = some i →
    let v := s.stream x
    let u := s.suite i
    (∀ serial d ds r n wall at_, v.dlvs = (serial, d) :: ds → v.voided = false → dReads d = true → u.state = .running →
      (s.ctxReads x).find? (fun r => r.id == ⟨x, serial, false, v.dlvTile⟩) = some r → r.inBuffer = true → r.granules = [] → v.dlvStrip < 31 →
      let ts := dTrackList d
      let f := v.dlvStrip / ts.length
      let due := dDue0 d + v.dlvTile * dTileBeats d
      let cell := dRowCell d
      frameMoment v u.hold.held (s.now / cycleLen u.freq.current) (s.cell cell).seq.cyc (due + f / dFpb d) (dPhase d + 5 * (f % dFpb d)) due
        (suiteBeat s i) = some (n, wall, at_) →
      (s.bay (cellBay cell)).owner.map (fun o => o.val) = some i → n * cycleLen u.freq.current ≤ s.now →
      ∃ t hdr, exec (.spineFrameSend x) s = .next t ∧ (t.stream x).dlvStrip = v.dlvStrip + 1 ∧ (t.stream x).dlvTile = v.dlvTile ∧
        sget [] (t.cell cell).trk.wires (16 + nth ts (v.dlvStrip % ts.length) 0) =
          sget [] (s.cell cell).trk.wires (16 + nth ts (v.dlvStrip % ts.length) 0) ++
            ⟨hdr, true, dProv d, false, none⟩ :: (List.range 4).map (fun j =>
              (⟨BitVec.ofNat 256 (leAt (slice r.data (128 * v.dlvStrip) 128) (32 * j) 32), true, dProv d, false, none⟩ : Flit))) ∧
    (∀ c tr, v.active = true → v.voided = false → dWrites v.desc = true → v.taken < 32 * dTiles v.desc →
      let cell := dRowCell v.desc
      firstFrame (s.cell cell) (dTrackList v.desc) ((List.range (dFpb v.desc)).map (fun j => dPhase v.desc + 4 * j)) (16 * dDue0 v.desc) = some (c, tr) →
      (s.runningSuite (s.cell cell)).isSome = true → (s.cell cell).clocked = true →
      c + 4 ≤ (s.cell cell).seq.cyc → spineTagOk s cell i = true → s.wcbUse x < 64 →
      ∃ t w, exec (.writeStripTake x) s = .next t ∧ (t.stream x).taken = v.taken + 1 ∧ (t.stream x).wcb = v.wcb ++ [w] ∧
        w.tile = v.taken / 32 ∧ w.row = v.taken % 32 ∧ w.bytes.length = 128 ∧ (t.cell cell).mem = (s.cell cell).mem) ∧
    (∀ c tr, v.active = true → v.voided = false → dIndexed v.desc = true → dIdxSp v.desc = true →
      let cell := dIdx v.desc % 2 ^ 12
      firstFrame (s.cell cell) [nbits (dIdx v.desc) 12 2] [nbits (dIdx v.desc) 16 4] 0 = some (c, tr) →
      (s.runningSuite (s.cell cell)).isSome = true → (s.cell cell).clocked = true →
      c + 4 ≤ (s.cell cell).seq.cyc → spineTagOk s cell i = true →
      ∃ t, exec (.indexFrameReceive x) s = .next t ∧ (t.stream x).indices.length = min (dCount v.desc 0) (v.indices.length + 32) ∧
        (∀ k < min (dCount v.desc 0) v.indices.length, (t.stream x).indices[k]? = v.indices[k]?))

/-- O34. A LOADING cell with no handler and fewer than 8 groups to pass on raises READY. A group waiting in a cell goes to the east
neighbour that can take it; the group that the spine has for an injection cell is on its way to it, and where it has none,
nothing is sent. A group that arrives without a code error at a LOADING cell whose block holds 2 to 128 groups is the next of
its block: its 32 words stand in the configuration store at their places and the group count is one more; at a cell whose block
is complete it waits to go on. In a LOADING cell with its KEEP map, idle engines and a RUNNING suite, the next pane of each
octant is cleared (tag EMPTY, bytes 0) unless its KEEP bit is 1, and the clearing position is one on. (R296, R298, R299, R303,
R46) -/
def Obligations.ConfigurationGroupsReachTheStore : Prop :=
  ∀ (c : CellId) (s : State),
    let x := s.cell c
    (x.state = .loading → x.seq.handler = none → x.cfg.path.length < 8 →
      exec (.readyRaise c) s = .next (s.setCell c { x with cfg := { x.cfg with ready := true } })) ∧
    (x.state ≠ .loading → exec (.readyRaise c) s = .next s) ∧
    (∀ g rest, x.cfg.path = g :: rest → cellLx c.val ≠ 15 → canTake (s.cell (c.val + 1)) = true →
      ∃ t, exec (.configGroupSend c false) s = .next t ∧ (t.cell c).cfg.path = rest ∧
        (t.cell (c.val + 1)).cfg.wire = (s.cell (c.val + 1)).cfg.wire ++ [g] ∧ (∀ k, k ≠ c.val → k ≠ c.val + 1 → t.cell k = s.cell k)) ∧
    (∀ g s1 i, cellSuite x = some i → cellLx c.val = 0 → canTake x = true → s.spineGroup i c.val = (some g, s1) →
      exec (.configGroupSend c true) s = .next (s1.setCell c ((s1.cell c).pushWire g))) ∧
    (∀ s1 i, cellSuite x = some i → cellLx c.val = 0 → canTake x = true → s.spineGroup i c.val = (none, s1) → foreignRow s1 i c.val = none →
      exec (.configGroupSend c true) s = .next s1) ∧
    (∀ g rest (tr : Fin 4), x.cfg.wire = g :: rest → x.state = .loading → 2 ≤ x.cfg.groups → x.cfg.groups < 129 →
      ∃ t, exec (.configGroupReceive c tr .none) s = .next t ∧ (t.cell c).cfg.wire = rest ∧ (t.cell c).cfg.groups = x.cfg.groups + 1 ∧
        (∀ j < 32, (t.cell c).cfgWord (32 * (x.cfg.groups - 2) + j) = BitVec.ofNat 32 (nbits g.bytes.toNat (32 * j) 32) ∧
          (t.cell c).parityBad (32 * (x.cfg.groups - 2) + j) = false) ∧
        (∀ k, k < 32 * (x.cfg.groups - 2) → (t.cell c).cfgWord k = x.cfgWord k) ∧ (t.cell c).mem = x.mem) ∧
    (∀ g rest (tr : Fin 4), x.cfg.wire = g :: rest → x.state = .loading → 130 ≤ x.cfg.groups →
      ∃ t, exec (.configGroupReceive c tr .none) s = .next t ∧ (t.cell c).cfg.wire = rest ∧ (t.cell c).cfg.path = x.cfg.path ++ [g] ∧
        (t.cell c).cfg.store = x.cfg.store) ∧
    (∀ s1, x.state = .loading → 2 ≤ x.cfg.groups → enginesIdle x = true → x.cfg.clearPos < 128 → s.nextCycle c.val = some s1 →
      let y := s1.cell c
      let k := y.cfg.clearPos
      ∃ t, exec (.paneClearing c) s = .next t ∧ (t.cell c).cfg.clearPos = k + 1 ∧
        (∀ o < 8, y.cfg.keep.getLsbD (128 * o + k) = false →
          (t.cell c).tag (128 * o + k) = .empty ∧ (∀ a, gPane a = 128 * o + k → mread (t.cell c).mem a = 0)) ∧
        (∀ g, (∀ o < 8, g = 128 * o + k → y.cfg.keep.getLsbD g = true) →
          (t.cell c).tag g = y.tag g ∧ (∀ a, gPane a = g → mread (t.cell c).mem a = mread y.mem a)))

/-- O35. In a LOADING cell of a RUNNING suite (no recovery) whose block of 130 groups is without error, whose panes are all treated and
whose engines are idle, 4 cycles after the last of these: commit answers a next state in which the cell is WAITING_START and not
start-ready; EPOCH, SECT and VCELL are the header's; the sequencer is at address 0 with no loop, VL 32 and MODE 0; queues of
instructions, matrix buffers, FIFOs and channels are empty; the zones are those of the configuration; a PROVISIONAL pane is
EMPTY and every other pane keeps its tag; the bytes of the scratchpad, the configuration store and the message store are
unchanged. A block in error is not committed. (R193, R304, R305, R121) -/
def Obligations.CommitStartsTheNewConfiguration : Prop :=
  ∀ (c : CellId) (s : State) (u : Suite),
    let x := s.cell c
    x.state = .loading → x.cfg.groups = 130 → x.cfg.clearPos = 128 → enginesIdle x = true →
    (x.cfg.blockErr = false → s.runningSuite x = some u → x.cfg.readyAt + 4 * cycleLen u.freq.current ≤ s.now → u.recov.active = false →
      ∃ t, exec (.configCommit c) s = .next t ∧ (t.cell c).state = .waitingStart ∧ (t.cell c).startReady = false ∧
        (t.cell c).epoch = fld x.cfg.header 64 32 ∧ (t.cell c).vcell = fld x.cfg.header 128 12 ∧ (t.cell c).cfg.sect = fld x.cfg.header 32 16 ∧
        (t.cell c).seq.pc = 0 ∧ (t.cell c).seq.loops = [] ∧ (t.cell c).seq.vl = [32, 32, 32, 32, 32] ∧ (t.cell c).seq.mode = 0 ∧
        (t.cell c).seq.dried = false ∧ (t.cell c).eng = {} ∧ (t.cell c).mat = {} ∧ (t.cell c).trk.fifos = [] ∧ (t.cell c).trk.sendCh = [] ∧
        (t.cell c).trk.recvCh = [] ∧ (t.cell c).zones = (loadZones x).1 ∧ (t.cell c).pendSeal = [] ∧ (t.cell c).pendRelease = [] ∧
        (∀ g, sorted x.tags = true → (t.cell c).tag g = if x.tag g = .provisional then .empty else x.tag g) ∧
        (t.cell c).mem = x.mem ∧ (t.cell c).check = x.check ∧ (t.cell c).cfg.store = x.cfg.store ∧ (t.cell c).que.storeA = x.que.storeA ∧
        (∀ k, k ≠ c.val → t.cell k = s.cell k)) ∧
    (x.cfg.blockErr = true → exec (.configCommit c) s = .next s)

/-- O36. A section that may close (R307), with no unit to quarantine, closes: it is no longer open, its staged effects are released after
those released before, and no scratchpad byte or tag changes; when it ends a step, that step is closed and none is under way; a
FINAL section, or the close of a suite that is stopping and does not serve, stops the suite, and any other leaves it RUNNING.
One that may not close is left open. With START sent, at the next beat boundary: section NEXT is current and open, no cell has
dried, NEXT is its successor, its start count is one more unless a recovery rolled it back, every cell of the suite is RUNNING
in schedule cycle 0, not held, with its watchdog running, its scratchpad and tags as they were, every other cell is unchanged,
and each context that has at most 8 descriptors in the section holds exactly those, in table order. A regulator that has ramped
ends its bay's ramp at the voltage of the higher of TARGET's step and the step in force; a withheld START is free again after
its time. (R307, R310, R318, R343, R408, R534, R537) -/
def Obligations.SectionsCloseAndStart : Prop :=
  ∀ (sid : SuiteId) (s : State),
    let i := sid.val
    let u := s.suite i
    let final := (u.sections[u.feeder.current]?).map (·.final) = some true
    (mayClose s i = false → exec (.sectionClose sid) s = .next s) ∧
    (mayClose s i = true → s.repair.quarantine = [] →
      ∃ t, exec (.sectionClose sid) s = .next t ∧ (t.suite i).feeder.isOpen = false ∧
        (t.suite i).feeder.staged = [] ∧ (t.suite i).feeder.released = u.feeder.released ++ u.feeder.staged ∧
        (t.suite i).state = (if final ∨ (u.stopping = true ∧ u.serving = false) then .stopped else .running) ∧
        (lastOfStep u u.feeder.current = true → (t.suite i).sb.closed = u.sb.started ∧ (t.suite i).sb.started = none) ∧
        (lastOfStep u u.feeder.current = false → (t.suite i).sb.closed = u.sb.closed ∧ (t.suite i).sb.started = u.sb.started) ∧
        (∀ c, (t.cell c).mem = (s.cell c).mem ∧ (t.cell c).tags = (s.cell c).tags)) ∧
    (∀ s1, u.hold.sendStart = true → s.waitBoundary i = some s1 →
      let v := s1.suite i
      let k := v.feeder.next
      ∃ t, exec (.sectionStart sid) s = .next t ∧ (t.suite i).feeder.current = k ∧ (t.suite i).feeder.isOpen = true ∧
        (t.suite i).feeder.dried = 0 ∧ (t.suite i).hold.sendStart = false ∧ (t.suite i).recov.active = false ∧
        (∀ sec, v.sections[k]? = some sec → (t.suite i).feeder.next = sec.next ∧
          ((t.suite i).sections[k]?).map (·.starts) = some (if isRedo v then sec.starts else sec.starts + 1)) ∧
        (∀ c ∈ suiteCells s1 i, (t.cell c).state = .running ∧ (t.cell c).seq.cyc = 0 ∧ (t.cell c).held = false ∧
          (t.cell c).obs.wdRunning = true ∧ (t.cell c).touched = [] ∧ (t.cell c).mem = (s1.cell c).mem ∧ (t.cell c).tags = (s1.cell c).tags) ∧
        (∀ c, c ∉ suiteCells s1 i → t.cell c = s1.cell c) ∧
        (∀ sec e, v.sections[k]? = some sec → e ∈ v.contexts →
          let ds := ((v.descs.drop sec.descFirst).take sec.descCount).filter (fun d => d.1 == e.2.2)
          ds.length ≤ 8 → (t.stream e.2.2).queue = ds.map (·.2))) ∧
    (∀ b : BayId, (s.bay b.val).owner = some sid → (s.bay b.val).power = .on → (s.bay b.val).ramping = true →
      ∃ t, exec (.regulatorRampDone b) s = .next t ∧ (t.bay b.val).ramping = false ∧
        (t.bay b.val).vcore = stepVcore (if u.freq.target < u.freq.current then u.freq.current else u.freq.target) ∧
        t.cells = s.cells ∧ t.suites = s.suites ∧ (∀ k, k ≠ b.val → t.bay k = s.bay k)) ∧
    (u.freq.withheld = true → u.sb.closedAt + cdiv (u.sb.stepLen * s.power.duty.toNat) (16 - s.power.duty.toNat) ≤ s.now →
      ∃ t, exec (.dutyWithholdEnd sid) s = .next t ∧ (t.suite i).freq.withheld = false ∧ t.cells = s.cells ∧ t.now = s.now)

/-- O37. When the builder of a serving suite builds and step n (the start count of the step's first section) is not built: the step is
built, with exactly B decode and P chunk slots whose pages together stay within the page budget; the builder no longer builds,
and the count of padded slots rises by the null slots; a builder that does not build leaves the state. A token record that is
next to act in the suite at the bay joins the commit queue last, while that holds less than 4,096; at 4,096 it is refused with a
suite error and joins nothing. When step n, of one sample slot whose entry takes tokens, has closed and its record is the only
one waiting: the step is committed and gone from the built ones, the entry's LAST_TOKEN is the record's, its count of generated
tokens and the suite's token count are one more, its POSITION is one more (decode slot) or the prompt's length and one (chunk
slot). The first record that waits for an enabled output ring that is not full is written, when its DMA succeeds, as 16 bytes at
the ring's address and its TAIL, with the ring's PHASE in bit 127; TAIL advances (at the end of the ring to 0, where PHASE
inverts), and the VF's vector 1 is raised; when the DMA fails the record is gone, nothing is written and TAIL stays (that TAIL
stays is the model's reading). Into a full ring nothing is written. A write of the ring's control register by its own VF, when
it answers on the bus, sets ENABLE and HEAD, and LOG2SIZE when it is 4 to 16 and the ring is not enabled; enabling sets TAIL 0
and PHASE 1; by another VF it changes no ring and is logged. (R412, R413, R416, R417, R419, R493, R421, R430, R431, R495) -/
def Obligations.BuilderBuildsCommitsAndPutsOut : Prop :=
  (∀ (sid : SuiteId) (s : State),
      let i := sid.val
      let u := s.suite i
      let n := nextStep u
      (u.serving = true → u.sb.building = true → (u.sb.built.any (fun e => e.1 == n)) = false →
        ∃ t l, exec (.stepBuild sid) s = .next t ∧ (t.suite i).sb.built = u.sb.built ++ [(n, l)] ∧ l.length = u.sb.b + u.sb.p ∧
          (l.map (fun k => k.pages)).sum ≤ u.sb.pageBudget.toNat ∧ (t.suite i).sb.building = false ∧
          (t.suite i).sb.padded = u.sb.padded + BitVec.ofNat 32 (l.countP (fun k => k.kind == 0)) ∧ t.cells = s.cells ∧ t.bays = s.bays) ∧
      (u.sb.building = false → exec (.stepBuild sid) s = .next s) ∧
      (∀ (b : BayId) rel c m, (s.bay b.val).owner = some sid → hubHead s i b.val = some (rel, c, .msg m) → tokenTarget s m = some i → u.serving = true →
        ∃ t, exec (.tokenRecordReceive b) s = .next t ∧
          (t.suite i).sb.commitQ = (if u.sb.commitQ.length < 4096 then u.sb.commitQ ++ [m] else u.sb.commitQ) ∧ t.cells = s.cells) ∧
      (∀ n' k m, u.sb.closed = some n' → u.sb.built = [(n', [k])] → u.sb.commitQ = [m] → mTag m = 0 → mUser m = n' → k.kind ≠ 0 → k.sample = true →
        takesToken (s.seqEntry k.entry) = true → u.stopping = false → sorted s.seqs = true →
        let e := s.seqEntry k.entry
        ∃ t, exec (.stepCommit sid) s = .next t ∧ (t.suite i).sb.closed = none ∧ (t.suite i).sb.committed = BitVec.ofNat 32 n' ∧
          (t.suite i).sb.built = [] ∧ (t.suite i).sb.commitQ = [] ∧ (t.suite i).meter.tokens = u.meter.tokens + 1 ∧
          (t.seqEntry k.entry).lastToken = BitVec.ofNat 32 (nbits m.toNat 64 32) ∧ (t.seqEntry k.entry).generated = e.generated + 1 ∧
          (t.seqEntry k.entry).position = (if k.kind = 1 then e.position + 1 else e.promptLen + 1) ∧ t.cells = s.cells)) ∧
  (∀ (sid : SuiteId) (ring : Fin 16) (s : State),
      let i := sid.val
      let q := sget {} (s.suite i).sb.rings ring.val
      let after := fun (t : State) => sget ({} : OutRing) (t.suite i).sb.rings ring.val
      let next := (q.tail.toNat + 1) % outSize q
      (∀ r rest, q.waiting = r :: rest → q.enable = true → next ≠ q.head.toNat % outSize q →
        (∃ t, exec (.outputRecordWrite sid ring true) s = .next t ∧
          t.out.dma = s.out.dma ++ [⟨vfOf i, q.addr.toNat * 16 + 16 * q.tail.toNat, leBytes 16 (nbits r.toNat 0 127 + 2 ^ 127 * b2n q.phase)⟩] ∧
          raised s t (vfOf i) 1 ∧ (after t).waiting = rest ∧ (after t).tail = BitVec.ofNat 16 next ∧
          (after t).phase = (if next = 0 then !q.phase else q.phase) ∧ (after t).head = q.head ∧ t.cells = s.cells ∧ t.seqs = s.seqs) ∧
        (∃ t, exec (.outputRecordWrite sid ring false) s = .next t ∧ t.out.dma = s.out.dma ∧ (after t).waiting = rest ∧
          (after t).tail = q.tail ∧ t.cells = s.cells)) ∧
      (∀ ok, next = q.head.toNat % outSize q → exec (.outputRecordWrite sid ring ok) s = .next s) ∧
      (∀ v : W64, s.answers (.vf sid) = true → ∃ t, exec (.outRingCtlWrite (.vf sid) sid ring v) s = .next t ∧ (after t).enable = v.getLsbD 63 ∧ (after t).head = fld v 40 16 ∧
        (q.enable = false → 4 ≤ (fld v 0 5).toNat → (fld v 0 5).toNat ≤ 16 → (after t).log2size = fld v 0 5) ∧
        (q.enable = true → (after t).log2size = q.log2size) ∧
        (q.enable = false → v.getLsbD 63 = true → (after t).tail = 0 ∧ (after t).phase = true) ∧ t.cells = s.cells) ∧
      (∀ (j : SuiteId) (v : W64), j ≠ sid → s.answers (.vf j) = true → ∃ t, exec (.outRingCtlWrite (.vf j) sid ring v) s = .next t ∧ t.suites = s.suites ∧
        t.devLog.next = s.devLog.next + 1))

/-- O38. On a port that is UP (or in FAILOVER), a data flit whose FEC and CRC agree and whose SEQ is the expected one: EXP_SEQ is one on,
no NAK is outstanding, and its payload joins those of its virtual channel (starting anew with FIRST); the last one ends a
transaction, which (OP at most 5) joins the received ones of the channel last, its header the first 32 bytes. A data flit out of
order, or with a CRC or FEC error: while a NAK is outstanding the port keeps everything but its error counts; with none
outstanding one NAK waits to be sent, EXP_SEQ is as it was and the received flits are unchanged. First the codewords that FEC
corrected and could not correct are counted; where a lane fails over its corrected symbols, what follows is said of the port as
that leaves it. A transaction with a reserved OP is logged and joins nothing. An IDLE returns the credits that it carries to
their channel, and drops from the replay buffer exactly the flits that its ACK newly passes over. A port that is not UP takes
nothing. (R435, R436, R437, R438, R442, R456) -/
def Obligations.LinkFlitsAreAcceptedOnceInOrder : Prop :=
  ∀ (g : GPort) (f : BitVec 2144) (fec : FecResult) (s : State),
    let q0 := s.gport g.val
    let s1 := s.countFec g.val fec
    let q := s1.gport g.val
    let intact := fec.lost = false ∧ lfCrcOk f = true
    (portUp q0 = false → exec (.linkFlitReceive g f fec) s = .next s ∧ exec (.gaconIdle g f) s = .next s) ∧
    (q.fecCorr = satAdd q0.fecCorr fec.corrected ∧ q.fecUncorr = satAdd q0.fecUncorr fec.uncorrectable) ∧
    (portUp q0 = true → portUp q = true → intact → lfVc f < 5 → lfSeq f = q.expSeq → lfLast f = false →
      ∃ t, exec (.linkFlitReceive g f fec) s = .next t ∧ (t.gport g.val).expSeq = q.expSeq + 1 ∧ (t.gport g.val).nakOut = false ∧
        (t.gport g.val).ackNo = lfSeq f ∧
        sget [] (t.gport g.val).rxFlits (lfVc f) = (if lfFirst f then [] else sget [] q.rxFlits (lfVc f)) ++ lfPayload f ∧
        (∀ v, v ≠ lfVc f → sget [] (t.gport g.val).rxFlits v = sget [] q.rxFlits v) ∧ (t.gport g.val).rxq = q.rxq ∧
        (∀ h, h ≠ g.val → t.gport h = s1.gport h) ∧ t.cells = s1.cells) ∧
    (portUp q0 = true → portUp q = true → intact → lfVc f < 5 → lfSeq f = q.expSeq → lfLast f = true →
      let bs := (if lfFirst f then [] else sget [] q.rxFlits (lfVc f)) ++ lfPayload f
      (5 < leAt bs 0 32 % 16 → ∃ t, exec (.linkFlitReceive g f fec) s = .next t ∧ (t.gport g.val).rxq = q.rxq ∧
        t.devLog.next = s1.devLog.next + 1) ∧
      (leAt bs 0 32 % 16 ≤ 5 →
      ∃ t x, exec (.linkFlitReceive g f fec) s = .next t ∧ sget [] (t.gport g.val).rxq (lfVc f) = sget [] q.rxq (lfVc f) ++ [x] ∧
        x.hdr = BitVec.ofNat 256 (leAt bs 0 32) ∧ x.arrived = some g ∧ sget [] (t.gport g.val).rxFlits (lfVc f) = [] ∧ t.cells = s1.cells)) ∧
    (portUp q0 = true → portUp q = true → (lfVc f < 5 ∨ ¬ intact) → (¬ intact ∨ lfSeq f ≠ q.expSeq) →
      ∃ t, exec (.linkFlitReceive g f fec) s = .next t ∧ (t.gport g.val).expSeq = q.expSeq ∧ (t.gport g.val).nakOut = true ∧
        (t.gport g.val).rxFlits = q.rxFlits ∧ (t.gport g.val).rxq = q.rxq ∧ (t.gport g.val).credits = q.credits ∧
        (t.gport g.val).control.length = q.control.length + (if q.nakOut then 0 else 1) ∧ t.cells = s1.cells) ∧
    (controlOk q0 f 0 = true → ∃ t, exec (.gaconIdle g f) s = .next t ∧
      (∀ v < 5, nth (t.gport g.val).credits v 0 = nth q0.credits v 0 + (if v = lfCvc f then lfCount f else 0)) ∧
      (∀ e, e ∈ (t.gport g.val).replay ↔ e ∈ q0.replay ∧ (lfAck f = q0.ackSeen ∨ 2048 ≤ (lfAck f - e.1).toNat)) ∧
      (t.gport g.val).ackSeen = lfAck f ∧ (t.gport g.val).state = q0.state ∧ t.cells = s.cells)

/-- O39. At a flit opportunity of a port that is UP one flit leaves: the first control flit that waits; else the first flit to be resent;
else, when the virtual channel of the transmit pattern has a flit ready, a credit, and room in the replay buffer, and no switch
of its lanes is to come, that flit under the next SEQ, which joins the replay buffer and takes a credit; else, when no data may
go, an IDLE, which takes no SEQ. The pattern position moves on by one, modulo 64. A NAK and a replay timeout (2 µs without ACK)
resend what the replay buffer then holds, and count one replay when it holds a flit (where no suite's replays of the port go
over their allotment in two successive windows, which fails a lane over instead); a NAK first drops from it the flits that it
acknowledges and those before the SEQ it names. 1 µs after an outstanding NAK another one waits to be sent. Nothing times out
where no NAK or no flit is outstanding. (R436, R437, R438, R439, R442, R443, R444) -/
def Obligations.LinkSendsControlReplayAndData : Prop :=
  ∀ (g : GPort) (s : State),
    let q := s.gport g.val
    let pat := (sget 4 q.txPat q.txPos).toNat
    let quiet := fun (s : State) => ∀ i ∈ gaconSuites s g.val, ∀ e,
      e = countReplay (sget {} (s.gport g.val).wins i) (s.suite i).hold.window → ¬ (e.replays = allotment 3 + 1 ∧ e.excess = true)
    let opp := fun (t : State) => exec (.flitOpportunity g) s = .next t ∧ (t.gport g.val).txPos = (q.txPos + 1) % 64 ∧ t.cells = s.cells
    (portUp q = true →
      (∀ f rest, q.control = f :: rest → ∃ t, opp t ∧ (t.gport g.val).out = q.out ++ [f] ∧ (t.gport g.val).control = rest ∧
        (t.gport g.val).nextSeq = q.nextSeq) ∧
      (∀ k f rest, q.control = [] → q.resend = (k, f) :: rest → ∃ t, opp t ∧ (t.gport g.val).out = q.out ++ [f] ∧
        (t.gport g.val).resend = rest ∧ (t.gport g.val).replay = q.replay ∧ (t.gport g.val).nextSeq = q.nextSeq) ∧
      (∀ v x p more, q.control = [] → q.resend = [] → q.txSwap = none → q.cut.find? (fun e => e.1 == pat) = some (v, ⟨x, p :: more⟩) →
        0 < nth q.credits pat 0 → q.replay.length < 512 → pat < 5 →
        ∃ t f, opp t ∧ (t.gport g.val).out = q.out ++ [f] ∧ f = linkFlit (nextHeader q q.nextSeq.toNat pat p.first p.last).1 p.bytes ∧
          (t.gport g.val).replay = q.replay ++ [(q.nextSeq, f)] ∧ (t.gport g.val).nextSeq = q.nextSeq + 1 ∧
          nth (t.gport g.val).credits pat 0 = nth q.credits pat 0 - 1) ∧
      (q.control = [] → q.resend = [] → (q.txSwap.isSome = true ∨ ∀ v, v < 5 ∨ v = pat → vcMay q v = false) →
        ∃ t, opp t ∧ (t.gport g.val).out = q.out ++ [linkFlit (nextHeader q 0 7 false false).1 []] ∧ (t.gport g.val).nextSeq = q.nextSeq ∧
          (t.gport g.val).replay = q.replay)) ∧
    (∀ f, controlOk q f 1 = true → quiet s → ∃ t, exec (.gaconNak g f) s = .next t ∧ (t.gport g.val).resend = (t.gport g.val).replay ∧
      (∀ e, e ∈ (t.gport g.val).replay ↔ e ∈ q.replay ∧ (lfAck f = q.ackSeen ∨ 2048 ≤ (lfAck f - e.1).toNat) ∧ (e.1 - fld f 96 12).toNat < 2048) ∧
      (t.gport g.val).replays = (if (t.gport g.val).replay = [] then q.replays else satAdd q.replays 1)) ∧
    (portUp q = true → q.replay ≠ [] →
      let s1 := s.waitUntil (q.ackAt + 30000)
      quiet s1 →
      ∃ t, exec (.replayTimeout g) s = .next t ∧ (t.gport g.val).resend = (s1.gport g.val).replay ∧
        (t.gport g.val).replays = (if (s1.gport g.val).replay = [] then (s1.gport g.val).replays else satAdd (s1.gport g.val).replays 1)) ∧
    (portUp q = true → q.nakOut = true →
      let s1 := s.waitUntil (q.nakAt + 15000)
      ∃ t, exec (.nakTimeout g) s = .next t ∧ (t.gport g.val).control.length = (s1.gport g.val).control.length + 1 ∧
        (t.gport g.val).nakAt = s1.now) ∧
    (q.replay = [] → exec (.replayTimeout g) s = .next s) ∧ (q.nakOut = false → exec (.nakTimeout g) s = .next s)

/-- O40. On a port that passes transactions and has no receive switch to come, when a receive lane fails, the lane counts as failed, and
k is the lowest logical lane that a failed lane carries: with FEATURES bit 4 agreed and sp the first good spare of the
direction, the port is in FAILOVER and a SWAP waits to be sent; with no spare, or without that feature, the port is FAILED,
reason 7. Where no failed lane carries a logical one, or a switch is still to come, nothing else changes. At its codeword, a
switch on which both ends have agreed carries logical lane k on the spare: at the receiving end one NAK more waits (no other
lane of the map having failed), and the transmitting end sends data again; either counts one failover, and the other direction
keeps its map; a switch not agreed on does not come. SWAP_ACK passes ACK and credits and agrees to the switch whose SWAP it
echoes. A transmitting end that receives SWAP is in FAILOVER, holds its data back, answers with one control flit, and keeps its
own receive switch. An UP port that loses its partner's signal is FAILED, reason 1. What a transmitter's own lane does changes
nothing at that end. (R432, R448, R449, R451) -/
def Obligations.LaneFailoverMovesToTheSpare : Prop :=
  ∀ (g : GPort) (s : State),
    let q := s.gport g.val
    (∀ lane : Fin 10, portUp q = true →
      let failed := q.rxFailed ||| BitVec.ofNat 10 (2 ^ lane.val)
      ((q.rxSwap.isSome = true ∨ q.rxMap.findIdx? (fun l => failed.getLsbD l) = none) →
        exec (.laneFailure g true lane) s = .next (s.updGport g.val (fun q => { q with rxFailed := failed }))) ∧
      ∀ k, q.rxSwap = none → q.rxMap.findIdx? (fun l => failed.getLsbD l) = some k →
      (∀ sp more, spares failed q.rxSpares = sp :: more → q.features.getLsbD 4 = true →
        ∃ t w, exec (.laneFailure g true lane) s = .next t ∧ (t.gport g.val).state = .failover ∧ (t.gport g.val).rxFailed = failed ∧
          (t.gport g.val).rxSwap = some w ∧ w.acked = false ∧ w.logical = k ∧ w.spare = sp ∧ (t.gport g.val).rxMap = q.rxMap ∧
          (t.gport g.val).control.length = q.control.length + 1 ∧ (t.gport g.val).replay = q.replay) ∧
      (spares failed q.rxSpares = [] ∨ q.features.getLsbD 4 = false → ∃ t, exec (.laneFailure g true lane) s = .next t ∧ (t.gport g.val).state = .failed ∧
        (t.gport g.val).failReason = 7)) ∧
    (∀ lane, exec (.laneFailure g false lane) s = .next s) ∧
    (∀ w, q.rxSwap = some w → w.acked = true →
      let p := (s.waitUntil (codewordAt q q.rxWord w.codeword s.now)).gport g.val
      (p.rxMap.set w.logical w.spare).findIdx? (fun l => p.rxFailed.getLsbD l) = none →
      ∃ t, exec (.failoverSwitch g true) s = .next t ∧ (t.gport g.val).rxMap = p.rxMap.set w.logical w.spare ∧
      (t.gport g.val).rxSwap = none ∧ (t.gport g.val).nakOut = true ∧ (t.gport g.val).control.length = p.control.length + 1 ∧
      (t.gport g.val).failovers = satAdd p.failovers 1 ∧ (t.gport g.val).txMap = p.txMap) ∧
    (∀ w, q.txSwap = some w → w.acked = true →
      let p := (s.waitUntil (codewordAt q q.txWord w.codeword s.now)).gport g.val
      ∃ t, exec (.failoverSwitch g false) s = .next t ∧ (t.gport g.val).txMap = p.txMap.set w.logical w.spare ∧
      (t.gport g.val).txSwap = none ∧ (t.gport g.val).failovers = satAdd p.failovers 1 ∧ (t.gport g.val).rxMap = p.rxMap) ∧
    (∀ (rx : Bool) w, (if rx then q.rxSwap else q.txSwap) = some w → w.acked = false → exec (.failoverSwitch g rx) s = .next s) ∧
    (∀ f, controlOk q f 2 = true → ∃ t, exec (.gaconSwap g f) s = .next t ∧ (t.gport g.val).state = .failover ∧
      (t.gport g.val).control.length = q.control.length + 1 ∧ (t.gport g.val).rxSwap = q.rxSwap ∧
      (t.gport g.val).txSwap = some ⟨lfByte f 5, lfByte f 6, fld f 128 64, true⟩) ∧
    (∀ f, controlOk q f 3 = true → ∃ t, exec (.gaconSwapAck g f) s = .next t ∧
      (∀ v < 5, nth (t.gport g.val).credits v 0 = nth q.credits v 0 + (if v = lfCvc f then lfCount f else 0)) ∧
      (t.gport g.val).txSwap = q.txSwap ∧ (t.gport g.val).rxSwap = q.rxSwap.map (fun w => { w with acked := w.acked ||
        (lfByte f 4 == 1 && lfByte f 5 == w.logical && lfByte f 6 == w.spare && fld f 128 64 == w.codeword) })) ∧
    (portUp q = true → ∃ t, exec (.partnerSignalLost g) s = .next t ∧ (t.gport g.val).state = .failed ∧ (t.gport g.val).failReason = 1 ∧
      (t.gport g.val).replay = [] ∧ (t.gport g.val).cut = []) ∧
    (portUp q = false → exec (.partnerSignalLost g) s = .next s)

/-- O41. A register write of a function that does not answer on the bus changes nothing; of one that does: from DOWN or FAILED, TRAIN
through the PF takes a port with a valid DOMAIN_ID to DETECT; without one only FAIL_REASON becomes 4; through a VF nothing of
the port changes. DETECT with signal on at least 4 lanes goes to EQUALISE, else to FAILED, reason 1; EQUALISE with at least 4
good lanes in each direction to NEGOTIATE, the others marked failed, else reason 2; NEGOTIATE with a common version and another
part to ALIGN, with its own capability block sent, the partner's number and port, 8 lanes only when neither end has fewer and
neither restricts them, features both ends offer (below version 2.0 only bits 0, 1 and 4) and the partner's credits; no common
version is reason 3, the same part number reason 5; ALIGN with lock to UP, SEQ 0 in both directions and no flit outstanding,
without lock reason 6. DOWN takes an UP port to DOWN, reason 8. DOMAIN_ID takes the part number through the PF while every port
is DOWN or FAILED, and through a VF, or otherwise, is unchanged. (R432, R445, R446, R451, R452) -/
def Obligations.TrainingBringsAPortUp : Prop :=
  ∀ (g : GPort) (s : State),
    let q := s.gport g.val
    let st := fun (t : State) => (t.gport g.val).state
    let why := fun (t : State) => (t.gport g.val).failReason
    let fails := fun (i : Instr) (r : BitVec 4) => ∃ t, exec i s = .next t ∧ st t = .failed ∧ why t = r
    (∀ f v, s.answers f = false → exec (.gcCtlTrain f g v) s = .next s ∧ exec (.gcCtlDown f g v) s = .next s ∧ exec (.domainIdWrite f v) s = .next s) ∧
    (∀ v, s.answers .pf = true → (q.state = .down ∨ q.state = .failed) → s.domainValid = true →
      ∃ t, exec (.gcCtlTrain .pf g v) s = .next t ∧ st t = .detect ∧ (t.gport g.val).lanes4 = v.getLsbD 0 ∧ (t.gport g.val).rate100 = v.getLsbD 1 ∧
        (t.gport g.val).feat = fld v 8 5 ∧ ∀ h, h ≠ g.val → t.gport h = s.gport h) ∧
    (∀ v, s.answers .pf = true → (q.state = .down ∨ q.state = .failed) → s.domainValid = false →
      ∃ t, exec (.gcCtlTrain .pf g v) s = .next t ∧ st t = q.state ∧ why t = 4) ∧
    (∀ v i, s.answers (.vf i) = true → ∃ t, exec (.gcCtlTrain (.vf i) g v) s = .next t ∧ t.gacon = s.gacon ∧ t.devLog.next = s.devLog.next + 1) ∧
    (∀ v, s.answers .pf = true → portUp q = true → ∃ t, exec (.gcCtlDown .pf g v) s = .next t ∧ st t = .down ∧ why t = 8 ∧ (t.gport g.val).replay = []) ∧
    (∀ m, q.state = .detect → 4 ≤ (lanes m).length → ∃ t, exec (.detect g m) s = .next t ∧ st t = .equalise) ∧
    (∀ m, q.state = .detect → (lanes m).length < 4 → fails (.detect g m) 1) ∧
    (∀ r x slow, q.state = .equalise → 4 ≤ (lanes r).length → 4 ≤ (lanes x).length →
      ∃ t, exec (.equalise g r x slow) s = .next t ∧ st t = .negotiate ∧ (t.gport g.val).rxFailed = ~~~ r ∧ (t.gport g.val).txFailed = ~~~ x) ∧
    (∀ r x slow, q.state = .equalise → ((lanes r).length < 4 ∨ (lanes x).length < 4) → fails (.equalise g r x slow) 2) ∧
    (∀ cap, q.state = .negotiate → cap.verMin ≤ 0x20 → 0x10 ≤ cap.verMax → cap.verMin ≤ cap.verMax → cap.part ≠ s.part →
      ∃ t, exec (.negotiate g cap) s = .next t ∧ st t = .align ∧ (t.gport g.val).cap = some (ownBlock s.part g q) ∧ (t.gport g.val).partnerPart = cap.part ∧ (t.gport g.val).partnerG = cap.port ∧
        (t.gport g.val).version = (if cap.verMax ≤ 0x20 then cap.verMax else 0x20) ∧
        ((t.gport g.val).stLanes4 = false ↔ 8 ≤ (lanes (~~~ q.rxFailed)).length ∧ 8 ≤ (lanes (~~~ q.txFailed)).length ∧ cap.goodLanes8 = true ∧
          q.lanes4 = false ∧ cap.lanes4 = false) ∧
        (cap.verMax < 0x20 → (t.gport g.val).features = q.feat &&& cap.feat &&& 0x13) ∧
        (0x20 ≤ cap.verMax → (t.gport g.val).features = q.feat &&& cap.feat) ∧ (∀ v < 5, nth (t.gport g.val).credits v 0 = nth cap.credits v 0)) ∧
    (∀ cap, q.state = .negotiate → (0x20 < cap.verMin ∨ cap.verMax < 0x10) → fails (.negotiate g cap) 3) ∧
    (∀ cap, q.state = .negotiate → cap.verMin ≤ 0x20 → 0x10 ≤ cap.verMax → cap.verMin ≤ cap.verMax → cap.part = s.part → fails (.negotiate g cap) 5) ∧
    (q.state = .align → ∃ t, exec (.align g true) s = .next t ∧ st t = .up ∧ (t.gport g.val).nextSeq = 0 ∧ (t.gport g.val).expSeq = 0 ∧
      (t.gport g.val).replay = [] ∧ (t.gport g.val).rxMap.length ≤ (if q.stLanes4 then 4 else 8)) ∧
    (q.state = .align → fails (.align g false) 6) ∧
    (∀ v, s.answers .pf = true → (∀ h < 16, (s.gport h).state = .down ∨ (s.gport h).state = .failed) →
      exec (.domainIdWrite .pf v) s = .next { s with domainValid := v.getLsbD 63, part := fld v 0 6 }) ∧
    (∀ v i, s.answers (.vf i) = true → ∃ t, exec (.domainIdWrite (.vf i) v) s = .next t ∧ t.part = s.part ∧ t.domainValid = s.domainValid) ∧
    (∀ v, s.answers .pf = true → portUp q = true → ∃ t, exec (.domainIdWrite .pf v) s = .next t ∧ t.part = s.part ∧ t.domainValid = s.domainValid)

/-- O42. For the oldest transaction of a virtual channel at a port: it leaves the channel. For another part, with hops left, FORWARD, a
route, and for a READ the port serving READs, for a NOTICE the route's port passing them, it stands last in the route's channel
with HOPS one less, its other header fields unchanged. A WRITE of one granule to HBM that it may reach (a window opened to other
parts, or for this part's own transaction one of its suite's) is stored in the next remote slot of the port, where no refresh
displaces a granule: one whose POISON bit is 0 holds the body's 64 bytes, and no other byte changes; a WRITE that may not reach
its range stores nothing. A WRITE of whole strips inside a 4-KiB block of a scratchpad that it may reach, in a RUNNING suite
that owns the bay, becomes in the next remote slot of the cell's die as many landing strips to be decided. A READ of a tile of
HBM or of a pane that it may reach is answered, to a part with a route, by a RETURN of LENGTH 4,096 with the READ's tag and the
bytes read; one that it may not, or that the port does not serve, by a RETURN of LENGTH 0. Without a remote slot a WRITE or READ
waits. A RETURN gives the asking engine its tile: the body without VOID granules when POISON is 0, 64 VOID granules when LENGTH
is 0. A MSG goes down the bay node of its cell last, with bit 121 set. A BARCMD of ARRIVE alone adds an arrival to an armed
barrier that it may command and that still waits for more. A NOTICE joins the error queue of its suite when that exists, and is
logged when not. (R453, R454, R456, R457, R458, R461, R462, R463, R465) -/
def Obligations.GaconTransactionsActAtTheirPart : Prop :=
  ∀ (g : GPort) (vc : Vc) (s : State) (x : Txn) (op : Nat),
    let here := txnDst x = s.part.toNat
    let a := txnAddr x % 2 ^ 48
    let popped := fun (t : State) => sget [] (t.gport g.val).rxq vc.val = (sget [] (s.gport g.val).rxq vc.val).drop 1
    let poppedFrom := fun (s1 t : State) => sget [] (t.gport g.val).rxq vc.val = (sget [] (s1.gport g.val).rxq vc.val).drop 1
    let sent := fun (t : State) (h : Nat) (y : Txn) => sget [] (t.gport h).txq vc.val = sget [] (s.gport h).txq vc.val ++ [y]
    gHead s g.val vc.val op = some x →
    (∀ i h, [(0, Instr.gaconWrite g vc), (1, .gaconRead g vc), (2, .gaconReturn g vc), (3, .gaconMsg g vc), (4, .gaconBarcmd g vc),
        (5, .gaconNotice g vc)].find? (fun e => e.1 == op) = some i →
      ¬ here → txnHops x ≠ 0 → (s.gport g.val).features.getLsbD 0 = true → s.routeTo (txnDst x) = some h →
      (op = 1 → x.arrived = none ∨ (s.gport g.val).features.getLsbD 1 = true) → (op = 5 → (s.gport h).features.getLsbD 3 = true) →
      ∃ t y, exec i.2 s = .next t ∧ popped t ∧ sent t h y ∧ txnHops y = txnHops x - 1 ∧ txnOp y = op ∧ txnAddr y = txnAddr x ∧
        txnLen y = txnLen x ∧ txnSeq y = txnSeq x ∧ txnSrc y = txnSrc x ∧ y.body = x.body ∧ t.cells = s.cells ∧ t.ports = s.ports) ∧
    (here → op = 0 → isHbm a = true →
      (∀ n, a % 64 = 0 → txnLen x = 64 → hbmOpen s x a 64 = true → s.remoteSlotOf (stackOf a) g.val = some n →
        let s1 := s.waitSlot (stackOf a) n
        (txnPoison x).getLsbD 0 = false → displaced (s1.port (stackOf a)) n = [] → Memory.wf (s1.port (stackOf a)).data = true →
        ∃ t, exec (.gaconWrite g vc) s = .next t ∧ poppedFrom s1 t ∧ mreadN (t.port (stackOf a)).data (stackOff a) 64 = slice x.body 0 64 ∧
          (∀ b, (b < stackOff a ∨ stackOff a + 64 ≤ b) → mread (t.port (stackOf a)).data b = mread (s1.port (stackOf a)).data b)) ∧
      (hbmOpen s x a (txnLen x) = false → ∃ t, exec (.gaconWrite g vc) s = .next t ∧ popped t ∧
        ∀ p, (t.port p).data = (s.port p).data ∧ (t.port p).check = (s.port p).check)) ∧
    (∀ c o, here → op = 0 → isHbm a = false → spadOf a = some (c, o) → spadOpen s x c = true →
      o % 128 = 0 → txnLen x % 128 = 0 → txnLen x ≠ 0 → o % 4096 + txnLen x ≤ 4096 →
      (s.spineSlotOf (cellDie c) g.val = none → exec (.gaconWrite g vc) s = .next s) ∧
      (∀ n p, s.spineSlotOf (cellDie c) g.val = some (n, p) →
        let s1 := s.waitSlot p n
        (cellSuite (s1.cell c)).map (fun i => (s1.suite i).state) = some .running →
        (s1.bay (cellBay (injection c))).owner.map (fun o => o.val) = cellSuite (s1.cell c) →
        ∃ t, exec (.gaconWrite g vc) s = .next t ∧ poppedFrom s1 t ∧
          sget ⟨x, 0, []⟩ (t.gport g.val).openW vc.val = ⟨x, (s1.gport g.val).writes, List.range (txnLen x / 128)⟩ ∧
          ∀ k, (t.port k).data = (s1.port k).data)) ∧
    (∀ h, here → op = 1 → txnSrc x ≠ s.part.toNat →
      let may := (x.arrived.isNone || (s.gport g.val).features.getLsbD 1) && a % 4096 == 0
      let answered := fun (s1 t : State) (tile : List Byte × W64) => ∃ y, exec (.gaconRead g vc) s = .next t ∧ poppedFrom s1 t ∧
        sget [] (t.gport h).txq vc.val = sget [] (s1.gport h).txq vc.val ++ [y] ∧ txnOp y = 2 ∧ txnLen y = 4096 ∧ txnSeq y = txnSeq x ∧
        txnDst y = txnSrc x ∧ y.body = tile.1 ∧ txnPoison y = tile.2 ∧ ∀ k, (t.port k).data = (s1.port k).data
      (∀ n, may = true → isHbm a = true → hbmOpen s x a 4096 = true → s.remoteSlotOf (stackOf a) g.val = some n →
        let s1 := s.waitSlot (stackOf a) n
        txnSrc x ≠ s1.part.toNat → s1.routeTo (txnSrc x) = some h → displaced (s1.port (stackOf a)) n = [] → ∃ t, answered s1 t (s1.fetchTile a)) ∧
      (∀ c o n p, may = true → isHbm a = false → spadOf a = some (c, o) → spadOpen s x c = true →
        s.spineSlotOf (cellDie c) g.val = some (n, p) →
        let s1 := s.waitSlot p n
        txnSrc x ≠ s1.part.toNat → s1.routeTo (txnSrc x) = some h → ∃ t, answered s1 t (s1.fetchPane c o)) ∧
      (s.routeTo (txnSrc x) = some h →
        (may = false ∨ (isHbm a = true ∧ hbmOpen s x a 4096 = false) ∨
          (isHbm a = false ∧ ∀ c o, spadOf a = some (c, o) → spadOpen s x c = false)) →
        ∃ t y, exec (.gaconRead g vc) s = .next t ∧ popped t ∧ sent t h y ∧ txnOp y = 2 ∧ txnLen y = 0 ∧
          txnSeq y = txnSeq x ∧ txnDst y = txnSrc x ∧ t.ports = s.ports)) ∧
    (∀ id, here → op = 2 →
      let h := txnSeq x / 2 ^ 28
      (s.gport h).asked.find? (fun e => e.2.toNat == txnSeq x) = some (id, BitVec.ofNat 32 (txnSeq x)) →
      (txnLen x ≠ 0 → txnPoison x = 0 → ∃ t, exec (.gaconReturn g vc) s = .next t ∧
        (t.gport h).reads = (s.gport h).reads ++ [⟨id, 0, false, slice x.body 0 4096, [], none⟩] ∧ ∀ e ∈ (t.gport h).asked, e.2.toNat ≠ txnSeq x) ∧
      (txnLen x = 0 → ∃ t r, exec (.gaconReturn g vc) s = .next t ∧ (t.gport h).reads = (s.gport h).reads ++ [r] ∧ r.id = id ∧
        r.granules.length = 64 ∧ ∀ e ∈ r.granules, e.2 = .void)) ∧
    (here → op = 3 →
      let m := txnMsg x ||| (1#256 <<< 121)
      ∃ t, exec (.gaconMsg g vc) s = .next t ∧ popped t ∧ t.cells = s.cells ∧
        (t.bay (cellBay (mDstQueue m / 256))).down = (s.bay (cellBay (mDstQueue m / 256))).down ++ [(cellId (mDstQueue m / 256), m, some vc.val)]) ∧
    (∀ n, here → op = 4 → barOf a = some n → ((s.barrier n).remote = true ∨ x.arrived = none) → (s.barrier n).armed = true → leAt x.body 0 8 / 2 ^ 59 % 32 = 4 →
      (s.barrier n).arrived + 1 ≠ (s.barrier n).latched →
      ∃ t, exec (.gaconBarcmd g vc) s = .next t ∧ popped t ∧ t.barrier n = { s.barrier n with arrived := (s.barrier n).arrived + 1 } ∧
        t.cells = s.cells) ∧
    (here → op = 5 →
      ((s.suite (mSuite (txnMsg x))).state ≠ .none → ∃ t, exec (.gaconNotice g vc) s = .next t ∧ popped t ∧
        (t.suite (mSuite (txnMsg x))).errq.next = (s.suite (mSuite (txnMsg x))).errq.next + 1 ∧ t.cells = s.cells) ∧
      ((s.suite (mSuite (txnMsg x))).state = .none → ∃ t, exec (.gaconNotice g vc) s = .next t ∧ popped t ∧
        t.devLog.next = s.devLog.next + 1 ∧ t.suites = s.suites))

/-- O43. For a taken command that may be answered: SESSION_OPEN (not exclusive) with a common version and a free number opens session k +
1 at the highest common version with the next generation and returns version, number and generation; without a common version it
answers NO_VERSION with 0x0204 and 0x0302 and opens none. SESSION_CLOSE of an open session ends it and its leases. DEVICE_STATUS
answers with the state code first and changes nothing but the mailbox and what the bus sees. LEASE_ACQUIRE of an unheld,
unbroken resource (kinds 1 to 4) makes the session its holder under the next generation; LEASE_RELEASE by the holder frees it.
LOG_READ of the device log writes the records from the named number on by DMA, answers their bytes and the next number, and
removes none. METER_READ of every suite answers the number of records copied and changes no record. TIME_SET sets the label at
the present tick and returns that tick. (R507, R508, R509, R513, R557, R611, R612, R617, R618, R638) -/
def Obligations.SessionsLeasesAndLogs : Prop :=
  ∀ (x : Taken) (s : State),
    (∀ v k, mayAnswer s x 1 (whole 8 4 ++ [(12, 1)]) → param x 12 1 = 0 → param x 8 2 ≤ param x 10 2 →
      versions.find? (fun v => decide (param x 8 2 ≤ v) && decide (v ≤ param x 10 2)) = some v →
      (List.range 16).find? (fun k => !s.mbox.sessions.any (fun e => e.1 == k + 1)) = some k →
      ∃ t, exec (.sessionOpen x.ticket) s = .next t ∧ answered t x 0 false (leBytes 2 v ++ leBytes 2 (k + 1) ++ leBytes 4 (s.mbox.sessionGen + 1).toNat) ∧
        sget ⟨0, 0⟩ t.mbox.sessions (k + 1) = ⟨BitVec.ofNat 16 v, s.mbox.sessionGen + 1⟩ ∧ t.mbox.leases = s.mbox.leases) ∧
    (mayAnswer s x 1 (whole 8 4 ++ [(12, 1)]) → param x 8 2 ≤ param x 10 2 →
      (∀ v ∈ versions, v < param x 8 2 ∨ param x 10 2 < v) →
      ∃ t, exec (.sessionOpen x.ticket) s = .next t ∧ answered t x 6 false [4, 2, 2, 3] ∧ t.mbox.sessions = s.mbox.sessions) ∧
    (mayAnswer s x 2 [] → sessionOpen s x = true → sorted s.mbox.sessions = true →
      ∃ t, exec (.sessionClose x.ticket) s = .next t ∧ answered t x 0 false [] ∧ sessionOpen t x = false ∧
        ∀ e ∈ t.mbox.leases, e.2.held = true → e.2.session ≠ x.session) ∧
    (mayAnswer s x 3 [] → ∃ t more, exec (.deviceStatus x.ticket) s = .next t ∧ answered t x 0 false (BitVec.ofNat 8 (deviceCode s.devState) :: more) ∧
      { t with mbox := s.mbox, out := s.out, pcie := s.pcie } = s) ∧
    (mayAnswer s x 0x52 (whole 8 1 ++ whole 12 4) → param x 8 1 ≠ 0 → leaseOk s (param x 8 1) (param x 12 4) = true →
      let l := sget {} s.mbox.leases (leaseIx (param x 8 1) (param x 12 4))
      l.held = false → l.broken = false →
      ∃ t l', exec (.leaseAcquire x.ticket) s = .next t ∧ answered t x 0 false (leBytes 4 (l.gen + 1).toNat) ∧
        sget {} t.mbox.leases (leaseIx (param x 8 1) (param x 12 4)) = l' ∧ l'.held = true ∧ l'.session = x.session ∧ l'.gen = l.gen + 1) ∧
    (mayAnswer s x 0x53 (whole 8 1 ++ whole 12 4) → leaseOk s (param x 8 1) (param x 12 4) = true →
      let l := sget {} s.mbox.leases (leaseIx (param x 8 1) (param x 12 4))
      l.held = true → l.session = x.session →
      ∃ t, exec (.leaseRelease x.ticket) s = .next t ∧ answered t x 0 false [] ∧
        sget {} t.mbox.leases (leaseIx (param x 8 1) (param x 12 4)) = { l with held := false }) ∧
    (mayAnswer s x 0x60 (whole 8 2 ++ whole 12 16) → param x 8 1 = 0 →
      let l := logRecords s.devLog (param x 12 4) (param x 24 4 / 32)
      l ≠ [] →
      ∃ t w, exec (.logRead x.ticket) s = .next t ∧ t.out.dma = s.out.dma ++ payloads x.fn (param x 16 8) (l.flatMap (fun e => leBytes 32 e.2.toNat)) ++ [w] ∧
        answered t x 0 false (leBytes 4 (32 * l.length) ++ leBytes 4 ((l.getLast?.map (fun e => e.1 + 1)).getD 0)) ∧
        t.devLog.records = s.devLog.records ∧ t.errLog = s.errLog ∧ t.suites = s.suites) ∧
    (mayAnswer s x 0x33 (whole 8 1 ++ whole 12 4 ++ whole 16 12) → param x 8 1 = 0xFF →
      let p := meterPick none (param x 24 4) (s.metering.ring.filter (fun e => decide (param x 12 4 ≤ e.1))) (param x 12 4)
      ∃ t, exec (.meterRead x.ticket) s = .next t ∧ answered t x 0 false (leBytes 4 p.1.length ++ leBytes 4 p.2) ∧ t.metering = s.metering) ∧
    (mayAnswer s x 0x34 (whole 8 8) →
      ∃ t, exec (.timeSet x.ticket) s = .next t ∧ answered t x 0 false (leBytes 8 s.tick.toNat) ∧
        t.metering.label = some (BitVec.ofNat 64 (param x 8 8), s.tick) ∧ t.metering.ring = s.metering.ring ∧ t.tick = s.tick)

/-- O44. For a taken command that may be answered: SUITE_CREATE whose image passes its checks and whose resources are free creates an
EMPTY suite whose bays are its rectangle's. IMAGE_LOAD of a host image whose header passes its checks, into a suite that may
load, leaves every cell of the suite IDLE and goes on with the load; when the load then succeeds, the suite is LOADED and the
command answers OK. IMAGE_UNLOAD (3.x) of a suite that is not EMPTY leaves it EMPTY. SUITE_DESTROY releases everything and
closes one metering record. SUITE_START of a LOADED or STOPPED suite makes it RUNNING with its bays ON. SUITE_STOP with FORCE 0
of a RUNNING suite away from a boundary marks it as stopping, stays in progress and writes no completion; at a serving suite's
boundary it stops the suite at once and answers. SUITE_STOP with FORCE 1 leaves the suite LOADED, its cells IDLE with every byte
0, and answers. (R481, R485, R486, R487, R519, R530, R545, R615) -/
def Obligations.SuitesAreCreatedLoadedRunAndStopped : Prop :=
  ∀ (x : Taken) (s : State),
    let i := param x 8 1
    (∀ b h m r, mayAnswer s x 0x10 (whole 8 12) → imageParts (b.take (param x 16 4)) = some (h, m) → checkImage s h m true = 0 →
      reserve s h m = .inr r →
      ∃ t result, exec (.suiteCreate x.ticket (some b)) s = .next t ∧ answered t x 0 false result ∧ (t.suite r.suite).state = .empty ∧
        (t.suite r.suite).header = h ∧ ∀ k ∈ rectangle r.origin (2 ^ hLog2w h) (2 ^ hLog2h h), (t.bay k).owner = some (Fin.ofNat 32 r.suite)) ∧
    (∀ b h m peers, mayAnswer s x 0x12 ([(8, 255), (9, 255), (10, 1)] ++ whole 12 28) → param x 9 1 = 0 → asksCreate s x = false →
      suiteGate s i [.empty, .loaded, .stopped, .faulted] = none → imageParts (b.take (param x 24 8)) = some (h, m) →
      checkImage s h m false = 0 → compatible (s.suite i) h m = true → (∀ k ∈ suiteBays s i, s.repair.good.getLsbD k = true) →
      ∃ t r, exec (.imageLoad x.ticket (some b) peers) s = .next t ∧ t.mbox.load = some r ∧ r.ticket = x.ticket ∧ r.suite = i ∧
        { x with running := true } ∈ t.mbox.taken ∧ (t.suite i).state = (s.suite i).state ∧ (t.suite i).sections = [] ∧
        ∀ c ∈ suiteCells s i, (t.cell c).state = .idle) ∧
    (∀ b peers r ix s', startable s x.ticket 0x12 (fun _ => true) = some x → x.running = true → x.lost = false → s.mbox.load = some r →
      r.ticket = x.ticket → param x 9 1 = 0 →
      loadInto s r (b.take (param x 24 8)) (param x 24 8) peers (nbit (param x 10 1) 0) = (0, ix, s') →
      (s'.ring x.fn true).enable = true →
      ∃ t result, exec (.imageLoad x.ticket (some b) peers) s = .next t ∧ answered t x 0 false result ∧ (t.suite r.suite).state = .loaded ∧
        t.mbox.load = none) ∧
    (mayAnswer s x 0x13 (whole 8 1) → 0x0300 ≤ s.versionOf x → suiteGate s i [.loaded, .stopped, .faulted] = none →
      ∃ t, exec (.imageUnload x.ticket) s = .next t ∧ answered t x 0 false [] ∧ (t.suite i).state = .empty ∧ (t.suite i).sections = []) ∧
    (mayAnswer s x 0x11 (whole 8 1) → suiteGate s i [.empty, .loaded, .stopped, .faulted] = none →
      ∃ t, exec (.suiteDestroy x.ticket) s = .next t ∧ answered t x 0 false [] ∧ t.suite i = {} ∧ t.metering.nextSeq = s.metering.nextSeq + 1) ∧
    (mayAnswer s x 0x14 (whole 8 1) → suiteGate s i [.loaded, .stopped] = none →
      ∃ t, exec (.suiteStart x.ticket) s = .next t ∧ answered t x 0 false [] ∧ (t.suite i).state = .running ∧ (t.suite i).stopping = false ∧
        ∀ b ∈ suiteBays s i, (t.bay b).power = .on) ∧
    (mayAnswer s x 0x15 [(8, 255), (9, 1)] → forces s x = false → suiteGate s i [.running] = none → (s.suite i).stopping = false →
      ((s.suite i).serving = false → ∃ t, exec (.suiteStop x.ticket) s = .next t ∧ (t.suite i).stopping = true ∧ (t.suite i).state = .running ∧
        t.out.dma = s.out.dma ∧ { x with running := true } ∈ t.mbox.taken ∧ t.cells = s.cells) ∧
      ((s.suite i).serving = true → (s.suite i).feeder.isOpen = false → (s.suite i).sb.closed = none →
        (s.suite i).feeder.next = (s.suite i).sb.stepFirst → (s.suite i).feeder.phase = 2 → s.mbox.taken = [x] →
        ∃ t, exec (.suiteStop x.ticket) s = .next t ∧ answered t x 0 false [] ∧ (t.suite i).state = .stopped)) ∧
    (mayAnswer s x 0x15 [(8, 255), (9, 1)] → forces s x = true → suiteGate s i [.running, .stopped, .faulted] = none →
      ∃ t, exec (.suiteStopForce x.ticket) s = .next t ∧ answered t x 0 false [] ∧ (t.suite i).state = .loaded ∧
        ∀ c ∈ suiteCells s i, (t.cell c).state = .idle ∧ (t.cell c).mem = [])

/-- O45. For a taken command that may be answered: SEQ_SUBMIT to a suite that accepts it puts the entry it asks for, QUEUED, into the
lowest FREE entry of the suite (the lowest DONE one where none is FREE) and returns its number; a refused one (session version
3.0 or above) answers REFUSED with its reason, 5 where no entry is FREE or DONE, and changes no entry. SEQ_CANCEL of a QUEUED,
PREFILL or DECODE entry with its tag gives it REASON 3 and ends its service. POLICY_SET sets the device's cap (1,500 to 3,000
W), a suite's FLOOR and CEILING with TARGET brought between the effective floor and the ceiling, or the slot split for the next
boot. COUNTER_CONFIG gives each named cell of the suite its select register and sets CTR_USER. SAMPLE_CONFIG with a period of
256 to 16,777,215 and a ring inside one window with a write slot sets SUITE_OBS. (R337, R405, R406, R515, R535, R536, R586,
R590) -/
def Obligations.SequencesPoliciesAndConfiguration : Prop :=
  ∀ (x : Taken) (s : State),
    let i := param x 8 1
    let alive := [SuiteState.empty, .loaded, .running, .stopped, .faulted]
    let u := s.suite ((cmdSuite x).getD 0)
    let submitUsed := [(8, 255), (9, if s.versionOf x < 0x0300 then 255 else 63)] ++ whole 10 29 ++ whole 40 6 ++ whole 48 4 ++ whole 56 8
    (mayAnswer s x 0x20 submitUsed → suiteGate s ((cmdSuite x).getD 0) [.loaded, .running, .stopped] = none → u.sb.closed = none →
      let why := submitRefusal u (submitted s x) (param x 38 1)
      (∀ k, (firstEntry s u .free).orElse (fun _ => firstEntry s u .done) = some k → why = 0 →
        ∃ t, exec (.seqSubmit x.ticket) s = .next t ∧ answered t x 0 false (leBytes 2 k) ∧ t.seqEntry k = submitted s x ∧
          (t.seqEntry k).state = .queued ∧ ∀ j, j ≠ k → t.seqEntry j = s.seqEntry j) ∧
      (why ≠ 0 → 0x0300 ≤ s.versionOf x →
        ∃ t, exec (.seqSubmit x.ticket) s = .next t ∧ answered t x 0x20 false (leBytes 1 why) ∧ t.seqs = s.seqs) ∧
      (firstEntry s u .free = none → firstEntry s u .done = none → why = 0 → 0x0300 ≤ s.versionOf x →
        ∃ t, exec (.seqSubmit x.ticket) s = .next t ∧ answered t x 0x20 false (leBytes 1 5) ∧ t.seqs = s.seqs)) ∧
    (mayAnswer s x 0x21 (whole 8 1 ++ whole 12 12) → suiteGate s ((cmdSuite x).getD 0) [.loaded, .running, .stopped] = none → u.sb.closed = none →
      let k := param x 12 4
      u.seqBlocks.contains (k / 1024) = true → (takesToken (s.seqEntry k) = true ∨ (s.seqEntry k).state = .queued) → (s.seqEntry k).hostTag.toNat = param x 16 8 →
      sorted s.seqs = true →
      ∃ t, exec (.seqCancel x.ticket) s = .next t ∧ answered t x 0 false [] ∧ (t.seqEntry k).reason = 3 ∧
        ((t.seqEntry k).state = .retiring ∨ (t.seqEntry k).state = .done) ∧ (t.seqEntry k).position = (s.seqEntry k).position) ∧
    (mayAnswer s x 0x30 policyBytes →
      (param x 8 1 = 0 → 1500 ≤ param x 12 2 → param x 12 2 ≤ 3000 →
        ∃ t, exec (.policySetDevice x.ticket) s = .next t ∧ answered t x 0 false [] ∧ t.power.cap.toNat = param x 12 2 ∧ t.suites = s.suites) ∧
      (param x 8 1 = 1 → suiteGate s (param x 9 1) alive = none → param x 14 1 ≤ param x 15 1 → param x 15 1 ≤ 3 →
        ∃ t, exec (.policySetSuite x.ticket) s = .next t ∧ answered t x 0 false [] ∧
          let f := (t.suite (param x 9 1)).freq
          let old := (s.suite (param x 9 1)).freq.target
          let floor := effFloor (t.suite (param x 9 1))
          f.floor.toNat = param x 14 1 ∧ f.ceiling.toNat = param x 15 1 ∧
          f.target = (if old < floor then floor else if f.ceiling < old then f.ceiling else old)) ∧
      (param x 8 1 = 2 → param x 16 1 ≤ 3 →
        ∃ t, exec (.policySetSplit x.ticket) s = .next t ∧ answered t x 0 false [] ∧ t.repair.bootSplit.toNat = param x 16 1 ∧
          t.repair.split = s.repair.split)) ∧
    (mayAnswer s x 0x31 ([(8, 255), (9, 1)] ++ whole 12 3 ++ whole 16 2) → suiteGate s i alive = none → param x 14 1 ≤ 7 →
      (param x 12 2 ∈ suiteCells s i) → (nbit (param x 16 2) 14 = false ∨ param x 14 1 % 2 = 1) → param x 12 2 ≠ 0xFFFF →
      ∃ t, exec (.counterConfig x.ticket) s = .next t ∧ answered t x 0 false [] ∧
        sget (ctrSelOf 0 0) (t.cell (param x 12 2)).ctrs.sel (param x 14 1) = ctrSelOf (param x 16 2) 0 ∧
        (∀ c, c ≠ param x 12 2 → t.cell c = s.cell c) ∧ (t.suite i).obs.ctrUser = (param x 9 1 == 1)) ∧
    (∀ w, mayAnswer s x 0x32 ([(8, 255), (9, 1)] ++ whole 12 6 ++ whole 20 8) → suiteGate s i alive = none →
      (s.suite i).windows[param x 16 2]? = some w → 256 ≤ param x 12 4 → param x 12 4 ≤ 16777215 → param x 24 4 % 128 = 0 →
      param x 20 4 * 4096 + 32 * param x 24 4 ≤ w.extents * 2 ^ 24 → hasWriteSlot s i w.stack = true →
      ∃ t, exec (.sampleConfig x.ticket) s = .next t ∧ answered t x 0 false [] ∧ (t.suite i).obs.sampleEn = (param x 9 1 == 1) ∧
        (t.suite i).obs.n.toNat = param x 12 4 ∧ (t.suite i).obs.records.toNat = param x 24 4 ∧ t.cells = s.cells)

/-- O46. For a taken command that may be answered, with presence asserted and material of the right length: KEY_PROVISION OP 0 programs
an FK slot that is neither programmed nor revoked; OP 1 loads a BBK slot while VBAT is good and the seal loop closed; OP 3
provisions an unused signer slot with digest and SVN floor; OP 4 revokes a signer and OP 5 an FK slot that is not revoked yet;
OP 6 raises a signer's floor and OP 7 SVN_MIN, up to SVN_CUR, when the new value is higher. OP 2 zeroises a BBK slot even
without presence. Without presence OP 0 answers NO_PRESENCE and changes no key. DEBUG_UNLOCK with presence and a good token
opens its scope; with a bad one it answers BAD_TOKEN and opens none; either way the firmware slots and keys are unchanged.
(R601, R602, R603, R604) -/
def Obligations.KeysAndDebugUnlock : Prop :=
  ∀ (x : Taken) (s : State),
    let n := param x 9 1
    let op := param x 8 1
    let ready := mayAnswer s x 0x50 keyBytes ∧ s.mgmt.present = true
    (∀ b : List Byte, ready → op = 0 → n < 4 → param x 24 4 = 32 → 32 ≤ b.length → s.keys.fk.any (fun e => e.1 == n) = false →
      s.keys.fkRevoked.getLsbD n = false →
      ∃ t, exec (.keyProvisionFk x.ticket (some b)) s = .next t ∧ answered t x 0 false [] ∧ sget [] t.keys.fk n = b.take 32 ∧
        t.keys.fkRevoked = s.keys.fkRevoked ∧ t.keys.signers = s.keys.signers) ∧
    (∀ buf, mayAnswer s x 0x50 keyBytes → s.mgmt.present = false → op = 0 → n < 4 →
      ∃ t, exec (.keyProvisionFk x.ticket buf) s = .next t ∧ answered t x 7 false [] ∧ t.keys = s.keys) ∧
    (∀ b : List Byte, ready → op = 1 → n < 2 → param x 24 4 = 32 → 32 ≤ b.length → s.power.vbatGood = true → s.mgmt.loopOpen = false →
      ∃ t, exec (.keyProvisionBbk x.ticket (some b)) s = .next t ∧ answered t x 0 false [] ∧
        (if n = 0 then t.keys.bbk0 else t.keys.bbk1) = some (b.take 32) ∧ t.keys.fk = s.keys.fk) ∧
    (mayAnswer s x 0x50 keyBytes → op = 2 → n < 2 → param x 24 4 = 0 →
      ∃ t, exec (.keyProvisionBbkZeroise x.ticket) s = .next t ∧ answered t x 0 false [] ∧ (if n = 0 then t.keys.bbk0 else t.keys.bbk1) = none ∧
        t.keys.fk = s.keys.fk) ∧
    (∀ b : List Byte, ready → op = 3 → n < 4 → param x 24 4 = 49 → 49 ≤ b.length → (signerOf s n).valid = false → (signerOf s n).revoked = false →
      ∃ t, exec (.keyProvisionSigner x.ticket (some b)) s = .next t ∧ answered t x 0 false [] ∧ (signerOf t n).valid = true ∧
        (signerOf t n).digest = b.take 48 ∧ (signerOf t n).svnFloor = b.getD 48 0 ∧ ∀ k, k ≠ n → signerOf t k = signerOf s k) ∧
    (ready → op = 4 → n < 4 → param x 24 4 = 0 → (signerOf s n).revoked = false →
      ∃ t, exec (.keyProvisionRevokeSigner x.ticket) s = .next t ∧ answered t x 0 false [] ∧ signerOf t n = { signerOf s n with revoked := true } ∧
        ∀ k, k ≠ n → signerOf t k = signerOf s k) ∧
    (ready → op = 5 → n < 4 → param x 24 4 = 0 → s.keys.fkRevoked.getLsbD n = false →
      ∃ t, exec (.keyProvisionRevokeFk x.ticket) s = .next t ∧ answered t x 0 false [] ∧
        ∀ k < 4, t.keys.fkRevoked.getLsbD k = (s.keys.fkRevoked.getLsbD k || k == n)) ∧
    (∀ b : List Byte, ready → op = 6 → n < 4 → param x 24 4 = 1 → 1 ≤ b.length → (signerOf s n).svnFloor < b.getD 0 0 →
      ∃ t, exec (.keyProvisionSvnFloor x.ticket (some b)) s = .next t ∧ answered t x 0 false [] ∧ (signerOf t n).svnFloor = b.getD 0 0 ∧
        (signerOf t n).digest = (signerOf s n).digest) ∧
    (∀ b : List Byte, ready → op = 7 → n = 0 → param x 24 4 = 1 → 1 ≤ b.length → s.fw.svnMin < b.getD 0 0 → b.getD 0 0 ≤ s.fw.svnCur →
      ∃ t, exec (.keyProvisionSvnMin x.ticket (some b)) s = .next t ∧ answered t x 0 false [] ∧ t.fw.svnMin = b.getD 0 0 ∧ t.keys = s.keys) ∧
    (∀ b : List Byte, mayAnswer s x 0x51 (whole 8 1 ++ whole 16 8) → s.mgmt.present = true → op ≤ 1 → 200 ≤ b.length →
      (tokenGood s op (b.take 200) = true → ∃ t, exec (.debugUnlock x.ticket (some b)) s = .next t ∧ answered t x 0 false [] ∧
        (if op = 0 then t.mgmt.unlockJtag else t.mgmt.unlockUart) = true ∧ t.keys = s.keys ∧ t.fw = s.fw) ∧
      (tokenGood s op (b.take 200) = false →
        ∃ t, exec (.debugUnlock x.ticket (some b)) s = .next t ∧ answered t x 0x3C false [] ∧
        t.mgmt.unlockJtag = s.mgmt.unlockJtag ∧ t.mgmt.unlockUart = s.mgmt.unlockUart ∧ t.keys = s.keys ∧ t.fw = s.fw))

/-- O47. For a taken command that may be answered, in a device that is not SAFE and, but for FW_CONFIRM, in no trial: FW_DOWNLOAD of n
bytes that fit writes them into slot B at their offset and makes it DOWNLOADED, leaving slot A as it is (a B that is not the
shipped image, log 6); FW_VERIFY of a B that passes the check with an SVN of at least SVN_MIN makes it VERIFIED and returns its
SVN, and of one that fails makes it INVALID; FW_ACTIVATE with no suite RUNNING, B VERIFIED and its SVN not below SVN_CUR opens a
trial of 3 boots and starts a warm reset without a completion; FW_CONFIRM in a trial makes slot B the confirmed one, SVN_CUR its
SVN. The pointer's sequence number is below its maximum. (R601, R606, R607, R608) -/
def Obligations.FirmwareMovesThroughItsSlots : Prop :=
  ∀ (x : Taken) (s : State),
    let f := s.fw
    let p := bootPtr f
    let b := slotB f
    (∀ d : List Byte, mayAnswer s x 0x40 (whole 8 16) → s.devState ≠ .safe → p.trial = false → param x 20 4 + param x 16 4 ≤ 2 ^ 26 →
      param x 16 4 ≤ d.length → Memory.wf (slotBytes f b) = true → f.shipped ≠ some b →
      ∃ t, exec (.fwDownload x.ticket (some d)) s = .next t ∧ answered t x 0 false [] ∧ t.fw.bState = 1 ∧
        mreadN (slotBytes t.fw b) (param x 20 4) (param x 16 4) = d.take (param x 16 4) ∧ slotBytes t.fw (!b) = slotBytes f (!b) ∧ bootPtr t.fw = p) ∧
    (mayAnswer s x 0x41 [] → p.trial = false → f.bState ≠ 0 →
      (slotGood f b = true → f.svnMin ≤ slotSvn f b →
        ∃ t, exec (.fwVerify x.ticket) s = .next t ∧ answered t x 0 false (leBytes 4 (slotSvn f b).toNat) ∧ t.fw.bState = 2 ∧ t.fw.svnB = slotSvn f b) ∧
      (slotGood f b = false →
        ∃ t, exec (.fwVerify x.ticket) s = .next t ∧ answered t x 0x31 false [] ∧ t.fw.bState = 0 ∧ t.fw.slot0 = f.slot0 ∧ t.fw.slot1 = f.slot1)) ∧
    (mayAnswer s x 0x42 [] → s.devState ≠ .safe → p.trial = false → anyRunning s = false → f.bState = 2 → f.svnCur ≤ f.svnB →
      p.seqNo ≠ 0xFFFFFFFF →
      ∃ t, exec (.fwActivate x.ticket) s = .next t ∧ t.devState = .maceration ∧ (bootPtr t.fw).trial = true ∧ (bootPtr t.fw).trialsLeft = 3 ∧
        (bootPtr t.fw).slot = p.slot ∧ t.mbox.taken = [] ∧ t.out.dma = s.out.dma) ∧
    (mayAnswer s x 0x43 [] → p.trial = true → p.seqNo ≠ 0xFFFFFFFF →
      ∃ t, exec (.fwConfirm x.ticket) s = .next t ∧ answered t x 0 false [] ∧ (bootPtr t.fw).slot = b ∧ (bootPtr t.fw).trial = false ∧
        t.fw.svnCur = f.svnB ∧ t.fw.svnMin = f.svnMin)

/-- O48. A warm reset, whether by DEVICE_RESET MODE 0 or 4, by MODE 3 with presence, by PERST_N outside maceration, or at the end of a
MODE 1 drain, leaves the device in MACERATION at step 1 with no suite, no session, no command in progress, no enabled ring and
no completion written, every cell and bay at reset, and HBM bytes, fuses, FK slots and firmware as they were; MODE 3 also
empties the store die and both BBK slots. When PERST_N rises, the link of a powered port trains, and nothing else changes. MODE
1 and 2 put the device in DRAINING with every RUNNING suite asked to stop, and stay in progress. A drain's timeout leaves its
suite LOADED; a MODE 2 drain that completes leaves the device QUIESCED with every stack in self-refresh and answers. A device-
fatal error leaves READY with no suite and one record in the error log. (R506, R517, R541, R542, R543, R544, R545, R548, R574,
R605) -/
def Obligations.ResetsAndDrainsEndSuites : Prop :=
  ∀ (x : Taken) (s : State),
    let bytes := whole 8 1
    let alone := ∀ e ∈ s.mbox.taken, e.ticket = x.ticket → e = x
    let warm := fun (t : State) => t.devState = .maceration ∧ t.macer.step = 1 ∧ (∀ i < 32, (t.suite i).state = .none) ∧ t.mbox.sessions = [] ∧
      t.mbox.taken = [] ∧ t.mbox.rings = [] ∧ t.out.dma = s.out.dma ∧ t.cells = [] ∧ t.bays = [] ∧ t.repair.fuseGood = s.repair.fuseGood ∧
      t.keys.fk = s.keys.fk ∧ t.fw.slot0 = s.fw.slot0 ∧ t.fw.slot1 = s.fw.slot1 ∧ ∀ p < 12, (t.port p).data = (s.port p).data
    (mayAnswer s x 0x70 bytes → resetMode x = 0 → ∃ t, exec (.deviceResetWarm x.ticket) s = .next t ∧ warm t) ∧
    (mayAnswer s x 0x70 bytes → resetMode x = 4 → 0x0300 ≤ s.versionOf x → ∃ t, exec (.deviceResetRepairRetest x.ticket) s = .next t ∧ warm t ∧ t.macer.retest = true) ∧
    (mayAnswer s x 0x70 bytes → resetMode x = 3 → s.mgmt.present = true →
      ∃ t, exec (.deviceResetFactory x.ticket) s = .next t ∧ warm t ∧ t.store = [] ∧ t.keys.bbk0 = none ∧ t.keys.bbk1 = none) ∧
    (s.devState ≠ .off → s.devState ≠ .maceration → ∃ t, exec .perstN s = .next t ∧ warm t ∧ t.power.linkUp = false) ∧
    (∃ t, exec .perstNDeassertion s = .next t ∧ t.power.perstLow = false ∧ t.power.linkUp = (s.power.linkUp || portPowered s) ∧
      { t with power := s.power, pcie := s.pcie, free := s.free } = s) ∧
    (mayAnswer s x 0x70 bytes → resetMode x = 1 → alone → ∃ t, exec (.deviceResetDrainedWarm x.ticket) s = .next t ∧ t.devState = .draining ∧
      t.drainMode = 1 ∧ { x with running := true } ∈ t.mbox.taken ∧
      (∀ i < 32, (s.suite i).state = .running → (s.suite i).serving = false → (t.suite i).stopping = true)) ∧
    (mayAnswer s x 0x70 bytes → resetMode x = 2 → s.quiesced = false → alone → ∃ t, exec (.deviceResetDrainedQuiesce x.ticket) s = .next t ∧
      t.devState = .draining ∧ t.drainMode = 2 ∧ { x with running := true } ∈ t.mbox.taken) ∧
    (∀ i : SuiteId, s.devState = .draining → s.quiesced = false → (s.suite i.val).state = .running →
      ∃ t, exec (.drainTimeout i) s = .next t ∧ (t.suite i.val).state = .loaded) ∧
    (s.devState = .draining → s.quiesced = false → anyRunning s = false → gaconDrained s = true → writesDrained s = true →
      (s.drainMode = 1 → ∃ t, exec .drainComplete s = .next t ∧ t.devState = .maceration ∧ t.mbox.taken = []) ∧
      (s.drainMode = 2 → s.mbox.taken = [x] → x.running = true → x.opcode = 0x70 → x.lost = false → (s.ring x.fn true).enable = true →
        ∃ t, exec .drainComplete s = .next t ∧ t.quiesced = true ∧ answered t x 0 false [] ∧ ∀ p < 12, (t.port p).selfRefresh = true)) ∧
    ((s.devState = .ready ∨ s.devState = .active ∨ s.devState = .draining) → ∃ t, exec .deviceFatalError s = .next t ∧ t.devState = .ready ∧ (∀ i < 32, (t.suite i).state = .none) ∧
      t.errLog.next = s.errLog.next + 1 ∧ t.cells = [])

/-- O49. The accesses of a function that does not answer on the bus change nothing. A doorbell inside the command ring sets TAIL, and a
write of the completion HEAD inside its ring sets HEAD; outside the ring either sets ERR and leaves the pointer. Enabling a ring
that is disabled, with LOG2SIZE 4 to 12, takes its address and size, sets both pointers to 0 and PHASE to 1; a write that clears
ENABLE disables it. A fetch of an open mailbox from an enabled ring that is not empty, with a free completion entry, reads the
64 bytes at HEAD, advances HEAD, reserves one entry and takes the command under a ticket of its own, unless its opcode is not in
the table, which is refused when those before it have started; from an empty ring it does nothing. A Function Level Reset of the
PF ends its sessions and disables its rings; one of a VF disables that VF's rings and output rings and leaves the sessions; a
disabled ring keeps its pointers; neither touches a cell. (R494, R495, R502, R503) -/
def Obligations.RingsFetchAndFunctionResets : Prop :=
  ∀ (f : HostFn) (s : State),
    let q := s.ring f false
    let c := s.ring f true
    (s.answers f = false → ∀ (v : W64) (cpl : Bool) (b : HostRead), exec (.commandDoorbell f v) s = .next s ∧
      exec (.completionHeadWrite f v) s = .next s ∧ exec (.ringEnable f cpl v) s = .next s ∧ exec (.commandFetch f b) s = .next s) ∧
    (s.answers f = true → ∀ v : W64,
      let s1 := s.freshIn 15
      let q := s1.ring f false
      let c := s1.ring f true
      (∃ t, exec (.commandDoorbell f v) s = .next t ∧
        (t.ring f false).tail = (if (fld v 0 16).toNat < ringSize q then fld v 0 16 else q.tail) ∧
        (ringSize q ≤ (fld v 0 16).toNat → (t.ring f false).err = true) ∧ (t.ring f false).head = q.head ∧ t.ring f true = c ∧ t.cells = s1.cells) ∧
      (∃ t, exec (.completionHeadWrite f v) s = .next t ∧
        (t.ring f true).head = (if (fld v 32 16).toNat < ringSize c then fld v 32 16 else c.head) ∧
        (ringSize c ≤ (fld v 32 16).toNat → (t.ring f true).err = true) ∧ (t.ring f true).tail = c.tail ∧ t.ring f false = q ∧ t.cells = s1.cells)) ∧
    (s.answers f = true → ∀ (cpl : Bool) (v : W64),
      ((s.ring f cpl).enable = false → v.getLsbD 4 = true → 4 ≤ (fld v 0 4).toNat → (fld v 0 4).toNat ≤ 12 →
        ∃ t, exec (.ringEnable f cpl v) s = .next t ∧ (t.ring f cpl).enable = true ∧ (t.ring f cpl).addr = fld v 12 52 ∧
          (t.ring f cpl).log2size = fld v 0 4 ∧ (t.ring f cpl).head = 0 ∧ (t.ring f cpl).tail = 0 ∧ (t.ring f cpl).phase = true) ∧
      (v.getLsbD 4 = false → ∃ t, exec (.ringEnable f cpl v) s = .next t ∧ (t.ring f cpl).enable = false)) ∧
    (s.answers f = true → mailboxOpen s = true → q.enable = true → q.head ≠ q.tail → c.enable = true → ringUsed s f + 1 < ringSize c → ∀ b : List Byte,
      ((cmdSince (leAt (slice b 0 64) 0 2)).isSome = true →
        ∃ t x, exec (.commandFetch f (some b)) s = .next t ∧ t.mbox.taken = s.mbox.taken ++ [x] ∧ x.ticket = s.mbox.nextTicket ∧ x.fn = f ∧
          x.opcode.toNat = leAt (slice b 0 64) 0 2 ∧ x.cmdId.toNat = leAt (slice b 0 64) 4 2 ∧ x.running = false ∧ x.lost = false ∧
          t.mbox.nextTicket = s.mbox.nextTicket + 1 ∧ (t.ring f false).head = BitVec.ofNat 16 ((q.head.toNat + 1) % ringSize q) ∧
          ringUsed t f = ringUsed s f + 1 ∧ t.out = { s.out with reads := s.out.reads ++ [⟨f, q.addr.toNat * 4096 + 64 * q.head.toNat, 64⟩] }) ∧
      ((cmdSince (leAt (slice b 0 64) 0 2)).isNone = true → (∀ e ∈ s.mbox.taken, e.ticket < s.mbox.nextTicket) →
        ((∃ e ∈ s.mbox.taken, e.fn = f ∧ e.running = false) → exec (.commandFetch f (some b)) s = .next s) ∧
        ((∀ e ∈ s.mbox.taken, e.fn = f → e.running = true) →
          ∃ t w x, exec (.commandFetch f (some b)) s = .next t ∧ t.mbox.taken = s.mbox.taken ∧ t.out.dma = s.out.dma ++ [w] ∧
            x.fn = f ∧ x.session.toNat = leAt (slice b 0 64) 6 2 ∧ x.version = none ∧ x.lost = false ∧ leAt w.bytes 2 2 = unlistedStatus s x ∧
            unlistedStatus s x ∈ [2, 3, 5, 10]))) ∧
    (q.head = q.tail → ∀ b, exec (.commandFetch f b) s = .next s) ∧
    (∃ t, exec .flrPf s = .next t ∧ t.mbox.sessions = [] ∧ (∀ cpl, (t.ring .pf cpl).enable = false ∧ (t.ring .pf cpl).head = (s.ring .pf cpl).head ∧
        (t.ring .pf cpl).tail = (s.ring .pf cpl).tail) ∧
      (∀ e ∈ t.mbox.leases, e.2.held = false) ∧ t.cells = s.cells ∧ t.suites = s.suites) ∧
    (∀ i : SuiteId, ∃ t, exec (.flrVf i) s = .next t ∧ (∀ cpl, (t.ring (.vf i) cpl).enable = false ∧ (t.ring (.vf i) cpl).head = (s.ring (.vf i) cpl).head ∧
        (t.ring (.vf i) cpl).tail = (s.ring (.vf i) cpl).tail) ∧
      t.mbox.sessions = s.mbox.sessions ∧ (∀ e ∈ (t.suite i.val).sb.rings, e.2.enable = false ∧ e.2.waiting = []) ∧ t.cells = s.cells)

/-- O50. For a taken command that may be answered: SUITE_START on a RUNNING suite; SUITE_STOP with FORCE 0 on a STOPPED suite, or on a
RUNNING one with STOPPING 1; IMAGE_UNLOAD (3.x) on an EMPTY suite; SESSION_CLOSE of a session that is not open; DEVICE_RESET
MODE 2 while QUIESCED is 1; and SEQ_CANCEL of an entry with its tag that is RETIRING or DONE (R515): each answers OK with
ALREADY set, and nothing but the completion (the mailbox, and what the bus sees of it) changes. (R520) -/
def Obligations.TargetStateAlreadyHoldsIsOk : Prop :=
  ∀ (x : Taken) (s : State),
    let i := param x 8 1
    let same := fun (c : Instr) => ∃ t, exec c s = .next t ∧ answered t x 0 true [] ∧ { t with mbox := s.mbox, out := s.out, pcie := s.pcie } = s ∧
      t.mbox.sessions = s.mbox.sessions ∧ t.mbox.leases = s.mbox.leases
    (mayAnswer s x 0x14 (whole 8 1) → i < 32 → (s.suite i).state = .running → same (.suiteStart x.ticket)) ∧
    (mayAnswer s x 0x15 [(8, 255), (9, 1)] → forces s x = false → i < 32 →
      ((s.suite i).state = .stopped ∨ (s.suite i).state = .running ∧ (s.suite i).stopping = true) → same (.suiteStop x.ticket)) ∧
    (mayAnswer s x 0x13 (whole 8 1) → 0x0300 ≤ s.versionOf x → i < 32 → (s.suite i).state = .empty → same (.imageUnload x.ticket)) ∧
    (mayAnswer s x 0x02 [] → sessionOpen s x = false → same (.sessionClose x.ticket)) ∧
    (mayAnswer s x 0x70 (whole 8 1) → resetMode x = 2 → s.quiesced = true → same (.deviceResetDrainedQuiesce x.ticket)) ∧
    (mayAnswer s x 0x21 (whole 8 1 ++ whole 12 12) → suiteGate s ((cmdSuite x).getD 0) [.loaded, .running, .stopped] = none →
      (s.suite ((cmdSuite x).getD 0)).sb.closed = none →
      let k := param x 12 4
      (s.suite ((cmdSuite x).getD 0)).seqBlocks.contains (k / 1024) = true → (s.seqEntry k).hostTag.toNat = param x 16 8 →
      ((s.seqEntry k).state = .retiring ∨ (s.seqEntry k).state = .done) → same (.seqCancel x.ticket))

/-- O51. VAON good in an OFF device is a power-on: MACERATION with the tick counter, every cell, every port and every ring at reset, and
fuses, FK slots and the store die as they were. VIN12, then VIN48, good for the first time start maceration step 1, cold, at
least 2 ms after VIN12 and 1 ms after VIN48. Loss of VAON turns the device OFF; of VIN12 loses HBM contents and every suite; of
VIN48 every suite, not HBM contents, and VIN48's return makes a warm reset with cause 7. Loss of VBAT zeroises both BBK slots,
and without a load under way changes no cell; VBAT good restores the seal status. A resonator failure raises ALERT bit 1 and
holdover, which ends after 10 s. A bay that is ON locks with the voltage of its step; a bay asleep scrubs its own cells alone,
and changes no byte and no tag of one with no stored word. A stack that no RUNNING suite, loader or host access uses enters
self-refresh, and one that is used leaves it. (R522, R523, R524, R525, R526, R527, R528, R529, R531, R533) -/
def Obligations.SuppliesStartAndStopTheDevice : Prop :=
  ∀ s : State,
    let p := s.power
    (s.devState = .off → ∃ t, exec .vaonGood s = .next t ∧ t.devState = .maceration ∧ t.tick = 0 ∧ t.cells = [] ∧ t.bays = [] ∧ t.mbox.rings = [] ∧
      t.power.vin12Good = false ∧ t.keys = s.keys ∧ t.uid = s.uid ∧ t.repair = s.repair ∧ t.store = s.store ∧ ∀ q, (t.port q).data = [] ∧ (t.port q).slots = []) ∧
    (s.devState ≠ .off → p.vin12Good = false → p.vin48Good = false →
      ∃ t, exec .vin12Good s = .next t ∧ t.power.vin12Good = true ∧ p.vaonAt + msec 10 ≤ t.power.vin12At) ∧
    (s.devState ≠ .off → p.vaonGood = true → p.vin12Good = true → p.vin48Good = false → p.lost12 = false → p.lost48 = false →
      p.thermtrip = false → s.macer.started = false →
      ∃ t, exec .vin48Good s = .next t ∧ t.power.vin48Good = true ∧ t.macer.started = true ∧ t.macer.step = 1 ∧ t.macer.cold = true ∧
        p.vin12At + msec 2 ≤ t.now ∧ s.now + msec 1 ≤ t.now) ∧
    (∃ t, exec .vaonLoss s = .next t ∧ t.devState = .off ∧ t.cells = [] ∧ t.keys.fk = s.keys.fk ∧ t.store = s.store ∧ t.power.vaonGood = false) ∧
    (s.devState ≠ .off → p.vin12Good = true → ∃ t, exec .vin12Loss s = .next t ∧ t.power.vin12Good = false ∧ t.power.railFault = true ∧
      (∀ i < 32, (t.suite i).state = .none) ∧ (∀ q, (t.port q).data = []) ∧ t.mbox.rings = [] ∧ t.keys = s.keys) ∧
    (s.devState ≠ .off → p.vin48Good = true → ∃ t, exec .vin48Loss s = .next t ∧ t.power.vin48Good = false ∧ t.power.railFault = true ∧
      (∀ i < 32, (t.suite i).state = .none) ∧ (∀ q < 12, (t.port q).data = (s.port q).data) ∧ t.mbox.rings = s.mbox.rings) ∧
    (s.devState ≠ .off → p.vaonGood = true → p.vin12Good = true → p.vin48Good = false → p.lost48 = true → p.lost12 = false → p.thermtrip = false →
      s.macer.started = false →
      ∃ t, exec .vin48Return s = .next t ∧ t.power.vin48Good = true ∧ t.devState = .maceration ∧ t.macer.step = 1 ∧ t.power.cause = 7 ∧
        s.now + msec 10 ≤ t.now) ∧
    (∃ t, exec .vbatLoss s = .next t ∧ t.keys.bbk0 = none ∧ t.keys.bbk1 = none ∧ t.keys.fk = s.keys.fk ∧
      (s.mbox.load = none → t.cells = s.cells)) ∧
    (∃ t, exec .vbatGood s = .next t ∧ t.power.vbatGood = true ∧ t.mgmt.sealClosed = !s.mgmt.loopOpen ∧ t.keys = s.keys) ∧
    (s.devState ≠ .off → p.backup = false → ∃ t, exec .resonatorFailure s = .next t ∧ t.power.holdover = true ∧ t.power.backup = true ∧
      t.mgmt.alert.getLsbD 1 = true ∧ t.errLog.next = s.errLog.next + 1) ∧
    (p.holdover = true → ∃ t, exec .holdoverEnd s = .next t ∧ t.power.holdover = false ∧ p.holdAt + msec 10000 ≤ t.now) ∧
    (∀ b : BayId, (s.bay b.val).power = .on → ∃ t, exec (.bayPllLock b) s = .next t ∧ (t.bay b.val).lock = true ∧
      (t.bay b.val).vcore = stepVcore (s.bay b.val).step ∧ t.cells = s.cells) ∧
    (∀ b : BayId, (s.bay b.val).power ≠ .asleep → exec (.asleepScrubWake b) s = .next s) ∧
    (∀ b : BayId, (s.bay b.val).power = .asleep →
      ∃ t, exec (.asleepScrubWake b) s = .next t ∧ (∀ c, c ∉ bayCells b.val → t.cell c = s.cell c) ∧
        ∀ c, (s.cell c).mem = [] → (s.cell c).check = [] → (t.cell c).mem = [] ∧ (t.cell c).tags = (s.cell c).tags) ∧
    (∀ q : PortId, ((s.devState = .ready ∨ s.devState = .active ∨ s.devState = .draining) → stackUsed s q.val = false →
        ∃ t, exec (.stackSelfRefreshEntry q) s = .next t ∧ (t.port q.val).selfRefresh = true ∧ (t.port q.val).data = (s.port q.val).data) ∧
      (stackUsed s q.val = true →
        ∃ t, exec (.stackSelfRefreshExit q) s = .next t ∧ (t.port q.val).selfRefresh = false ∧ (t.port q.val).data = (s.port q.val).data))

/-- O52. A turn of the power cap loop records P10 and the higher peak; at or above 95 % of the cap and up to the cap it does nothing
more; above it, with no suite above its floor, the duty level rises by 1, to 12 at most. A protection trigger raises ALERT bit 2
and PROTECT in every RUNNING suite that it concerns (all, but for a die's temperature those with a bay there); its clearing, 100
µs later, lowers PROTECT where no other condition concerns the suite. At 115 °C or more THERMTRIP makes a warm reset whose
maceration waits; below 95 °C, with every supply, it begins. Maceration step 1 takes the reference clock that is present then,
and enters step 2 or SAFE; step 2, 3 or 4 completes into the next; step 5 that fails enters SAFE with its step and code; step 7
enters READY, done, the good map that of the fuses without the bays that are retired and not restored, the slot split that for
boot. (R535, R536, R538, R539, R546, R547, R548, R549) -/
def Obligations.PowerPolicyAndMacerationAct : Prop :=
  ∀ s : State,
    let p := s.power
    (∀ p10 peak : W16, ∃ t, exec (.powerCapLoop p10 peak) s = .next t ∧ t.power.p10 = p10 ∧
      t.power.peak = (if p.peak < peak then peak else p.peak) ∧ t.power.cap = p.cap ∧ t.cells = s.cells ∧
      (95 * p.cap.toNat ≤ 100 * p10.toNat → p10.toNat ≤ p.cap.toNat → t.power.duty = p.duty ∧ t.suites = s.suites) ∧
      (p.cap.toNat < p10.toNat → (∀ i < 32, (s.suite i).state = .running → (s.suite i).freq.target ≤ effFloor (s.suite i)) →
        t.power.duty.toNat = (if p.duty.toNat < 12 then p.duty.toNat + 1 else p.duty.toNat) ∧
        ∀ i < 32, (t.suite i).freq.target = (s.suite i).freq.target)) ∧
    (∀ c : ProtCause, ∃ t, exec (.protectionTrigger c) s = .next t ∧ t.mgmt.alert.getLsbD 2 = true ∧ c ∈ t.power.protects ∧ t.cells = s.cells ∧
      ∀ i < 32, (t.suite i).freq.protect = ((s.suite i).freq.protect || ((s.suite i).state == .running && concerns s i c))) ∧
    (∀ c : ProtCause, p.protects = [c] → ∃ t, exec (.protectionClear c) s = .next t ∧ t.power.protects = [] ∧
      ∀ i < 32, (t.suite i).freq.protect = false) ∧
    (∀ c : ProtCause, c ∉ p.protects → exec (.protectionClear c) s = .next s) ∧
    (∀ tj : Byte, s.devState ≠ .off → 115 ≤ tj.toNat → p.thermtrip = false →
      ∃ t, exec (.thermtrip tj) s = .next t ∧ t.power.thermtrip = true ∧ t.devState = .maceration ∧ t.macer.started = false ∧
        t.power.cause = 5 ∧ t.power.tjMax = tj ∧ t.mbox.sessions = []) ∧
    (∀ tj : Byte, tj.toNat < 115 → exec (.thermtrip tj) s = .next s) ∧
    (∀ tj : Byte, p.thermtrip = true → tj.toNat < 95 → p.vin12Good = true → p.vin48Good = true → p.lost12 = false → p.lost48 = false →
      ∃ t, exec (.thermtripRearm tj) s = .next t ∧ t.power.thermtrip = false ∧ t.macer.started = true ∧ t.macer.step = 1) ∧
    (∀ r : MacReport, s.devState = .maceration → s.macer.started = true →
      (s.macer.step = 1 → ∃ t, exec (.macerationStepComplete r) s = .next t ∧ t.power.commonClock = r.refclk ∧ t.mgmt.sealClosed = !s.mgmt.loopOpen ∧
        ((t.macer.step = 2 ∧ t.devState = .maceration) ∨ t.devState = .safe)) ∧
      (s.macer.step = 2 → r.ok = true → ∃ t, exec (.macerationStepComplete r) s = .next t ∧ t.macer.step = 3 ∧ t.devState = .maceration) ∧
      ((s.macer.step = 3 ∨ s.macer.step = 4) → ∃ t, exec (.macerationStepComplete r) s = .next t ∧ t.macer.step = s.macer.step + 1 ∧
        t.devState = .maceration) ∧
      (s.macer.step = 5 → r.ok = false → ∃ t, exec (.macerationStepComplete r) s = .next t ∧ t.devState = .safe ∧ t.macer.failed = true ∧
        t.macer.failStep = 5 ∧ t.macer.failCode = r.code) ∧
      (s.macer.step = 7 → ∃ t, exec (.macerationStepComplete r) s = .next t ∧ t.devState = .ready ∧ t.macer.done = true ∧
        t.repair.split = s.repair.bootSplit ∧
        ∀ b < 32, t.repair.good.getLsbD b = (s.repair.fuseGood.getLsbD b && !s.repair.retiredBays.any (fun k => k.val == b && !bayRestored s k)))) ∧
    (∀ r : MacReport, s.devState ≠ .maceration → exec (.macerationStepComplete r) s = .next s)

/-- O53. A unit check is logged once. Of a bay that no suite owns it changes no suite, and one that spares carry on no recovery; in a
suite that is not RUNNING its unit waits for the quick test and the state stays; in a RUNNING suite in a recoverable section,
with no recovery under way, it requests one, but in a redo after that unit stayed in service unrepaired it is suite-fatal.
Detection of a requested recovery makes it active in phase 1. Each quick test, of a suite that is held when a section is open,
tests one unit; the last one ends phase 1 in the lateral copy (phase 2) where a row is to be shifted, else in the reload (phase
3); a test that passes, of a unit whose fault is not permanent, shifts none. Outside RUNNING it tests a unit too. The lateral
copy ends phase 2 in phase 3. When every cell has its configuration, the restore ends phase 3 in phase 4, and changes no cell
where no section is open and no cell moved. A suite-fatal fault that was reported makes a RUNNING suite FAULTED, with no
recovery left. A pane that a scrubber poisoned and whose mirror tile is readable, while its section is open and no recovery is
active, has its 32 strips wait for cycles of its octant where its suite has an idle read slot, and the last one makes it FULL
and no other tag changes; one without a mirror is left. A FULL pane whose mirror tile was poisoned by a scrubber rewrites it,
with one record and no cell changed, where its suite has an idle write slot there. The loss of a pseudo-channel retires its
stack once. A state mismatch that is read a third time marks the unit suspect, and retires the stack of a pseudo-channel that no
RUNNING suite uses; agreement forgets it. (R553, R555, R558, R561, R562, R569, R570, R571, R575) -/
def Obligations.RecoveryPassesItsPhases : Prop :=
  ∀ s : State,
    (∀ k : UnitCheck,
      let o := (s.bay (checkBay k)).owner
      (o = none → ∃ t, exec (.unitCheckError k) s = .next t ∧ t.errLog.next = s.errLog.next + 1 ∧ t.suites = s.suites) ∧
      (∀ i, o = some i →
        let u := s.suite i.val
        let again := u.recov.redo = true ∧ k ∈ u.recov.stuck
        ∃ t, exec (.unitCheckError k) s = .next t ∧ t.errLog.next = s.errLog.next + 1 ∧ t.cells = s.cells ∧
          let v := t.suite i.val
          v.state = u.state ∧ (checkCorrected k = true → v.recov = u.recov) ∧
          (checkCorrected k = false → ∃ x : UnitTest, x.unit = k ∧ v.recov.tests = u.recov.tests ++ [x]) ∧
          (checkCorrected k = false → u.state = .running → sectRecov u = true → u.recov.active = false → u.recov.requested = false → ¬ again →
            v.recov.requested = true ∧ v.recov.unit = some k) ∧
          (checkCorrected k = false → u.state = .running → (again ∨ sectRecov u = false) → v.recov.fatal = true))) ∧
    (∀ sid : SuiteId,
      let i := sid.val
      let u := s.suite i
      let r := u.recov
      (r.requested = true → r.active = false → r.fatal = false → u.state = .running →
        ∃ t, exec (.recoveryDetect sid) s = .next t ∧ (t.suite i).recov.active = true ∧ (t.suite i).recov.phase = 1 ∧
          (t.suite i).recov.requested = false ∧ (t.suite i).feeder.staged = (if u.feeder.isOpen then [] else u.feeder.staged)) ∧
      (r.requested = false → exec (.recoveryDetect sid) s = .next s) ∧
      (∀ pass, u.state = .running → r.active = true → r.phase = 1 → r.fatal = false → (u.feeder.isOpen = true → u.hold.held = true) →
        ∃ t, exec (.quickTestDone sid pass) s = .next t ∧ (t.suite i).recov.active = true ∧ (t.suite i).recov.tests = r.tests.drop 1 ∧
          (t.suite i).recov.phase = (if r.tests.drop 1 ≠ [] then 1 else if (t.suite i).recov.shifted = [] then 3 else 2) ∧
          ((∀ x ∈ r.tests.head?, pass = true ∧ s.permanent (s.testedUnit x) = false) → (t.suite i).recov.shifted = r.shifted)) ∧
      (∀ pass, u.state ≠ .running → ∃ t, exec (.quickTestDone sid pass) s = .next t ∧ (t.suite i).recov.tests = r.tests.drop 1 ∧
        (t.suite i).state = u.state) ∧
      (r.active = true → r.phase = 2 → r.fatal = false →
        ∃ t, exec (.lateralCopyDone sid) s = .next t ∧ (t.suite i).recov.phase = 3) ∧
      (r.active = true → r.phase = 3 → r.fatal = false → (∀ c ∈ suiteCells s i, (s.cell c).state = .waitingStart) →
        ∃ t, exec (.restoreDone sid) s = .next t ∧ (t.suite i).recov.phase = 4 ∧ (r.shifted = [] → u.feeder.isOpen = false → t.cells = s.cells)) ∧
      (r.fatal = true → u.state = .running →
        ∃ t, exec (.suiteFatalFault sid) s = .next t ∧ (t.suite i).state = .faulted ∧ (t.suite i).recov.active = false ∧
          (t.suite i).recov.fatal = false ∧ (t.suite i).feeder.isOpen = false) ∧
      (r.fatal = false → exec (.suiteFatalFault sid) s = .next s)) ∧
    (∀ (c : CellId) (o : Fin 8) (pane : Fin 128) i,
      let g := 128 * o.val + pane.val
      let u := s.suite i
      cellSuite (s.cell c) = some i → u.feeder.isOpen = true →
      (∀ a s1 bs, (s.cell c).tag g = .poisoned → g ∈ (s.cell c).scrubbed → (∀ x ∈ (s.cell c).accesses, x.restored ≠ some g) →
        u.recov.active = false → mirrorOf u c g u.feeder.current = some a → s.repairSlot i (stackOf a) 0 = some s1 →
        tileBytes (s1.port (stackOf a)) (stackOff a) = some bs → (s1.runningSuite (s1.cell c)).isSome = true →
        ∃ t, exec (.mirrorRestore c o pane) s = .next t ∧ (t.cell c).tags = (s1.cell c).tags ∧ (t.cell c).accesses = (s1.cell c).accesses ++
          (List.range 32).map (fun k => .restore (paneAddr g + 128 * k) (slice bs (128 * k) 128) (k == 31))) ∧
      (∀ bs : List Byte, (s.cell c).tag g = .poisoned →
        let t := s.serveAccess c (.restore (paneAddr g + 128 * 31) bs true)
        (t.cell c).tag g = .full ∧ t.errLog.next = s.errLog.next + 1 ∧ ∀ h, h ≠ g → (t.cell c).tag h = (s.cell c).tag h) ∧
      (mirrorOf u c g u.feeder.current = none → exec (.mirrorRestore c o pane) s = .next s ∧ exec (.mirrorRewrite c o pane) s = .next s) ∧
      (∀ a, (s.cell c).tag g = .full → mirrorOf u c g u.feeder.current = some a → tilePoisoned (s.port (stackOf a)) (stackOff a) = true →
        ∀ s1, s.repairSlot i (stackOf a) 1 = some s1 →
        ∃ t, exec (.mirrorRewrite c o pane) s = .next t ∧ t.errLog.next = s1.errLog.next + 1 ∧ t.cells = s1.cells)) ∧
    (∀ (p : PortId) (pc : Fin 64), ((s.port p.val).retired = false → ∃ t, exec (.pseudoChannelLoss p pc) s = .next t ∧
        (t.port p.val).retired = true ∧ t.errLog.next = s.errLog.next + 1 ∧ t.cells = s.cells) ∧
      ((s.port p.val).retired = true → exec (.pseudoChannelLoss p pc) s = .next s)) ∧
    (∀ r : UnitRef,
      (∃ t, exec (.stateMismatchRecheck r false) s = .next t ∧ ∀ e ∈ t.repair.suspects, e.1 ≠ r) ∧
      (s.repair.suspects = [(r, 2)] →
        let s1 := s.waitUntil (s.now + 1500000)
        ∃ t, exec (.stateMismatchRecheck r true) s = .next t ∧ t.repair.suspects = [] ∧
          ((∀ p pc, r ≠ .memPort p (some pc)) → r ∈ t.repair.quarantine ∧ t.errLog.next = s1.errLog.next + 1) ∧
          (∀ p pc, r = .memPort p (some pc) → (s1.port p.val).retired = false →
            (t.port p.val).retired = true ∨ r ∈ t.repair.quarantine)) ∧
      (s.repair.suspects = [] → ∃ t, exec (.stateMismatchRecheck r true) s = .next t ∧ t.repair.suspects = [(r, 1)] ∧
        t.repair.quarantine = s.repair.quarantine))

/-- O54. A cell, bay or device counter that has wrapped sets its OVF bit and is taken; a cell's that has not changes nothing. A running
watchdog whose cell reaches its limit expires once, with one record. An eligible sample enters the bay's buffer of 64 last, or,
when that is full, is dropped and the buffer kept. Two pending sample records go to the ring together in an idle owned write
slot, and WRITTEN rises by 2. At the next metering boundary each existing suite's record is closed (the next number rises by
their count), their generations stay, and the period asked for is in force. A checkpoint keeps every existing suite's
accumulators. METER_CTL, written by a function that answers on the bus, through the PF takes KEY_SLOT, and a PERIOD of 1 to
3,600 for the next boundary; another PERIOD, or a VF, leaves the period as it was and is logged. (R579, R584, R591, R592, R593,
R614, R615) -/
def Obligations.ObservationAndMeteringCount : Prop :=
  ∀ s : State,
    (∀ (c : CellId) (i : Fin 8),
      let x := s.cell c
      (i.val ∈ x.ctrs.wrapped → ∃ t, exec (.counterOverflow (.cell c i)) s = .next t ∧ (t.cell c).ctrs.ovf.getLsbD i.val = true ∧
        (t.cell c).ctrs.wrapped = x.ctrs.wrapped.erase i.val ∧ (t.cell c).ctrs.ctr = x.ctrs.ctr ∧ (t.cell c).mem = x.mem ∧
        (∀ k, k ≠ c.val → t.cell k = s.cell k)) ∧
      (i.val ∉ x.ctrs.wrapped → exec (.counterOverflow (.cell c i)) s = .next s) ∧
      (∀ s1, x.obs.wdRunning = true → s.waitCycle c (16 * x.obs.wdLimit.toNat) = some s1 → (s1.cell c).obs.wdRunning = true →
        ∃ t, exec (.watchdogExpiry c) s = .next t ∧ (t.cell c).obs.wdExpired = true ∧ (t.cell c).obs.wdRunning = false ∧
          t.errLog.next = s1.errLog.next + 1 ∧ (t.cell c).mem = (s1.cell c).mem) ∧
      (x.obs.wdRunning = false → exec (.watchdogExpiry c) s = .next s) ∧
      (∀ e k r, let y := s.bay (cellBay c.val)
        y.eligible.findIdx? (sampleOf c.val e) = some k → y.eligible[k]? = some r →
        ∃ t, exec (.sampleTaken c e) s = .next t ∧ (t.bay (cellBay c.val)).samples = (if y.samples.length < 64 then y.samples ++ [r] else y.samples) ∧
          (t.bay (cellBay c.val)).eligible.length + 1 = y.eligible.length ∧ t.cells = s.cells)) ∧
    (∀ (b : BayId) i, i.val ∈ (s.bay b.val).ctrs.wrapped → ∃ t, exec (.counterOverflow (.bay b i)) s = .next t ∧
      (t.bay b.val).ctrs.ovf.getLsbD i.val = true ∧ (t.bay b.val).ctrs.wrapped = (s.bay b.val).ctrs.wrapped.erase i.val ∧ t.cells = s.cells) ∧
    (∀ i, i.val ∈ s.devCtrs.wrapped → ∃ t, exec (.counterOverflow (.device i)) s = .next t ∧ t.devCtrs.ovf.getLsbD i.val = true ∧
      t.devCtrs.wrapped = s.devCtrs.wrapped.erase i.val ∧ t.cells = s.cells ∧ t.bays = s.bays) ∧
    (∀ sid : SuiteId,
      let o := (s.suite sid.val).obs
      let p := stackOf (o.ringAddr.toNat + 32 * (o.written.toNat % o.records.toNat))
      ∀ a b rest n, o.pendingRecs = a :: b :: rest → o.records ≠ 0 → s.idleSlot p sid.val (fun k => k == 1) = some n →
        ∃ t, exec (.sampleRecordWrite sid) s = .next t ∧ (t.suite sid.val).obs.pendingRecs = rest ∧
          (t.suite sid.val).obs.written = ((s.waitSlot p n).suite sid.val).obs.written + 2) ∧
    (s.power.vaonGood = true →
      let len := s.metering.period.toNat * 25000000
      let s1 := s.waitUntil ((s.now / 600 + (len - s.tick.toNat % len)) * 600)
      ∃ t, exec .meterPeriodBoundary s = .next t ∧ t.metering.nextSeq = s1.metering.nextSeq + BitVec.ofNat 64 (existing s1).length ∧
      t.metering.period = s1.metering.pendingPeriod.setWidth 12 ∧ (∀ i < 32, (t.suite i).state = (s1.suite i).state) ∧
      ∀ i ∈ existing s1, (t.suite i).meter.gen = (s1.suite i).meter.gen ∧ (t.suite i).meter.cellBeats = 0 ∧ (t.suite i).meter.tokens = 0) ∧
    (s.power.vaonGood = true →
      let s1 := s.waitUntil (s.metering.ckptAt + 15000000000)
      ∃ t, exec .meterCheckpoint s = .next t ∧ t.cells = s1.cells ∧ t.metering.ckptAt = s1.now ∧
      ∀ i ∈ existing s1, (t.suite i).savedMeter = { (s1.suite i).meter with tickEnd := s1.tick } ∧ (t.suite i).meter = (s1.suite i).meter) ∧
    (∀ (f : HostFn) (v : W64), s.answers f = false → exec (.meterCtlWrite f v) s = .next s) ∧
    (∀ v : W64, s.answers .pf = true → ∃ t, exec (.meterCtlWrite .pf v) s = .next t ∧ t.metering.keySlot = fld v 28 2 ∧ t.metering.period = s.metering.period ∧
      (if 1 ≤ (fld v 0 12).toNat ∧ (fld v 0 12).toNat ≤ 3600 then t.metering.pendingPeriod.toNat = (fld v 0 12).toNat ∧ t.devLog = s.devLog
       else t.metering.pendingPeriod = s.metering.pendingPeriod ∧ t.devLog.next = s.devLog.next + 1)) ∧
    (∀ (i : SuiteId) (v : W64), s.answers (.vf i) = true → ∃ t, exec (.meterCtlWrite (.vf i) v) s = .next t ∧ t.metering = s.metering ∧ t.devLog.next = s.devLog.next + 1)

/-- O55. In a device that is not OFF: a heartbeat comes at least 100 µs after the last; a checkpoint, at least 10 ms after the last and
with no core held in reset, has the next generation and makes the standby able to take over. When the active core fails, the
other becomes active, one takeover is counted, ALERT bit 3 and one record report it, and no cell, suite or stream changes; the
failed core passes its BIST before it may stand by. The sideband, in the next hub cycle, reads the hub register that it names
and writes only ALERT_CTL. Presence ends with its unlocks. When the seal loop opens while VBAT is good, both BBK slots are
zeroised and FK slots are not. (R526, R595, R596, R597, R599, R600, R602, R603) -/
def Obligations.ManagementCoresSidebandAndSeal : Prop :=
  ∀ s : State, s.devState ≠ .off →
    let g := s.mgmt
    (∃ t, exec .heartbeat s = .next t ∧ g.heartbeatAt + 1500000 ≤ t.mgmt.heartbeatAt ∧ t.mgmt.takeover = false) ∧
    (g.failedCore = false → ∃ t, exec .checkpoint s = .next t ∧ t.mgmt.ckptGen = g.ckptGen + 1 ∧ t.mgmt.standbyOk = true ∧
      g.ckptAt + msec 10 ≤ t.mgmt.ckptAt) ∧
    (g.failedCore = true → exec .checkpoint s = .next s) ∧
    (g.failedCore = false → ∃ t, exec .activeCoreFailure s = .next t ∧ t.mgmt.active = !g.active ∧ t.mgmt.takeovers = satAdd g.takeovers 1 ∧
      t.mgmt.takeover = true ∧ t.mgmt.standbyOk = false ∧ t.mgmt.alert.getLsbD 3 = true ∧ t.errLog.next = s.errLog.next + 1 ∧
      t.cells = s.cells ∧ t.suites = s.suites ∧ t.streams = s.streams ∧ t.mbox = s.mbox ∧ t.devState = s.devState) ∧
    (g.failedCore = true → (∃ t, exec (.standbyBistDone true) s = .next t ∧ t.mgmt.failedCore = false) ∧
      (∃ t, exec (.standbyBistDone false) s = .next t ∧ t.mgmt.failedCore = true ∧ t.mgmt.alert.getLsbD 3 = true)) ∧
    (∀ (k : Byte) v, k.toNat ≤ 31 → hubReg (s.freshIn 15) (8 * k.toNat) = some v →
      ∃ t, exec (.sidebandRead k) s = .next t ∧ t.out.sideband = BitVec.ofNat 64 v ∧
      t.cells = (s.freshIn 15).cells ∧ t.suites = (s.freshIn 15).suites) ∧
    (∀ v : W64, ∃ t, exec (.sidebandWrite 20 v) s = .next t ∧ t.mgmt.alert = (s.freshIn 15).mgmt.alert &&& ~~~ (fld v 0 8) ∧ t.mgmt.alertMask = fld v 32 8) ∧
    (∀ (k : Byte) v, k ≠ 20 → exec (.sidebandWrite k v) s = .next s) ∧
    (g.present = false → ∃ t, exec .presenceAssert s = .next t ∧ t.mgmt.present = true ∧ t.mgmt.alert.getLsbD 6 = true) ∧
    (g.present = true → ∃ t, exec .presenceDeassert s = .next t ∧ t.mgmt.present = false ∧ t.mgmt.unlockJtag = false ∧ t.mgmt.unlockUart = false ∧
      t.mgmt.alert.getLsbD 6 = true) ∧
    (s.power.vbatGood = true → ∃ t, exec .sealOpen s = .next t ∧ t.keys.bbk0 = none ∧ t.keys.bbk1 = none ∧ t.keys.fk = s.keys.fk ∧
      t.mgmt.sealOpened = true ∧ t.mgmt.sealClosed = false ∧ t.mgmt.alert.getLsbD 7 = true)

/-- O56. An access of a function that does not answer on the bus changes nothing. For another inside its function's BAR, which acts as
the next cycle of the register's block begins (log 91): a read of a register returns its value (low 64 bits), and clears no more
than RC fields: cells' scratchpads and the HBM keep their bytes. A read of the highest power clears it, and reads it. A read of
an unmapped PF offset returns all ones, and an unmapped access, read or write, is logged once and changes nothing else. A write
of a suite's hold register through the PF sets MGMT_HOLD and LIMIT; a write of a route entry sets VALID and PORT; a write
through a VF of a hub register is discarded and logged. A configuration word is written through the PF in a cell that is IDLE,
HALTED or FAULTED and not held; in a RUNNING cell, or through a VF, the write is discarded and logged. An HBM access outside
every window reads ones and is logged; one that writes 8 bytes, behind no other at its port, stores them in an idle owned slot,
and waits where none is in sight. (R10, R12, R37, R46, R48, R49, R496, R498, R499, R533) -/
def Obligations.HostAccessesReadAndWriteRegisters : Prop :=
  ∀ (f : HostFn) (off : Nat) (s : State), off < barSize f →
    let s1 := s.freshCycle (barPlace s f off)
    let hub := fun (o : Nat) => s.freshCycle (.hub o)
    (s.answers f = false → ∀ (v : W64) (w : Bool) (x : Option W64), exec (.rcFieldRead f off) s = .next s ∧ exec (.registerWrite f off v) s = .next s ∧
      exec (.unmappedAccess f off w) s = .next s ∧ exec (.apertureHbmAccess f off x) s = .next s) ∧
    (∀ v, s.answers f = true → readReg s1 f (barPlace s f off) = some v → ∃ t, exec (.rcFieldRead f off) s = .next t ∧ t.out.readData = BitVec.ofNat 64 v ∧
      (∀ c, (t.cell c).mem = (s1.cell c).mem ∧ (t.cell c).tags = (s1.cell c).tags) ∧ (∀ p, (t.port p).data = (s1.port p).data) ∧
      t.keys = s1.keys ∧ t.devLog = s1.devLog) ∧
    (s.answers .pf = true → ∃ t, exec (.rcFieldRead .pf 0x80) s = .next t ∧ t.power.peak = 0 ∧ t.power.p10 = (hub 0x80).power.p10 ∧
      fld t.out.readData 32 16 = (hub 0x80).power.peak) ∧
    (s.answers f = true → barPlace s f off = .nowhere → ∃ t, exec (.rcFieldRead f off) s = .next t ∧ t.out.readData = BitVec.allOnes 64 ∧
      t.devLog.next = s1.devLog.next + 1 ∧ { t with out := s1.out, devLog := s1.devLog, pcie := s1.pcie } = s1) ∧
    (∀ w, s.answers f = true → barPlace s f off = .nowhere → ∃ t, exec (.unmappedAccess f off w) s = .next t ∧ t.devLog.next = s.devLog.next + 1 ∧
      (w = false → t.out.readData = BitVec.allOnes 64) ∧ { t with out := s.out, devLog := s.devLog, pcie := s.pcie } = s) ∧
    (∀ (i : SuiteId) (v : W64), s.answers .pf = true → ∃ t, exec (.registerWrite .pf (0x200000 + 0x1000 * i.val) v) s = .next t ∧
      (t.suite i.val).hold.mgmtHold = v.getLsbD 63 ∧ (t.suite i.val).hold.limit = fld v 0 32 ∧ (∀ k, k ≠ i.val → t.suite k = (hub (0x200000 + 0x1000 * i.val)).suite k) ∧
      t.cells = (hub (0x200000 + 0x1000 * i.val)).cells) ∧
    (∀ (k : Fin 64) (v : W64), s.answers .pf = true → ∃ t, exec (.registerWrite .pf (0x2000 + 8 * k.val) v) s = .next t ∧
      sget (false, 0) t.routes k.val = (v.getLsbD 63, fld v 0 4) ∧
      ∀ j, j ≠ k.val → sget (false, 0) t.routes j = sget (false, 0) (hub (0x2000 + 8 * k.val)).routes j) ∧
    (∀ (i : SuiteId) (v : W64) o w, s.answers (.vf i) = true → barPlace s (.vf i) 0x1000 = .hub o → hubReg (hub o) o = some w →
      ∃ t, exec (.registerWrite (.vf i) 0x1000 v) s = .next t ∧ t.devLog.next = (hub o).devLog.next + 1 ∧
        { t with out := (hub o).out, devLog := (hub o).devLog, pcie := (hub o).pcie } = hub o) ∧
    (∀ (c : CellId) (word : Fin 4096) (v : W32),
      (s.answers .pf = true → (s.cell c).held = false → ((s.cell c).state = .idle ∨ (s.cell c).state = .halted ∨ (s.cell c).state = .faulted) →
        ∃ t, exec (.configWindowWrite .pf c word v) s = .next t ∧ (t.cell c).cfgWord word.val = v ∧ (t.cell c).mem = (s.cell c).mem ∧
          (∀ k, k ≠ word.val → (t.cell c).cfgWord k = (s.cell c).cfgWord k) ∧ ∀ k, k ≠ c.val → t.cell k = s.cell k) ∧
      (s.answers .pf = true → (s.cell c).state = .running → ∃ t, exec (.configWindowWrite .pf c word v) s = .next t ∧ t.cells = s.cells ∧
        t.devLog.next = s.devLog.next + 1) ∧
      (∀ i, s.answers (.vf i) = true → ∃ t, exec (.configWindowWrite (.vf i) c word v) s = .next t ∧ t.cells = s.cells ∧ t.devLog.next = s.devLog.next + 1)) ∧
    (∀ a, s.answers f = true → barPlace s f off = .hbm a →
      (∀ w, windowSuite s a = none → ∃ t, exec (.apertureHbmAccess f off w) s = .next t ∧ t.devLog.next = s.devLog.next + 1 ∧ t.ports = s.ports ∧
        (w = none → t.out.readData = BitVec.allOnes 64)) ∧
      (∀ i n (v : W64), windowSuite s a = some i → a % 8 = 0 →
        let w := s.updPort (stackOf a) (fun q => { q with selfRefresh := false })
        let s0 := { w with mbox := { s.mbox with waits := s.mbox.waits ++ [⟨f, off, a, some v⟩] } }
        (∀ h ∈ s.mbox.waits, stackOf h.addr ≠ stackOf a) →
        (s0.idleSlot (stackOf a) i (fun k => decide (k < 2)) = none → exec (.apertureHbmAccess f off (some v)) s = .next s0) ∧
        (s0.idleSlot (stackOf a) i (fun k => decide (k < 2)) = some n →
        Memory.wf ((s0.waitSlot (stackOf a) n).port (stackOf a)).data = true →
        ∃ t, exec (.apertureHbmAccess f off (some v)) s = .next t ∧
          mreadN (t.port (stackOf a)).data (stackOff a) 8 = leBytes 8 v.toNat)))

/-- O57. A cell sends neither ARM nor DISARM, and another part's acts only as the next BARCMD of a channel: there an ARM alone arms a
barrier that it may command and that has PARTICIPANTS (no effect when armed), and a DISARM alone disarms it. For management, or
the VF of the suite that owns the barrier's block: ARM on a disarmed barrier with PARTICIPANTS makes LATCHED the PARTICIPANTS,
ARRIVED and ERROR 0 and ARMED 1, GEN and everything else unchanged; ARM on an armed barrier has no effect; ARM with PARTICIPANTS
of 0 (on a disarmed one) is discarded and logged. DISARM sets ARMED to 0 and discards ARRIVED; the discarded arrivals, when
there are any, are logged. A write to BAR_CFG or BAR_NOTIFY, of a function that answers on the bus, while the barrier is ARMED
is discarded and logged. (R396) -/
def Obligations.ArmAndDisarmOfABarrier : Prop :=
  ∀ (n : BarId) (s : State) (src : BarSrc) (f : HostFn),
    let b := s.barrier n.val
    (∀ k : SuiteId, exec (.barCmdArm (.cell k) n) s = .next s ∧ exec (.barCmdDisarm (.cell k) n) s = .next s) ∧
    (∀ p i, (∀ g < 16, ∀ vc < 5, ∀ x, gHead s g vc 4 = some x → txnSrc x ≠ p.toNat) →
      exec (.barCmdArm (.remote p i) n) s = .next s ∧ exec (.barCmdDisarm (.remote p i) n) s = .next s) ∧
    (∀ (g : GPort) (vc : Vc) x, gHead s g.val vc.val 4 = some x → txnDst x = s.part.toNat → barOf (txnAddr x % 2 ^ 48) = some n.val →
      (b.remote = true ∨ x.arrived = none) →
      (leAt x.body 0 8 / 2 ^ 59 % 32 = 16 → b.participants ≠ 0 → ∃ t, exec (.gaconBarcmd g vc) s = .next t ∧
        t.barrier n.val = (if b.armed then b else { b with latched := b.participants, arrived := 0, error := false, armed := true })) ∧
      (leAt x.body 0 8 / 2 ^ 59 % 32 = 8 → ∃ t, exec (.gaconBarcmd g vc) s = .next t ∧
        t.barrier n.val = { b with armed := false, arrived := 0 })) ∧
    ((src = .mgmt ∧ f = .pf ∨ ∃ k : SuiteId, src = .vf k ∧ f = .vf k ∧ s.barOwner n.val = some k.val) →
    (b.armed = false → b.participants ≠ 0 → exec (.barCmdArm src n) s =
      .next (s.setBarrier n.val { b with latched := b.participants, arrived := 0, error := false, armed := true })) ∧
    (b.armed = true → exec (.barCmdArm src n) s = .next s) ∧
    (b.armed = false → b.participants = 0 → ∃ t, exec (.barCmdArm src n) s = .next t ∧ t.devLog.next = s.devLog.next + 1 ∧
      { t with out := s.out, devLog := s.devLog, pcie := s.pcie } = s) ∧
    (∃ t, exec (.barCmdDisarm src n) s = .next t ∧ t.barrier n.val = { b with armed := false, arrived := 0 } ∧
      t.devLog.next = (if b.arrived = 0 then s.devLog.next else s.devLog.next + 1) ∧ (∀ k, k ≠ n.val → t.barrier k = s.barrier k) ∧
      t.cells = s.cells) ∧
    (∀ (r : Fin 5) (v : W64), s.answers f = true → b.armed = true → ∃ t, exec (.barCfgWrite f n r v) s = .next t ∧ t.devLog.next = s.devLog.next + 1 ∧
      { t with out := s.out, devLog := s.devLog, pcie := s.pcie } = s))

/-- O58. From every state in which each side on the device edge is CLOSED and no isolation write that waits for its beat would open one,
every step (any of the commands, or the passing of time) leads to such a state; and in such a state the isolation field of each
bay of the device has the bit of each edge side 0, which reads as CLOSED. (R286) -/
def Obligations.EdgeSidesStayClosed : Prop :=
  (∀ s t : State, EdgesClosed s → step s = .next t → EdgesClosed t) ∧
  (∀ (s : State) (b : BayId) (d : Fin 4), EdgesClosed s → onEdge b.val d.val = true → (s.bay b.val).iso.getLsbD d.val = false)

/-- O59. From every state whose fuses stand as in a base state or beyond, every step (any mailbox command, reset, loss of power or
firmware update included) leads to one of which the same holds: the device identity, grade, unique key, good-bay fuses and shift
fuses are those of the base; a programmed FK slot keeps its key; no FK or signer revocation is undone; a valid signer slot stays
valid with its digest, and its SVN floor, like SVN_MIN, never falls. (R25, R473, R526, R541, R604, R605, R608) -/
def Obligations.FusesAreNeverUndone : Prop :=
  ∀ base s t : State, FusesFrom base s → step s = .next t → FusesFrom base t

/-- O60. State.reset is the state after a power-on reset: the device state is MACERATION, VAON is good, no command waits, the tick
counter is 0, every cell is IDLE with EMPTY panes, bytes of 0 and no configuration, every bay is OFF, unowned and CLOSED on
every side, no suite exists, every Gacon port is DOWN, no ring is enabled, no session is open, DOMAIN_ID is not valid, every
barrier is disarmed, METER_CTL's period is 60 s, POLICY's cap is 3,000 W; the edge sides are CLOSED, and the fuses stand as in
the reset state itself. (R46, R288, R395, R400, R452, R541, R614) -/
def Obligations.ResetLeavesThePowerOnState : Prop :=
  let s := State.reset
  s.devState = .maceration ∧ s.power.vaonGood = true ∧ s.pending = [] ∧ s.tick = 0 ∧
  (∀ c, (s.cell c).state = .idle ∧ (∀ g, (s.cell c).tag g = .empty) ∧ (∀ a, mread (s.cell c).mem a = 0) ∧ (∀ z, ((s.cell c).zone z).valid = false)) ∧
  (∀ b, (s.bay b).power = .off ∧ (s.bay b).owner = none ∧ (s.bay b).iso = 0) ∧ (∀ i, (s.suite i).state = .none) ∧
  (∀ g, (s.gport g).state = .down) ∧ (∀ f k, (s.ring f k).enable = false) ∧ s.mbox.sessions = [] ∧ s.domainValid = false ∧
  (∀ n, (s.barrier n).armed = false) ∧ s.metering.period = 60 ∧ s.power.cap = 3000 ∧ EdgesClosed s ∧ FusesFrom s s
end

