-- ==== Sys2Proof/Laws/Sparse.lean ====
section
/-!
SUPPORT. Sparse collections and byte memories: a read after a write, and the canonical form that every memory operation keeps.
-/

namespace Sys2Proof.Machine

variable {V : Type}

@[simp] theorem sget_sset_same (d : V) (m : SMap V) (k : Nat) (v : V) : sget d (sset m k v) k = v := by
  induction m with
  | nil => simp [sset, sget]
  | cons e r ih =>
    obtain ⟨i, w⟩ := e
    unfold sset
    split
    · simp [sget]
    · split
      · simp [sget]
      · rename_i h; simp [sget, h, ih]

theorem sget_sset_ne (d : V) (m : SMap V) (k j : Nat) (v : V) (h : j ≠ k) : sget d (sset m k v) j = sget d m j := by
  induction m with
  | nil => simp [sset, sget, Ne.symm h]
  | cons e r ih =>
    obtain ⟨i, w⟩ := e
    unfold sset
    split
    · simp [sget, Ne.symm h]
    · split
      · rename_i h1 h2; subst h2; simp [sget, Ne.symm h]
      · simp [sget, ih]

/-- A read after a write of a sparse collection. -/
theorem sget_sset (d : V) (m : SMap V) (k j : Nat) (v : V) : sget d (sset m k v) j = if j = k then v else sget d m j := by
  split
  · rename_i h; subst h; simp
  · rename_i h; exact sget_sset_ne d m k j v h

@[simp] theorem sget_sdel_same (d : V) (m : SMap V) (k : Nat) : sget d (sdel m k) k = d := by
  induction m with
  | nil => rfl
  | cons e r ih =>
    obtain ⟨i, w⟩ := e
    unfold sdel at *
    by_cases h : i = k
    · simp [List.filter_cons, h, ih]
    · simp [List.filter_cons, h, sget, ih]

theorem sget_sdel_ne (d : V) (m : SMap V) (k j : Nat) (h : j ≠ k) : sget d (sdel m k) j = sget d m j := by
  induction m with
  | nil => rfl
  | cons e r ih =>
    obtain ⟨i, w⟩ := e
    unfold sdel at *
    by_cases h1 : i = k
    · subst h1; simp [List.filter_cons, sget, Ne.symm h, ih]
    · by_cases h2 : i = j <;> simp [List.filter_cons, h1, h2, sget, ih, h]

/-! ### Memories -/

/-- The form without its all-zero clause, as a relation: every entry's address is at least lo, and addresses rise. -/
def risesFrom (lo : Nat) : Memory → Bool
  | [] => true
  | (i, v) :: r => decide (lo ≤ i) && v != 0 && risesFrom (i + 1) r

theorem risesFrom_mono {lo hi : Nat} (m : Memory) (h : lo ≤ hi) (w : risesFrom hi m = true) : risesFrom lo m = true := by
  cases m with
  | nil => rfl
  | cons e r =>
    simp only [risesFrom, Bool.and_eq_true, decide_eq_true_eq] at *
    exact ⟨⟨by omega, w.1.2⟩, w.2⟩

theorem wf_iff_risesFrom (m : Memory) : Memory.wf m = true ↔ risesFrom 0 m = true := by
  have gen : ∀ (m : Memory) (lo : Nat), risesFrom lo m = true ↔
      (Memory.wf m = true ∧ ∀ e ∈ m.head?, lo ≤ e.1) := by
    intro m
    induction m with
    | nil => intro lo; simp [risesFrom, Memory.wf, sorted]
    | cons e r ih =>
      intro lo
      obtain ⟨i, v⟩ := e
      cases r with
      | nil => simp [risesFrom, Memory.wf, sorted, and_comm]
      | cons e2 r2 =>
        obtain ⟨j, w⟩ := e2
        rw [risesFrom, Bool.and_eq_true, ih (i + 1)]
        simp [Memory.wf, sorted]
        constructor
        · rintro ⟨⟨a, b⟩, ⟨c, d⟩, e⟩; exact ⟨⟨⟨by omega, c⟩, b, d⟩, a⟩
        · rintro ⟨⟨⟨a, c⟩, b, d⟩, e⟩; exact ⟨⟨e, b⟩, ⟨c, d⟩, by omega⟩
  rw [gen m 0]; simp

theorem risesFrom_mwrite (m : Memory) (lo a : Nat) (v : Byte) (h : risesFrom lo m = true) (ha : lo ≤ a) :
    risesFrom lo (mwrite m a v) = true := by
  induction m generalizing lo with
  | nil => unfold mwrite; split <;> simp_all [risesFrom]
  | cons e r ih =>
    obtain ⟨i, w⟩ := e
    simp only [risesFrom, Bool.and_eq_true, decide_eq_true_eq] at h
    obtain ⟨⟨h1, h2⟩, h3⟩ := h
    unfold mwrite
    split
    · rename_i hlt
      split
      · simp only [risesFrom, Bool.and_eq_true, decide_eq_true_eq]; exact ⟨⟨h1, h2⟩, h3⟩
      · rename_i hv
        simp only [risesFrom, Bool.and_eq_true, decide_eq_true_eq]
        exact ⟨⟨ha, by simpa using hv⟩, ⟨by omega, h2⟩, h3⟩
    · split
      · rename_i _ heq; subst heq
        split
        · exact risesFrom_mono r (by omega) h3
        · rename_i hv
          simp only [risesFrom, Bool.and_eq_true, decide_eq_true_eq, bne_iff_ne]
          exact ⟨⟨h1, hv⟩, h3⟩
      · simp only [risesFrom, Bool.and_eq_true, decide_eq_true_eq]
        exact ⟨⟨h1, h2⟩, ih (i + 1) h3 (by omega)⟩

/-- A byte written keeps the canonical form. -/
theorem mwrite_wf (m : Memory) (a : Nat) (v : Byte) (h : Memory.wf m = true) : Memory.wf (mwrite m a v) = true := by
  rw [wf_iff_risesFrom] at *
  exact risesFrom_mwrite m 0 a v h (Nat.zero_le a)

/-- Bytes written keep the canonical form. -/
theorem mwriteN_wf (bs : List Byte) : ∀ (m : Memory) (a : Nat), Memory.wf m = true → Memory.wf (mwriteN m a bs) = true := by
  induction bs with
  | nil => intro m a h; exact h
  | cons b r ih => intro m a h; exact ih _ _ (mwrite_wf m a b h)

theorem risesFrom_filter (p : Nat × Byte → Bool) (m : Memory) : ∀ lo, risesFrom lo m = true → risesFrom lo (m.filter p) = true := by
  induction m with
  | nil => intro lo _; rfl
  | cons e r ih =>
    intro lo h
    obtain ⟨i, w⟩ := e
    simp only [risesFrom, Bool.and_eq_true, decide_eq_true_eq] at h
    by_cases hp : p (i, w) = true
    · rw [List.filter_cons_of_pos hp]
      simp only [risesFrom, Bool.and_eq_true, decide_eq_true_eq]
      exact ⟨h.1, ih (i + 1) h.2⟩
    · rw [List.filter_cons_of_neg (by simpa using hp)]
      exact ih lo (risesFrom_mono r (by omega) h.2)

/-- Clearing a range keeps the canonical form. -/
theorem mclear_wf (m : Memory) (lo hi : Nat) (h : Memory.wf m = true) : Memory.wf (mclear m lo hi) = true := by
  rw [wf_iff_risesFrom] at *
  exact risesFrom_filter _ m 0 h

theorem mread_of_risesFrom (m : Memory) : ∀ (lo a : Nat), risesFrom lo m = true → a < lo → mread m a = 0 := by
  induction m with
  | nil => intro lo a _ _; rfl
  | cons e r ih =>
    intro lo a h hlt
    obtain ⟨i, w⟩ := e
    simp only [risesFrom, Bool.and_eq_true, decide_eq_true_eq] at h
    have : i ≠ a := by omega
    simp only [mread, sget, this, if_false]
    exact ih (i + 1) a h.2 (by omega)

/-- A read after a write: the byte written, and every other byte as it was. -/
theorem mread_mwrite (m : Memory) (a b : Nat) (v : Byte) (h : Memory.wf m = true) :
    mread (mwrite m a v) b = if b = a then v else mread m b := by
  have gen : ∀ (m : Memory) (lo : Nat), risesFrom lo m = true → mread (mwrite m a v) b = if b = a then v else mread m b := by
    intro m
    induction m with
    | nil =>
      intro lo _
      unfold mwrite
      split
      · rename_i hv; by_cases hb : b = a <;> simp [hv, hb, mread, sget]
      · by_cases hb : b = a
        · simp [hb, mread, sget]
        · simp [hb, mread, sget, Ne.symm hb]
    | cons e r ih =>
      intro lo h
      obtain ⟨i, w⟩ := e
      simp only [risesFrom, Bool.and_eq_true, decide_eq_true_eq] at h
      have hr := mread_of_risesFrom r (i + 1)
      unfold mwrite
      split
      · rename_i hlt
        split
        · rename_i hv
          by_cases hb : b = a
          · subst hb
            have : i ≠ b := by omega
            have h2 := hr b h.2 (by omega)
            simp only [mread, sget, this, if_false, if_true, hv] at *
            exact h2
          · simp [hb]
        · by_cases hb : b = a
          · simp [hb, mread, sget]
          · simp [hb, mread, sget, Ne.symm hb]
      · split
        · rename_i _ heq; subst heq
          split
          · rename_i hv
            by_cases hb : b = i
            · subst hb; rw [hr b h.2 (by omega)]; simp [hv]
            · simp [hb, mread, sget, Ne.symm hb]
          · by_cases hb : b = i
            · simp [hb, mread, sget]
            · simp [hb, mread, sget, Ne.symm hb]
        · rename_i h1 h2
          have := ih (i + 1) h.2
          simp only [mread] at this
          by_cases hib : i = b
          · subst hib
            have hne : i ≠ a := h2
            simp [mread, sget, hne]
          · simp only [mread, sget, hib, if_false]
            exact this
  exact gen m 0 ((wf_iff_risesFrom m).1 h)

end Sys2Proof.Machine
end

