-- ==== Sys2Proof/Laws/State.lean ====
section
/-!
SUPPORT. One lemma per field per update of the state, each true by definition, and reads after writes of its parts.
-/

namespace Sys2Proof.Machine

/-! ### cells -/

@[simp] theorem State.setCell_now (s : State) (c : Nat) (y : Cell) : (s.setCell c y).now = s.now := rfl
@[simp] theorem State.setCell_tick (s : State) (c : Nat) (y : Cell) : (s.setCell c y).tick = s.tick := rfl
@[simp] theorem State.setCell_free (s : State) (c : Nat) (y : Cell) : (s.setCell c y).free = s.free := rfl
@[simp] theorem State.setCell_pending (s : State) (c : Nat) (y : Cell) : (s.setCell c y).pending = s.pending := rfl
@[simp] theorem State.setCell_devState (s : State) (c : Nat) (y : Cell) : (s.setCell c y).devState = s.devState := rfl
@[simp] theorem State.setCell_quiesced (s : State) (c : Nat) (y : Cell) : (s.setCell c y).quiesced = s.quiesced := rfl
@[simp] theorem State.setCell_drainMode (s : State) (c : Nat) (y : Cell) : (s.setCell c y).drainMode = s.drainMode := rfl
@[simp] theorem State.setCell_drainAt (s : State) (c : Nat) (y : Cell) : (s.setCell c y).drainAt = s.drainAt := rfl
@[simp] theorem State.setCell_grade (s : State) (c : Nat) (y : Cell) : (s.setCell c y).grade = s.grade := rfl
@[simp] theorem State.setCell_uid (s : State) (c : Nat) (y : Cell) : (s.setCell c y).uid = s.uid := rfl
@[simp] theorem State.setCell_domainValid (s : State) (c : Nat) (y : Cell) : (s.setCell c y).domainValid = s.domainValid := rfl
@[simp] theorem State.setCell_part (s : State) (c : Nat) (y : Cell) : (s.setCell c y).part = s.part := rfl
@[simp] theorem State.setCell_routes (s : State) (c : Nat) (y : Cell) : (s.setCell c y).routes = s.routes := rfl
@[simp] theorem State.setCell_power (s : State) (c : Nat) (y : Cell) : (s.setCell c y).power = s.power := rfl
@[simp] theorem State.setCell_macer (s : State) (c : Nat) (y : Cell) : (s.setCell c y).macer = s.macer := rfl
@[simp] theorem State.setCell_repair (s : State) (c : Nat) (y : Cell) : (s.setCell c y).repair = s.repair := rfl
@[simp] theorem State.setCell_keys (s : State) (c : Nat) (y : Cell) : (s.setCell c y).keys = s.keys := rfl
@[simp] theorem State.setCell_fw (s : State) (c : Nat) (y : Cell) : (s.setCell c y).fw = s.fw := rfl
@[simp] theorem State.setCell_mgmt (s : State) (c : Nat) (y : Cell) : (s.setCell c y).mgmt = s.mgmt := rfl
@[simp] theorem State.setCell_metering (s : State) (c : Nat) (y : Cell) : (s.setCell c y).metering = s.metering := rfl
@[simp] theorem State.setCell_pcie (s : State) (c : Nat) (y : Cell) : (s.setCell c y).pcie = s.pcie := rfl
@[simp] theorem State.setCell_store (s : State) (c : Nat) (y : Cell) : (s.setCell c y).store = s.store := rfl
@[simp] theorem State.setCell_mbox (s : State) (c : Nat) (y : Cell) : (s.setCell c y).mbox = s.mbox := rfl
@[simp] theorem State.setCell_devLog (s : State) (c : Nat) (y : Cell) : (s.setCell c y).devLog = s.devLog := rfl
@[simp] theorem State.setCell_errLog (s : State) (c : Nat) (y : Cell) : (s.setCell c y).errLog = s.errLog := rfl
@[simp] theorem State.setCell_devCtrs (s : State) (c : Nat) (y : Cell) : (s.setCell c y).devCtrs = s.devCtrs := rfl
@[simp] theorem State.setCell_bays (s : State) (c : Nat) (y : Cell) : (s.setCell c y).bays = s.bays := rfl
@[simp] theorem State.setCell_suites (s : State) (c : Nat) (y : Cell) : (s.setCell c y).suites = s.suites := rfl
@[simp] theorem State.setCell_ports (s : State) (c : Nat) (y : Cell) : (s.setCell c y).ports = s.ports := rfl
@[simp] theorem State.setCell_streams (s : State) (c : Nat) (y : Cell) : (s.setCell c y).streams = s.streams := rfl
@[simp] theorem State.setCell_gacon (s : State) (c : Nat) (y : Cell) : (s.setCell c y).gacon = s.gacon := rfl
@[simp] theorem State.setCell_barriers (s : State) (c : Nat) (y : Cell) : (s.setCell c y).barriers = s.barriers := rfl
@[simp] theorem State.setCell_seqs (s : State) (c : Nat) (y : Cell) : (s.setCell c y).seqs = s.seqs := rfl
@[simp] theorem State.setCell_out (s : State) (c : Nat) (y : Cell) : (s.setCell c y).out = s.out := rfl
@[simp] theorem State.setCell_bay (s : State) (c : Nat) (y : Cell) (k : Nat) : (s.setCell c y).bay k = s.bay k := rfl
@[simp] theorem State.setCell_suite (s : State) (c : Nat) (y : Cell) (k : Nat) : (s.setCell c y).suite k = s.suite k := rfl
@[simp] theorem State.setCell_port (s : State) (c : Nat) (y : Cell) (k : Nat) : (s.setCell c y).port k = s.port k := rfl
@[simp] theorem State.setCell_gport (s : State) (c : Nat) (y : Cell) (k : Nat) : (s.setCell c y).gport k = s.gport k := rfl
@[simp] theorem State.setCell_barrier (s : State) (c : Nat) (y : Cell) (k : Nat) : (s.setCell c y).barrier k = s.barrier k := rfl
@[simp] theorem State.setCell_seqEntry (s : State) (c : Nat) (y : Cell) (k : Nat) : (s.setCell c y).seqEntry k = s.seqEntry k := rfl
@[simp] theorem State.setCell_stream (s : State) (c : Nat) (y : Cell) (k : StreamCtx) : (s.setCell c y).stream k = s.stream k := rfl
@[simp] theorem State.setCell_cell_same (s : State) (k : Nat) (y : Cell) : (s.setCell k y).cell k = y := sget_sset_same _ _ _ _
theorem State.setCell_cell_ne (s : State) (k j : Nat) (y : Cell) (h : j ≠ k) : (s.setCell k y).cell j = s.cell j := sget_sset_ne _ _ _ _ _ h
theorem State.setCell_cell (s : State) (k j : Nat) (y : Cell) : (s.setCell k y).cell j = if j = k then y else s.cell j := sget_sset _ _ _ _ _
theorem State.updCell_def (s : State) (c : Nat) (f : Cell → Cell) : s.updCell c f = s.setCell c (f (s.cell c)) := rfl
@[simp] theorem State.updCell_now (s : State) (c : Nat) (f : Cell → Cell) : (s.updCell c f).now = s.now := rfl
@[simp] theorem State.updCell_tick (s : State) (c : Nat) (f : Cell → Cell) : (s.updCell c f).tick = s.tick := rfl
@[simp] theorem State.updCell_free (s : State) (c : Nat) (f : Cell → Cell) : (s.updCell c f).free = s.free := rfl
@[simp] theorem State.updCell_pending (s : State) (c : Nat) (f : Cell → Cell) : (s.updCell c f).pending = s.pending := rfl
@[simp] theorem State.updCell_devState (s : State) (c : Nat) (f : Cell → Cell) : (s.updCell c f).devState = s.devState := rfl
@[simp] theorem State.updCell_quiesced (s : State) (c : Nat) (f : Cell → Cell) : (s.updCell c f).quiesced = s.quiesced := rfl
@[simp] theorem State.updCell_drainMode (s : State) (c : Nat) (f : Cell → Cell) : (s.updCell c f).drainMode = s.drainMode := rfl
@[simp] theorem State.updCell_drainAt (s : State) (c : Nat) (f : Cell → Cell) : (s.updCell c f).drainAt = s.drainAt := rfl
@[simp] theorem State.updCell_grade (s : State) (c : Nat) (f : Cell → Cell) : (s.updCell c f).grade = s.grade := rfl
@[simp] theorem State.updCell_uid (s : State) (c : Nat) (f : Cell → Cell) : (s.updCell c f).uid = s.uid := rfl
@[simp] theorem State.updCell_domainValid (s : State) (c : Nat) (f : Cell → Cell) : (s.updCell c f).domainValid = s.domainValid := rfl
@[simp] theorem State.updCell_part (s : State) (c : Nat) (f : Cell → Cell) : (s.updCell c f).part = s.part := rfl
@[simp] theorem State.updCell_routes (s : State) (c : Nat) (f : Cell → Cell) : (s.updCell c f).routes = s.routes := rfl
@[simp] theorem State.updCell_power (s : State) (c : Nat) (f : Cell → Cell) : (s.updCell c f).power = s.power := rfl
@[simp] theorem State.updCell_macer (s : State) (c : Nat) (f : Cell → Cell) : (s.updCell c f).macer = s.macer := rfl
@[simp] theorem State.updCell_repair (s : State) (c : Nat) (f : Cell → Cell) : (s.updCell c f).repair = s.repair := rfl
@[simp] theorem State.updCell_keys (s : State) (c : Nat) (f : Cell → Cell) : (s.updCell c f).keys = s.keys := rfl
@[simp] theorem State.updCell_fw (s : State) (c : Nat) (f : Cell → Cell) : (s.updCell c f).fw = s.fw := rfl
@[simp] theorem State.updCell_mgmt (s : State) (c : Nat) (f : Cell → Cell) : (s.updCell c f).mgmt = s.mgmt := rfl
@[simp] theorem State.updCell_metering (s : State) (c : Nat) (f : Cell → Cell) : (s.updCell c f).metering = s.metering := rfl
@[simp] theorem State.updCell_pcie (s : State) (c : Nat) (f : Cell → Cell) : (s.updCell c f).pcie = s.pcie := rfl
@[simp] theorem State.updCell_store (s : State) (c : Nat) (f : Cell → Cell) : (s.updCell c f).store = s.store := rfl
@[simp] theorem State.updCell_mbox (s : State) (c : Nat) (f : Cell → Cell) : (s.updCell c f).mbox = s.mbox := rfl
@[simp] theorem State.updCell_devLog (s : State) (c : Nat) (f : Cell → Cell) : (s.updCell c f).devLog = s.devLog := rfl
@[simp] theorem State.updCell_errLog (s : State) (c : Nat) (f : Cell → Cell) : (s.updCell c f).errLog = s.errLog := rfl
@[simp] theorem State.updCell_devCtrs (s : State) (c : Nat) (f : Cell → Cell) : (s.updCell c f).devCtrs = s.devCtrs := rfl
@[simp] theorem State.updCell_bays (s : State) (c : Nat) (f : Cell → Cell) : (s.updCell c f).bays = s.bays := rfl
@[simp] theorem State.updCell_suites (s : State) (c : Nat) (f : Cell → Cell) : (s.updCell c f).suites = s.suites := rfl
@[simp] theorem State.updCell_ports (s : State) (c : Nat) (f : Cell → Cell) : (s.updCell c f).ports = s.ports := rfl
@[simp] theorem State.updCell_streams (s : State) (c : Nat) (f : Cell → Cell) : (s.updCell c f).streams = s.streams := rfl
@[simp] theorem State.updCell_gacon (s : State) (c : Nat) (f : Cell → Cell) : (s.updCell c f).gacon = s.gacon := rfl
@[simp] theorem State.updCell_barriers (s : State) (c : Nat) (f : Cell → Cell) : (s.updCell c f).barriers = s.barriers := rfl
@[simp] theorem State.updCell_seqs (s : State) (c : Nat) (f : Cell → Cell) : (s.updCell c f).seqs = s.seqs := rfl
@[simp] theorem State.updCell_out (s : State) (c : Nat) (f : Cell → Cell) : (s.updCell c f).out = s.out := rfl
@[simp] theorem State.updCell_bay (s : State) (c : Nat) (f : Cell → Cell) (k : Nat) : (s.updCell c f).bay k = s.bay k := rfl
@[simp] theorem State.updCell_suite (s : State) (c : Nat) (f : Cell → Cell) (k : Nat) : (s.updCell c f).suite k = s.suite k := rfl
@[simp] theorem State.updCell_port (s : State) (c : Nat) (f : Cell → Cell) (k : Nat) : (s.updCell c f).port k = s.port k := rfl
@[simp] theorem State.updCell_gport (s : State) (c : Nat) (f : Cell → Cell) (k : Nat) : (s.updCell c f).gport k = s.gport k := rfl
@[simp] theorem State.updCell_barrier (s : State) (c : Nat) (f : Cell → Cell) (k : Nat) : (s.updCell c f).barrier k = s.barrier k := rfl
@[simp] theorem State.updCell_seqEntry (s : State) (c : Nat) (f : Cell → Cell) (k : Nat) : (s.updCell c f).seqEntry k = s.seqEntry k := rfl
@[simp] theorem State.updCell_stream (s : State) (c : Nat) (f : Cell → Cell) (k : StreamCtx) : (s.updCell c f).stream k = s.stream k := rfl
@[simp] theorem State.updCell_cell_same (s : State) (k : Nat) (f : Cell → Cell) : (s.updCell k f).cell k = f (s.cell k) := sget_sset_same _ _ _ _
theorem State.updCell_cell_ne (s : State) (k j : Nat) (f : Cell → Cell) (h : j ≠ k) : (s.updCell k f).cell j = s.cell j := sget_sset_ne _ _ _ _ _ h

/-! ### bays -/

@[simp] theorem State.setBay_now (s : State) (b : Nat) (y : Bay) : (s.setBay b y).now = s.now := rfl
@[simp] theorem State.setBay_tick (s : State) (b : Nat) (y : Bay) : (s.setBay b y).tick = s.tick := rfl
@[simp] theorem State.setBay_free (s : State) (b : Nat) (y : Bay) : (s.setBay b y).free = s.free := rfl
@[simp] theorem State.setBay_pending (s : State) (b : Nat) (y : Bay) : (s.setBay b y).pending = s.pending := rfl
@[simp] theorem State.setBay_devState (s : State) (b : Nat) (y : Bay) : (s.setBay b y).devState = s.devState := rfl
@[simp] theorem State.setBay_quiesced (s : State) (b : Nat) (y : Bay) : (s.setBay b y).quiesced = s.quiesced := rfl
@[simp] theorem State.setBay_drainMode (s : State) (b : Nat) (y : Bay) : (s.setBay b y).drainMode = s.drainMode := rfl
@[simp] theorem State.setBay_drainAt (s : State) (b : Nat) (y : Bay) : (s.setBay b y).drainAt = s.drainAt := rfl
@[simp] theorem State.setBay_grade (s : State) (b : Nat) (y : Bay) : (s.setBay b y).grade = s.grade := rfl
@[simp] theorem State.setBay_uid (s : State) (b : Nat) (y : Bay) : (s.setBay b y).uid = s.uid := rfl
@[simp] theorem State.setBay_domainValid (s : State) (b : Nat) (y : Bay) : (s.setBay b y).domainValid = s.domainValid := rfl
@[simp] theorem State.setBay_part (s : State) (b : Nat) (y : Bay) : (s.setBay b y).part = s.part := rfl
@[simp] theorem State.setBay_routes (s : State) (b : Nat) (y : Bay) : (s.setBay b y).routes = s.routes := rfl
@[simp] theorem State.setBay_power (s : State) (b : Nat) (y : Bay) : (s.setBay b y).power = s.power := rfl
@[simp] theorem State.setBay_macer (s : State) (b : Nat) (y : Bay) : (s.setBay b y).macer = s.macer := rfl
@[simp] theorem State.setBay_repair (s : State) (b : Nat) (y : Bay) : (s.setBay b y).repair = s.repair := rfl
@[simp] theorem State.setBay_keys (s : State) (b : Nat) (y : Bay) : (s.setBay b y).keys = s.keys := rfl
@[simp] theorem State.setBay_fw (s : State) (b : Nat) (y : Bay) : (s.setBay b y).fw = s.fw := rfl
@[simp] theorem State.setBay_mgmt (s : State) (b : Nat) (y : Bay) : (s.setBay b y).mgmt = s.mgmt := rfl
@[simp] theorem State.setBay_metering (s : State) (b : Nat) (y : Bay) : (s.setBay b y).metering = s.metering := rfl
@[simp] theorem State.setBay_pcie (s : State) (b : Nat) (y : Bay) : (s.setBay b y).pcie = s.pcie := rfl
@[simp] theorem State.setBay_store (s : State) (b : Nat) (y : Bay) : (s.setBay b y).store = s.store := rfl
@[simp] theorem State.setBay_mbox (s : State) (b : Nat) (y : Bay) : (s.setBay b y).mbox = s.mbox := rfl
@[simp] theorem State.setBay_devLog (s : State) (b : Nat) (y : Bay) : (s.setBay b y).devLog = s.devLog := rfl
@[simp] theorem State.setBay_errLog (s : State) (b : Nat) (y : Bay) : (s.setBay b y).errLog = s.errLog := rfl
@[simp] theorem State.setBay_devCtrs (s : State) (b : Nat) (y : Bay) : (s.setBay b y).devCtrs = s.devCtrs := rfl
@[simp] theorem State.setBay_cells (s : State) (b : Nat) (y : Bay) : (s.setBay b y).cells = s.cells := rfl
@[simp] theorem State.setBay_suites (s : State) (b : Nat) (y : Bay) : (s.setBay b y).suites = s.suites := rfl
@[simp] theorem State.setBay_ports (s : State) (b : Nat) (y : Bay) : (s.setBay b y).ports = s.ports := rfl
@[simp] theorem State.setBay_streams (s : State) (b : Nat) (y : Bay) : (s.setBay b y).streams = s.streams := rfl
@[simp] theorem State.setBay_gacon (s : State) (b : Nat) (y : Bay) : (s.setBay b y).gacon = s.gacon := rfl
@[simp] theorem State.setBay_barriers (s : State) (b : Nat) (y : Bay) : (s.setBay b y).barriers = s.barriers := rfl
@[simp] theorem State.setBay_seqs (s : State) (b : Nat) (y : Bay) : (s.setBay b y).seqs = s.seqs := rfl
@[simp] theorem State.setBay_out (s : State) (b : Nat) (y : Bay) : (s.setBay b y).out = s.out := rfl
@[simp] theorem State.setBay_cell (s : State) (b : Nat) (y : Bay) (k : Nat) : (s.setBay b y).cell k = s.cell k := rfl
@[simp] theorem State.setBay_suite (s : State) (b : Nat) (y : Bay) (k : Nat) : (s.setBay b y).suite k = s.suite k := rfl
@[simp] theorem State.setBay_port (s : State) (b : Nat) (y : Bay) (k : Nat) : (s.setBay b y).port k = s.port k := rfl
@[simp] theorem State.setBay_gport (s : State) (b : Nat) (y : Bay) (k : Nat) : (s.setBay b y).gport k = s.gport k := rfl
@[simp] theorem State.setBay_barrier (s : State) (b : Nat) (y : Bay) (k : Nat) : (s.setBay b y).barrier k = s.barrier k := rfl
@[simp] theorem State.setBay_seqEntry (s : State) (b : Nat) (y : Bay) (k : Nat) : (s.setBay b y).seqEntry k = s.seqEntry k := rfl
@[simp] theorem State.setBay_stream (s : State) (b : Nat) (y : Bay) (k : StreamCtx) : (s.setBay b y).stream k = s.stream k := rfl
@[simp] theorem State.setBay_bay_same (s : State) (k : Nat) (y : Bay) : (s.setBay k y).bay k = y := sget_sset_same _ _ _ _
theorem State.setBay_bay_ne (s : State) (k j : Nat) (y : Bay) (h : j ≠ k) : (s.setBay k y).bay j = s.bay j := sget_sset_ne _ _ _ _ _ h
theorem State.setBay_bay (s : State) (k j : Nat) (y : Bay) : (s.setBay k y).bay j = if j = k then y else s.bay j := sget_sset _ _ _ _ _
theorem State.updBay_def (s : State) (b : Nat) (f : Bay → Bay) : s.updBay b f = s.setBay b (f (s.bay b)) := rfl
@[simp] theorem State.updBay_now (s : State) (b : Nat) (f : Bay → Bay) : (s.updBay b f).now = s.now := rfl
@[simp] theorem State.updBay_tick (s : State) (b : Nat) (f : Bay → Bay) : (s.updBay b f).tick = s.tick := rfl
@[simp] theorem State.updBay_free (s : State) (b : Nat) (f : Bay → Bay) : (s.updBay b f).free = s.free := rfl
@[simp] theorem State.updBay_pending (s : State) (b : Nat) (f : Bay → Bay) : (s.updBay b f).pending = s.pending := rfl
@[simp] theorem State.updBay_devState (s : State) (b : Nat) (f : Bay → Bay) : (s.updBay b f).devState = s.devState := rfl
@[simp] theorem State.updBay_quiesced (s : State) (b : Nat) (f : Bay → Bay) : (s.updBay b f).quiesced = s.quiesced := rfl
@[simp] theorem State.updBay_drainMode (s : State) (b : Nat) (f : Bay → Bay) : (s.updBay b f).drainMode = s.drainMode := rfl
@[simp] theorem State.updBay_drainAt (s : State) (b : Nat) (f : Bay → Bay) : (s.updBay b f).drainAt = s.drainAt := rfl
@[simp] theorem State.updBay_grade (s : State) (b : Nat) (f : Bay → Bay) : (s.updBay b f).grade = s.grade := rfl
@[simp] theorem State.updBay_uid (s : State) (b : Nat) (f : Bay → Bay) : (s.updBay b f).uid = s.uid := rfl
@[simp] theorem State.updBay_domainValid (s : State) (b : Nat) (f : Bay → Bay) : (s.updBay b f).domainValid = s.domainValid := rfl
@[simp] theorem State.updBay_part (s : State) (b : Nat) (f : Bay → Bay) : (s.updBay b f).part = s.part := rfl
@[simp] theorem State.updBay_routes (s : State) (b : Nat) (f : Bay → Bay) : (s.updBay b f).routes = s.routes := rfl
@[simp] theorem State.updBay_power (s : State) (b : Nat) (f : Bay → Bay) : (s.updBay b f).power = s.power := rfl
@[simp] theorem State.updBay_macer (s : State) (b : Nat) (f : Bay → Bay) : (s.updBay b f).macer = s.macer := rfl
@[simp] theorem State.updBay_repair (s : State) (b : Nat) (f : Bay → Bay) : (s.updBay b f).repair = s.repair := rfl
@[simp] theorem State.updBay_keys (s : State) (b : Nat) (f : Bay → Bay) : (s.updBay b f).keys = s.keys := rfl
@[simp] theorem State.updBay_fw (s : State) (b : Nat) (f : Bay → Bay) : (s.updBay b f).fw = s.fw := rfl
@[simp] theorem State.updBay_mgmt (s : State) (b : Nat) (f : Bay → Bay) : (s.updBay b f).mgmt = s.mgmt := rfl
@[simp] theorem State.updBay_metering (s : State) (b : Nat) (f : Bay → Bay) : (s.updBay b f).metering = s.metering := rfl
@[simp] theorem State.updBay_pcie (s : State) (b : Nat) (f : Bay → Bay) : (s.updBay b f).pcie = s.pcie := rfl
@[simp] theorem State.updBay_store (s : State) (b : Nat) (f : Bay → Bay) : (s.updBay b f).store = s.store := rfl
@[simp] theorem State.updBay_mbox (s : State) (b : Nat) (f : Bay → Bay) : (s.updBay b f).mbox = s.mbox := rfl
@[simp] theorem State.updBay_devLog (s : State) (b : Nat) (f : Bay → Bay) : (s.updBay b f).devLog = s.devLog := rfl
@[simp] theorem State.updBay_errLog (s : State) (b : Nat) (f : Bay → Bay) : (s.updBay b f).errLog = s.errLog := rfl
@[simp] theorem State.updBay_devCtrs (s : State) (b : Nat) (f : Bay → Bay) : (s.updBay b f).devCtrs = s.devCtrs := rfl
@[simp] theorem State.updBay_cells (s : State) (b : Nat) (f : Bay → Bay) : (s.updBay b f).cells = s.cells := rfl
@[simp] theorem State.updBay_suites (s : State) (b : Nat) (f : Bay → Bay) : (s.updBay b f).suites = s.suites := rfl
@[simp] theorem State.updBay_ports (s : State) (b : Nat) (f : Bay → Bay) : (s.updBay b f).ports = s.ports := rfl
@[simp] theorem State.updBay_streams (s : State) (b : Nat) (f : Bay → Bay) : (s.updBay b f).streams = s.streams := rfl
@[simp] theorem State.updBay_gacon (s : State) (b : Nat) (f : Bay → Bay) : (s.updBay b f).gacon = s.gacon := rfl
@[simp] theorem State.updBay_barriers (s : State) (b : Nat) (f : Bay → Bay) : (s.updBay b f).barriers = s.barriers := rfl
@[simp] theorem State.updBay_seqs (s : State) (b : Nat) (f : Bay → Bay) : (s.updBay b f).seqs = s.seqs := rfl
@[simp] theorem State.updBay_out (s : State) (b : Nat) (f : Bay → Bay) : (s.updBay b f).out = s.out := rfl
@[simp] theorem State.updBay_cell (s : State) (b : Nat) (f : Bay → Bay) (k : Nat) : (s.updBay b f).cell k = s.cell k := rfl
@[simp] theorem State.updBay_suite (s : State) (b : Nat) (f : Bay → Bay) (k : Nat) : (s.updBay b f).suite k = s.suite k := rfl
@[simp] theorem State.updBay_port (s : State) (b : Nat) (f : Bay → Bay) (k : Nat) : (s.updBay b f).port k = s.port k := rfl
@[simp] theorem State.updBay_gport (s : State) (b : Nat) (f : Bay → Bay) (k : Nat) : (s.updBay b f).gport k = s.gport k := rfl
@[simp] theorem State.updBay_barrier (s : State) (b : Nat) (f : Bay → Bay) (k : Nat) : (s.updBay b f).barrier k = s.barrier k := rfl
@[simp] theorem State.updBay_seqEntry (s : State) (b : Nat) (f : Bay → Bay) (k : Nat) : (s.updBay b f).seqEntry k = s.seqEntry k := rfl
@[simp] theorem State.updBay_stream (s : State) (b : Nat) (f : Bay → Bay) (k : StreamCtx) : (s.updBay b f).stream k = s.stream k := rfl
@[simp] theorem State.updBay_bay_same (s : State) (k : Nat) (f : Bay → Bay) : (s.updBay k f).bay k = f (s.bay k) := sget_sset_same _ _ _ _
theorem State.updBay_bay_ne (s : State) (k j : Nat) (f : Bay → Bay) (h : j ≠ k) : (s.updBay k f).bay j = s.bay j := sget_sset_ne _ _ _ _ _ h

/-! ### suites -/

@[simp] theorem State.setSuite_now (s : State) (i : Nat) (y : Suite) : (s.setSuite i y).now = s.now := rfl
@[simp] theorem State.setSuite_tick (s : State) (i : Nat) (y : Suite) : (s.setSuite i y).tick = s.tick := rfl
@[simp] theorem State.setSuite_free (s : State) (i : Nat) (y : Suite) : (s.setSuite i y).free = s.free := rfl
@[simp] theorem State.setSuite_pending (s : State) (i : Nat) (y : Suite) : (s.setSuite i y).pending = s.pending := rfl
@[simp] theorem State.setSuite_devState (s : State) (i : Nat) (y : Suite) : (s.setSuite i y).devState = s.devState := rfl
@[simp] theorem State.setSuite_quiesced (s : State) (i : Nat) (y : Suite) : (s.setSuite i y).quiesced = s.quiesced := rfl
@[simp] theorem State.setSuite_drainMode (s : State) (i : Nat) (y : Suite) : (s.setSuite i y).drainMode = s.drainMode := rfl
@[simp] theorem State.setSuite_drainAt (s : State) (i : Nat) (y : Suite) : (s.setSuite i y).drainAt = s.drainAt := rfl
@[simp] theorem State.setSuite_grade (s : State) (i : Nat) (y : Suite) : (s.setSuite i y).grade = s.grade := rfl
@[simp] theorem State.setSuite_uid (s : State) (i : Nat) (y : Suite) : (s.setSuite i y).uid = s.uid := rfl
@[simp] theorem State.setSuite_domainValid (s : State) (i : Nat) (y : Suite) : (s.setSuite i y).domainValid = s.domainValid := rfl
@[simp] theorem State.setSuite_part (s : State) (i : Nat) (y : Suite) : (s.setSuite i y).part = s.part := rfl
@[simp] theorem State.setSuite_routes (s : State) (i : Nat) (y : Suite) : (s.setSuite i y).routes = s.routes := rfl
@[simp] theorem State.setSuite_power (s : State) (i : Nat) (y : Suite) : (s.setSuite i y).power = s.power := rfl
@[simp] theorem State.setSuite_macer (s : State) (i : Nat) (y : Suite) : (s.setSuite i y).macer = s.macer := rfl
@[simp] theorem State.setSuite_repair (s : State) (i : Nat) (y : Suite) : (s.setSuite i y).repair = s.repair := rfl
@[simp] theorem State.setSuite_keys (s : State) (i : Nat) (y : Suite) : (s.setSuite i y).keys = s.keys := rfl
@[simp] theorem State.setSuite_fw (s : State) (i : Nat) (y : Suite) : (s.setSuite i y).fw = s.fw := rfl
@[simp] theorem State.setSuite_mgmt (s : State) (i : Nat) (y : Suite) : (s.setSuite i y).mgmt = s.mgmt := rfl
@[simp] theorem State.setSuite_metering (s : State) (i : Nat) (y : Suite) : (s.setSuite i y).metering = s.metering := rfl
@[simp] theorem State.setSuite_pcie (s : State) (i : Nat) (y : Suite) : (s.setSuite i y).pcie = s.pcie := rfl
@[simp] theorem State.setSuite_store (s : State) (i : Nat) (y : Suite) : (s.setSuite i y).store = s.store := rfl
@[simp] theorem State.setSuite_mbox (s : State) (i : Nat) (y : Suite) : (s.setSuite i y).mbox = s.mbox := rfl
@[simp] theorem State.setSuite_devLog (s : State) (i : Nat) (y : Suite) : (s.setSuite i y).devLog = s.devLog := rfl
@[simp] theorem State.setSuite_errLog (s : State) (i : Nat) (y : Suite) : (s.setSuite i y).errLog = s.errLog := rfl
@[simp] theorem State.setSuite_devCtrs (s : State) (i : Nat) (y : Suite) : (s.setSuite i y).devCtrs = s.devCtrs := rfl
@[simp] theorem State.setSuite_cells (s : State) (i : Nat) (y : Suite) : (s.setSuite i y).cells = s.cells := rfl
@[simp] theorem State.setSuite_bays (s : State) (i : Nat) (y : Suite) : (s.setSuite i y).bays = s.bays := rfl
@[simp] theorem State.setSuite_ports (s : State) (i : Nat) (y : Suite) : (s.setSuite i y).ports = s.ports := rfl
@[simp] theorem State.setSuite_streams (s : State) (i : Nat) (y : Suite) : (s.setSuite i y).streams = s.streams := rfl
@[simp] theorem State.setSuite_gacon (s : State) (i : Nat) (y : Suite) : (s.setSuite i y).gacon = s.gacon := rfl
@[simp] theorem State.setSuite_barriers (s : State) (i : Nat) (y : Suite) : (s.setSuite i y).barriers = s.barriers := rfl
@[simp] theorem State.setSuite_seqs (s : State) (i : Nat) (y : Suite) : (s.setSuite i y).seqs = s.seqs := rfl
@[simp] theorem State.setSuite_out (s : State) (i : Nat) (y : Suite) : (s.setSuite i y).out = s.out := rfl
@[simp] theorem State.setSuite_cell (s : State) (i : Nat) (y : Suite) (k : Nat) : (s.setSuite i y).cell k = s.cell k := rfl
@[simp] theorem State.setSuite_bay (s : State) (i : Nat) (y : Suite) (k : Nat) : (s.setSuite i y).bay k = s.bay k := rfl
@[simp] theorem State.setSuite_port (s : State) (i : Nat) (y : Suite) (k : Nat) : (s.setSuite i y).port k = s.port k := rfl
@[simp] theorem State.setSuite_gport (s : State) (i : Nat) (y : Suite) (k : Nat) : (s.setSuite i y).gport k = s.gport k := rfl
@[simp] theorem State.setSuite_barrier (s : State) (i : Nat) (y : Suite) (k : Nat) : (s.setSuite i y).barrier k = s.barrier k := rfl
@[simp] theorem State.setSuite_seqEntry (s : State) (i : Nat) (y : Suite) (k : Nat) : (s.setSuite i y).seqEntry k = s.seqEntry k := rfl
@[simp] theorem State.setSuite_stream (s : State) (i : Nat) (y : Suite) (k : StreamCtx) : (s.setSuite i y).stream k = s.stream k := rfl
@[simp] theorem State.setSuite_suite_same (s : State) (k : Nat) (y : Suite) : (s.setSuite k y).suite k = y := sget_sset_same _ _ _ _
theorem State.setSuite_suite_ne (s : State) (k j : Nat) (y : Suite) (h : j ≠ k) : (s.setSuite k y).suite j = s.suite j := sget_sset_ne _ _ _ _ _ h
theorem State.setSuite_suite (s : State) (k j : Nat) (y : Suite) : (s.setSuite k y).suite j = if j = k then y else s.suite j := sget_sset _ _ _ _ _
theorem State.updSuite_def (s : State) (i : Nat) (f : Suite → Suite) : s.updSuite i f = s.setSuite i (f (s.suite i)) := rfl
@[simp] theorem State.updSuite_now (s : State) (i : Nat) (f : Suite → Suite) : (s.updSuite i f).now = s.now := rfl
@[simp] theorem State.updSuite_tick (s : State) (i : Nat) (f : Suite → Suite) : (s.updSuite i f).tick = s.tick := rfl
@[simp] theorem State.updSuite_free (s : State) (i : Nat) (f : Suite → Suite) : (s.updSuite i f).free = s.free := rfl
@[simp] theorem State.updSuite_pending (s : State) (i : Nat) (f : Suite → Suite) : (s.updSuite i f).pending = s.pending := rfl
@[simp] theorem State.updSuite_devState (s : State) (i : Nat) (f : Suite → Suite) : (s.updSuite i f).devState = s.devState := rfl
@[simp] theorem State.updSuite_quiesced (s : State) (i : Nat) (f : Suite → Suite) : (s.updSuite i f).quiesced = s.quiesced := rfl
@[simp] theorem State.updSuite_drainMode (s : State) (i : Nat) (f : Suite → Suite) : (s.updSuite i f).drainMode = s.drainMode := rfl
@[simp] theorem State.updSuite_drainAt (s : State) (i : Nat) (f : Suite → Suite) : (s.updSuite i f).drainAt = s.drainAt := rfl
@[simp] theorem State.updSuite_grade (s : State) (i : Nat) (f : Suite → Suite) : (s.updSuite i f).grade = s.grade := rfl
@[simp] theorem State.updSuite_uid (s : State) (i : Nat) (f : Suite → Suite) : (s.updSuite i f).uid = s.uid := rfl
@[simp] theorem State.updSuite_domainValid (s : State) (i : Nat) (f : Suite → Suite) : (s.updSuite i f).domainValid = s.domainValid := rfl
@[simp] theorem State.updSuite_part (s : State) (i : Nat) (f : Suite → Suite) : (s.updSuite i f).part = s.part := rfl
@[simp] theorem State.updSuite_routes (s : State) (i : Nat) (f : Suite → Suite) : (s.updSuite i f).routes = s.routes := rfl
@[simp] theorem State.updSuite_power (s : State) (i : Nat) (f : Suite → Suite) : (s.updSuite i f).power = s.power := rfl
@[simp] theorem State.updSuite_macer (s : State) (i : Nat) (f : Suite → Suite) : (s.updSuite i f).macer = s.macer := rfl
@[simp] theorem State.updSuite_repair (s : State) (i : Nat) (f : Suite → Suite) : (s.updSuite i f).repair = s.repair := rfl
@[simp] theorem State.updSuite_keys (s : State) (i : Nat) (f : Suite → Suite) : (s.updSuite i f).keys = s.keys := rfl
@[simp] theorem State.updSuite_fw (s : State) (i : Nat) (f : Suite → Suite) : (s.updSuite i f).fw = s.fw := rfl
@[simp] theorem State.updSuite_mgmt (s : State) (i : Nat) (f : Suite → Suite) : (s.updSuite i f).mgmt = s.mgmt := rfl
@[simp] theorem State.updSuite_metering (s : State) (i : Nat) (f : Suite → Suite) : (s.updSuite i f).metering = s.metering := rfl
@[simp] theorem State.updSuite_pcie (s : State) (i : Nat) (f : Suite → Suite) : (s.updSuite i f).pcie = s.pcie := rfl
@[simp] theorem State.updSuite_store (s : State) (i : Nat) (f : Suite → Suite) : (s.updSuite i f).store = s.store := rfl
@[simp] theorem State.updSuite_mbox (s : State) (i : Nat) (f : Suite → Suite) : (s.updSuite i f).mbox = s.mbox := rfl
@[simp] theorem State.updSuite_devLog (s : State) (i : Nat) (f : Suite → Suite) : (s.updSuite i f).devLog = s.devLog := rfl
@[simp] theorem State.updSuite_errLog (s : State) (i : Nat) (f : Suite → Suite) : (s.updSuite i f).errLog = s.errLog := rfl
@[simp] theorem State.updSuite_devCtrs (s : State) (i : Nat) (f : Suite → Suite) : (s.updSuite i f).devCtrs = s.devCtrs := rfl
@[simp] theorem State.updSuite_cells (s : State) (i : Nat) (f : Suite → Suite) : (s.updSuite i f).cells = s.cells := rfl
@[simp] theorem State.updSuite_bays (s : State) (i : Nat) (f : Suite → Suite) : (s.updSuite i f).bays = s.bays := rfl
@[simp] theorem State.updSuite_ports (s : State) (i : Nat) (f : Suite → Suite) : (s.updSuite i f).ports = s.ports := rfl
@[simp] theorem State.updSuite_streams (s : State) (i : Nat) (f : Suite → Suite) : (s.updSuite i f).streams = s.streams := rfl
@[simp] theorem State.updSuite_gacon (s : State) (i : Nat) (f : Suite → Suite) : (s.updSuite i f).gacon = s.gacon := rfl
@[simp] theorem State.updSuite_barriers (s : State) (i : Nat) (f : Suite → Suite) : (s.updSuite i f).barriers = s.barriers := rfl
@[simp] theorem State.updSuite_seqs (s : State) (i : Nat) (f : Suite → Suite) : (s.updSuite i f).seqs = s.seqs := rfl
@[simp] theorem State.updSuite_out (s : State) (i : Nat) (f : Suite → Suite) : (s.updSuite i f).out = s.out := rfl
@[simp] theorem State.updSuite_cell (s : State) (i : Nat) (f : Suite → Suite) (k : Nat) : (s.updSuite i f).cell k = s.cell k := rfl
@[simp] theorem State.updSuite_bay (s : State) (i : Nat) (f : Suite → Suite) (k : Nat) : (s.updSuite i f).bay k = s.bay k := rfl
@[simp] theorem State.updSuite_port (s : State) (i : Nat) (f : Suite → Suite) (k : Nat) : (s.updSuite i f).port k = s.port k := rfl
@[simp] theorem State.updSuite_gport (s : State) (i : Nat) (f : Suite → Suite) (k : Nat) : (s.updSuite i f).gport k = s.gport k := rfl
@[simp] theorem State.updSuite_barrier (s : State) (i : Nat) (f : Suite → Suite) (k : Nat) : (s.updSuite i f).barrier k = s.barrier k := rfl
@[simp] theorem State.updSuite_seqEntry (s : State) (i : Nat) (f : Suite → Suite) (k : Nat) : (s.updSuite i f).seqEntry k = s.seqEntry k := rfl
@[simp] theorem State.updSuite_stream (s : State) (i : Nat) (f : Suite → Suite) (k : StreamCtx) : (s.updSuite i f).stream k = s.stream k := rfl
@[simp] theorem State.updSuite_suite_same (s : State) (k : Nat) (f : Suite → Suite) : (s.updSuite k f).suite k = f (s.suite k) := sget_sset_same _ _ _ _
theorem State.updSuite_suite_ne (s : State) (k j : Nat) (f : Suite → Suite) (h : j ≠ k) : (s.updSuite k f).suite j = s.suite j := sget_sset_ne _ _ _ _ _ h

/-! ### ports -/

@[simp] theorem State.setPort_now (s : State) (p : Nat) (y : MemPort) : (s.setPort p y).now = s.now := rfl
@[simp] theorem State.setPort_tick (s : State) (p : Nat) (y : MemPort) : (s.setPort p y).tick = s.tick := rfl
@[simp] theorem State.setPort_free (s : State) (p : Nat) (y : MemPort) : (s.setPort p y).free = s.free := rfl
@[simp] theorem State.setPort_pending (s : State) (p : Nat) (y : MemPort) : (s.setPort p y).pending = s.pending := rfl
@[simp] theorem State.setPort_devState (s : State) (p : Nat) (y : MemPort) : (s.setPort p y).devState = s.devState := rfl
@[simp] theorem State.setPort_quiesced (s : State) (p : Nat) (y : MemPort) : (s.setPort p y).quiesced = s.quiesced := rfl
@[simp] theorem State.setPort_drainMode (s : State) (p : Nat) (y : MemPort) : (s.setPort p y).drainMode = s.drainMode := rfl
@[simp] theorem State.setPort_drainAt (s : State) (p : Nat) (y : MemPort) : (s.setPort p y).drainAt = s.drainAt := rfl
@[simp] theorem State.setPort_grade (s : State) (p : Nat) (y : MemPort) : (s.setPort p y).grade = s.grade := rfl
@[simp] theorem State.setPort_uid (s : State) (p : Nat) (y : MemPort) : (s.setPort p y).uid = s.uid := rfl
@[simp] theorem State.setPort_domainValid (s : State) (p : Nat) (y : MemPort) : (s.setPort p y).domainValid = s.domainValid := rfl
@[simp] theorem State.setPort_part (s : State) (p : Nat) (y : MemPort) : (s.setPort p y).part = s.part := rfl
@[simp] theorem State.setPort_routes (s : State) (p : Nat) (y : MemPort) : (s.setPort p y).routes = s.routes := rfl
@[simp] theorem State.setPort_power (s : State) (p : Nat) (y : MemPort) : (s.setPort p y).power = s.power := rfl
@[simp] theorem State.setPort_macer (s : State) (p : Nat) (y : MemPort) : (s.setPort p y).macer = s.macer := rfl
@[simp] theorem State.setPort_repair (s : State) (p : Nat) (y : MemPort) : (s.setPort p y).repair = s.repair := rfl
@[simp] theorem State.setPort_keys (s : State) (p : Nat) (y : MemPort) : (s.setPort p y).keys = s.keys := rfl
@[simp] theorem State.setPort_fw (s : State) (p : Nat) (y : MemPort) : (s.setPort p y).fw = s.fw := rfl
@[simp] theorem State.setPort_mgmt (s : State) (p : Nat) (y : MemPort) : (s.setPort p y).mgmt = s.mgmt := rfl
@[simp] theorem State.setPort_metering (s : State) (p : Nat) (y : MemPort) : (s.setPort p y).metering = s.metering := rfl
@[simp] theorem State.setPort_pcie (s : State) (p : Nat) (y : MemPort) : (s.setPort p y).pcie = s.pcie := rfl
@[simp] theorem State.setPort_store (s : State) (p : Nat) (y : MemPort) : (s.setPort p y).store = s.store := rfl
@[simp] theorem State.setPort_mbox (s : State) (p : Nat) (y : MemPort) : (s.setPort p y).mbox = s.mbox := rfl
@[simp] theorem State.setPort_devLog (s : State) (p : Nat) (y : MemPort) : (s.setPort p y).devLog = s.devLog := rfl
@[simp] theorem State.setPort_errLog (s : State) (p : Nat) (y : MemPort) : (s.setPort p y).errLog = s.errLog := rfl
@[simp] theorem State.setPort_devCtrs (s : State) (p : Nat) (y : MemPort) : (s.setPort p y).devCtrs = s.devCtrs := rfl
@[simp] theorem State.setPort_cells (s : State) (p : Nat) (y : MemPort) : (s.setPort p y).cells = s.cells := rfl
@[simp] theorem State.setPort_bays (s : State) (p : Nat) (y : MemPort) : (s.setPort p y).bays = s.bays := rfl
@[simp] theorem State.setPort_suites (s : State) (p : Nat) (y : MemPort) : (s.setPort p y).suites = s.suites := rfl
@[simp] theorem State.setPort_streams (s : State) (p : Nat) (y : MemPort) : (s.setPort p y).streams = s.streams := rfl
@[simp] theorem State.setPort_gacon (s : State) (p : Nat) (y : MemPort) : (s.setPort p y).gacon = s.gacon := rfl
@[simp] theorem State.setPort_barriers (s : State) (p : Nat) (y : MemPort) : (s.setPort p y).barriers = s.barriers := rfl
@[simp] theorem State.setPort_seqs (s : State) (p : Nat) (y : MemPort) : (s.setPort p y).seqs = s.seqs := rfl
@[simp] theorem State.setPort_out (s : State) (p : Nat) (y : MemPort) : (s.setPort p y).out = s.out := rfl
@[simp] theorem State.setPort_cell (s : State) (p : Nat) (y : MemPort) (k : Nat) : (s.setPort p y).cell k = s.cell k := rfl
@[simp] theorem State.setPort_bay (s : State) (p : Nat) (y : MemPort) (k : Nat) : (s.setPort p y).bay k = s.bay k := rfl
@[simp] theorem State.setPort_suite (s : State) (p : Nat) (y : MemPort) (k : Nat) : (s.setPort p y).suite k = s.suite k := rfl
@[simp] theorem State.setPort_gport (s : State) (p : Nat) (y : MemPort) (k : Nat) : (s.setPort p y).gport k = s.gport k := rfl
@[simp] theorem State.setPort_barrier (s : State) (p : Nat) (y : MemPort) (k : Nat) : (s.setPort p y).barrier k = s.barrier k := rfl
@[simp] theorem State.setPort_seqEntry (s : State) (p : Nat) (y : MemPort) (k : Nat) : (s.setPort p y).seqEntry k = s.seqEntry k := rfl
@[simp] theorem State.setPort_stream (s : State) (p : Nat) (y : MemPort) (k : StreamCtx) : (s.setPort p y).stream k = s.stream k := rfl
@[simp] theorem State.setPort_port_same (s : State) (k : Nat) (y : MemPort) : (s.setPort k y).port k = y := sget_sset_same _ _ _ _
theorem State.setPort_port_ne (s : State) (k j : Nat) (y : MemPort) (h : j ≠ k) : (s.setPort k y).port j = s.port j := sget_sset_ne _ _ _ _ _ h
theorem State.setPort_port (s : State) (k j : Nat) (y : MemPort) : (s.setPort k y).port j = if j = k then y else s.port j := sget_sset _ _ _ _ _
theorem State.updPort_def (s : State) (p : Nat) (f : MemPort → MemPort) : s.updPort p f = s.setPort p (f (s.port p)) := rfl
@[simp] theorem State.updPort_now (s : State) (p : Nat) (f : MemPort → MemPort) : (s.updPort p f).now = s.now := rfl
@[simp] theorem State.updPort_tick (s : State) (p : Nat) (f : MemPort → MemPort) : (s.updPort p f).tick = s.tick := rfl
@[simp] theorem State.updPort_free (s : State) (p : Nat) (f : MemPort → MemPort) : (s.updPort p f).free = s.free := rfl
@[simp] theorem State.updPort_pending (s : State) (p : Nat) (f : MemPort → MemPort) : (s.updPort p f).pending = s.pending := rfl
@[simp] theorem State.updPort_devState (s : State) (p : Nat) (f : MemPort → MemPort) : (s.updPort p f).devState = s.devState := rfl
@[simp] theorem State.updPort_quiesced (s : State) (p : Nat) (f : MemPort → MemPort) : (s.updPort p f).quiesced = s.quiesced := rfl
@[simp] theorem State.updPort_drainMode (s : State) (p : Nat) (f : MemPort → MemPort) : (s.updPort p f).drainMode = s.drainMode := rfl
@[simp] theorem State.updPort_drainAt (s : State) (p : Nat) (f : MemPort → MemPort) : (s.updPort p f).drainAt = s.drainAt := rfl
@[simp] theorem State.updPort_grade (s : State) (p : Nat) (f : MemPort → MemPort) : (s.updPort p f).grade = s.grade := rfl
@[simp] theorem State.updPort_uid (s : State) (p : Nat) (f : MemPort → MemPort) : (s.updPort p f).uid = s.uid := rfl
@[simp] theorem State.updPort_domainValid (s : State) (p : Nat) (f : MemPort → MemPort) : (s.updPort p f).domainValid = s.domainValid := rfl
@[simp] theorem State.updPort_part (s : State) (p : Nat) (f : MemPort → MemPort) : (s.updPort p f).part = s.part := rfl
@[simp] theorem State.updPort_routes (s : State) (p : Nat) (f : MemPort → MemPort) : (s.updPort p f).routes = s.routes := rfl
@[simp] theorem State.updPort_power (s : State) (p : Nat) (f : MemPort → MemPort) : (s.updPort p f).power = s.power := rfl
@[simp] theorem State.updPort_macer (s : State) (p : Nat) (f : MemPort → MemPort) : (s.updPort p f).macer = s.macer := rfl
@[simp] theorem State.updPort_repair (s : State) (p : Nat) (f : MemPort → MemPort) : (s.updPort p f).repair = s.repair := rfl
@[simp] theorem State.updPort_keys (s : State) (p : Nat) (f : MemPort → MemPort) : (s.updPort p f).keys = s.keys := rfl
@[simp] theorem State.updPort_fw (s : State) (p : Nat) (f : MemPort → MemPort) : (s.updPort p f).fw = s.fw := rfl
@[simp] theorem State.updPort_mgmt (s : State) (p : Nat) (f : MemPort → MemPort) : (s.updPort p f).mgmt = s.mgmt := rfl
@[simp] theorem State.updPort_metering (s : State) (p : Nat) (f : MemPort → MemPort) : (s.updPort p f).metering = s.metering := rfl
@[simp] theorem State.updPort_pcie (s : State) (p : Nat) (f : MemPort → MemPort) : (s.updPort p f).pcie = s.pcie := rfl
@[simp] theorem State.updPort_store (s : State) (p : Nat) (f : MemPort → MemPort) : (s.updPort p f).store = s.store := rfl
@[simp] theorem State.updPort_mbox (s : State) (p : Nat) (f : MemPort → MemPort) : (s.updPort p f).mbox = s.mbox := rfl
@[simp] theorem State.updPort_devLog (s : State) (p : Nat) (f : MemPort → MemPort) : (s.updPort p f).devLog = s.devLog := rfl
@[simp] theorem State.updPort_errLog (s : State) (p : Nat) (f : MemPort → MemPort) : (s.updPort p f).errLog = s.errLog := rfl
@[simp] theorem State.updPort_devCtrs (s : State) (p : Nat) (f : MemPort → MemPort) : (s.updPort p f).devCtrs = s.devCtrs := rfl
@[simp] theorem State.updPort_cells (s : State) (p : Nat) (f : MemPort → MemPort) : (s.updPort p f).cells = s.cells := rfl
@[simp] theorem State.updPort_bays (s : State) (p : Nat) (f : MemPort → MemPort) : (s.updPort p f).bays = s.bays := rfl
@[simp] theorem State.updPort_suites (s : State) (p : Nat) (f : MemPort → MemPort) : (s.updPort p f).suites = s.suites := rfl
@[simp] theorem State.updPort_streams (s : State) (p : Nat) (f : MemPort → MemPort) : (s.updPort p f).streams = s.streams := rfl
@[simp] theorem State.updPort_gacon (s : State) (p : Nat) (f : MemPort → MemPort) : (s.updPort p f).gacon = s.gacon := rfl
@[simp] theorem State.updPort_barriers (s : State) (p : Nat) (f : MemPort → MemPort) : (s.updPort p f).barriers = s.barriers := rfl
@[simp] theorem State.updPort_seqs (s : State) (p : Nat) (f : MemPort → MemPort) : (s.updPort p f).seqs = s.seqs := rfl
@[simp] theorem State.updPort_out (s : State) (p : Nat) (f : MemPort → MemPort) : (s.updPort p f).out = s.out := rfl
@[simp] theorem State.updPort_cell (s : State) (p : Nat) (f : MemPort → MemPort) (k : Nat) : (s.updPort p f).cell k = s.cell k := rfl
@[simp] theorem State.updPort_bay (s : State) (p : Nat) (f : MemPort → MemPort) (k : Nat) : (s.updPort p f).bay k = s.bay k := rfl
@[simp] theorem State.updPort_suite (s : State) (p : Nat) (f : MemPort → MemPort) (k : Nat) : (s.updPort p f).suite k = s.suite k := rfl
@[simp] theorem State.updPort_gport (s : State) (p : Nat) (f : MemPort → MemPort) (k : Nat) : (s.updPort p f).gport k = s.gport k := rfl
@[simp] theorem State.updPort_barrier (s : State) (p : Nat) (f : MemPort → MemPort) (k : Nat) : (s.updPort p f).barrier k = s.barrier k := rfl
@[simp] theorem State.updPort_seqEntry (s : State) (p : Nat) (f : MemPort → MemPort) (k : Nat) : (s.updPort p f).seqEntry k = s.seqEntry k := rfl
@[simp] theorem State.updPort_stream (s : State) (p : Nat) (f : MemPort → MemPort) (k : StreamCtx) : (s.updPort p f).stream k = s.stream k := rfl
@[simp] theorem State.updPort_port_same (s : State) (k : Nat) (f : MemPort → MemPort) : (s.updPort k f).port k = f (s.port k) := sget_sset_same _ _ _ _
theorem State.updPort_port_ne (s : State) (k j : Nat) (f : MemPort → MemPort) (h : j ≠ k) : (s.updPort k f).port j = s.port j := sget_sset_ne _ _ _ _ _ h

/-! ### gacon -/

@[simp] theorem State.setGport_now (s : State) (g : Nat) (y : GaconPort) : (s.setGport g y).now = s.now := rfl
@[simp] theorem State.setGport_tick (s : State) (g : Nat) (y : GaconPort) : (s.setGport g y).tick = s.tick := rfl
@[simp] theorem State.setGport_free (s : State) (g : Nat) (y : GaconPort) : (s.setGport g y).free = s.free := rfl
@[simp] theorem State.setGport_pending (s : State) (g : Nat) (y : GaconPort) : (s.setGport g y).pending = s.pending := rfl
@[simp] theorem State.setGport_devState (s : State) (g : Nat) (y : GaconPort) : (s.setGport g y).devState = s.devState := rfl
@[simp] theorem State.setGport_quiesced (s : State) (g : Nat) (y : GaconPort) : (s.setGport g y).quiesced = s.quiesced := rfl
@[simp] theorem State.setGport_drainMode (s : State) (g : Nat) (y : GaconPort) : (s.setGport g y).drainMode = s.drainMode := rfl
@[simp] theorem State.setGport_drainAt (s : State) (g : Nat) (y : GaconPort) : (s.setGport g y).drainAt = s.drainAt := rfl
@[simp] theorem State.setGport_grade (s : State) (g : Nat) (y : GaconPort) : (s.setGport g y).grade = s.grade := rfl
@[simp] theorem State.setGport_uid (s : State) (g : Nat) (y : GaconPort) : (s.setGport g y).uid = s.uid := rfl
@[simp] theorem State.setGport_domainValid (s : State) (g : Nat) (y : GaconPort) : (s.setGport g y).domainValid = s.domainValid := rfl
@[simp] theorem State.setGport_part (s : State) (g : Nat) (y : GaconPort) : (s.setGport g y).part = s.part := rfl
@[simp] theorem State.setGport_routes (s : State) (g : Nat) (y : GaconPort) : (s.setGport g y).routes = s.routes := rfl
@[simp] theorem State.setGport_power (s : State) (g : Nat) (y : GaconPort) : (s.setGport g y).power = s.power := rfl
@[simp] theorem State.setGport_macer (s : State) (g : Nat) (y : GaconPort) : (s.setGport g y).macer = s.macer := rfl
@[simp] theorem State.setGport_repair (s : State) (g : Nat) (y : GaconPort) : (s.setGport g y).repair = s.repair := rfl
@[simp] theorem State.setGport_keys (s : State) (g : Nat) (y : GaconPort) : (s.setGport g y).keys = s.keys := rfl
@[simp] theorem State.setGport_fw (s : State) (g : Nat) (y : GaconPort) : (s.setGport g y).fw = s.fw := rfl
@[simp] theorem State.setGport_mgmt (s : State) (g : Nat) (y : GaconPort) : (s.setGport g y).mgmt = s.mgmt := rfl
@[simp] theorem State.setGport_metering (s : State) (g : Nat) (y : GaconPort) : (s.setGport g y).metering = s.metering := rfl
@[simp] theorem State.setGport_pcie (s : State) (g : Nat) (y : GaconPort) : (s.setGport g y).pcie = s.pcie := rfl
@[simp] theorem State.setGport_store (s : State) (g : Nat) (y : GaconPort) : (s.setGport g y).store = s.store := rfl
@[simp] theorem State.setGport_mbox (s : State) (g : Nat) (y : GaconPort) : (s.setGport g y).mbox = s.mbox := rfl
@[simp] theorem State.setGport_devLog (s : State) (g : Nat) (y : GaconPort) : (s.setGport g y).devLog = s.devLog := rfl
@[simp] theorem State.setGport_errLog (s : State) (g : Nat) (y : GaconPort) : (s.setGport g y).errLog = s.errLog := rfl
@[simp] theorem State.setGport_devCtrs (s : State) (g : Nat) (y : GaconPort) : (s.setGport g y).devCtrs = s.devCtrs := rfl
@[simp] theorem State.setGport_cells (s : State) (g : Nat) (y : GaconPort) : (s.setGport g y).cells = s.cells := rfl
@[simp] theorem State.setGport_bays (s : State) (g : Nat) (y : GaconPort) : (s.setGport g y).bays = s.bays := rfl
@[simp] theorem State.setGport_suites (s : State) (g : Nat) (y : GaconPort) : (s.setGport g y).suites = s.suites := rfl
@[simp] theorem State.setGport_ports (s : State) (g : Nat) (y : GaconPort) : (s.setGport g y).ports = s.ports := rfl
@[simp] theorem State.setGport_streams (s : State) (g : Nat) (y : GaconPort) : (s.setGport g y).streams = s.streams := rfl
@[simp] theorem State.setGport_barriers (s : State) (g : Nat) (y : GaconPort) : (s.setGport g y).barriers = s.barriers := rfl
@[simp] theorem State.setGport_seqs (s : State) (g : Nat) (y : GaconPort) : (s.setGport g y).seqs = s.seqs := rfl
@[simp] theorem State.setGport_out (s : State) (g : Nat) (y : GaconPort) : (s.setGport g y).out = s.out := rfl
@[simp] theorem State.setGport_cell (s : State) (g : Nat) (y : GaconPort) (k : Nat) : (s.setGport g y).cell k = s.cell k := rfl
@[simp] theorem State.setGport_bay (s : State) (g : Nat) (y : GaconPort) (k : Nat) : (s.setGport g y).bay k = s.bay k := rfl
@[simp] theorem State.setGport_suite (s : State) (g : Nat) (y : GaconPort) (k : Nat) : (s.setGport g y).suite k = s.suite k := rfl
@[simp] theorem State.setGport_port (s : State) (g : Nat) (y : GaconPort) (k : Nat) : (s.setGport g y).port k = s.port k := rfl
@[simp] theorem State.setGport_barrier (s : State) (g : Nat) (y : GaconPort) (k : Nat) : (s.setGport g y).barrier k = s.barrier k := rfl
@[simp] theorem State.setGport_seqEntry (s : State) (g : Nat) (y : GaconPort) (k : Nat) : (s.setGport g y).seqEntry k = s.seqEntry k := rfl
@[simp] theorem State.setGport_stream (s : State) (g : Nat) (y : GaconPort) (k : StreamCtx) : (s.setGport g y).stream k = s.stream k := rfl
@[simp] theorem State.setGport_gport_same (s : State) (k : Nat) (y : GaconPort) : (s.setGport k y).gport k = y := sget_sset_same _ _ _ _
theorem State.setGport_gport_ne (s : State) (k j : Nat) (y : GaconPort) (h : j ≠ k) : (s.setGport k y).gport j = s.gport j := sget_sset_ne _ _ _ _ _ h
theorem State.setGport_gport (s : State) (k j : Nat) (y : GaconPort) : (s.setGport k y).gport j = if j = k then y else s.gport j := sget_sset _ _ _ _ _
theorem State.updGport_def (s : State) (g : Nat) (f : GaconPort → GaconPort) : s.updGport g f = s.setGport g (f (s.gport g)) := rfl
@[simp] theorem State.updGport_now (s : State) (g : Nat) (f : GaconPort → GaconPort) : (s.updGport g f).now = s.now := rfl
@[simp] theorem State.updGport_tick (s : State) (g : Nat) (f : GaconPort → GaconPort) : (s.updGport g f).tick = s.tick := rfl
@[simp] theorem State.updGport_free (s : State) (g : Nat) (f : GaconPort → GaconPort) : (s.updGport g f).free = s.free := rfl
@[simp] theorem State.updGport_pending (s : State) (g : Nat) (f : GaconPort → GaconPort) : (s.updGport g f).pending = s.pending := rfl
@[simp] theorem State.updGport_devState (s : State) (g : Nat) (f : GaconPort → GaconPort) : (s.updGport g f).devState = s.devState := rfl
@[simp] theorem State.updGport_quiesced (s : State) (g : Nat) (f : GaconPort → GaconPort) : (s.updGport g f).quiesced = s.quiesced := rfl
@[simp] theorem State.updGport_drainMode (s : State) (g : Nat) (f : GaconPort → GaconPort) : (s.updGport g f).drainMode = s.drainMode := rfl
@[simp] theorem State.updGport_drainAt (s : State) (g : Nat) (f : GaconPort → GaconPort) : (s.updGport g f).drainAt = s.drainAt := rfl
@[simp] theorem State.updGport_grade (s : State) (g : Nat) (f : GaconPort → GaconPort) : (s.updGport g f).grade = s.grade := rfl
@[simp] theorem State.updGport_uid (s : State) (g : Nat) (f : GaconPort → GaconPort) : (s.updGport g f).uid = s.uid := rfl
@[simp] theorem State.updGport_domainValid (s : State) (g : Nat) (f : GaconPort → GaconPort) : (s.updGport g f).domainValid = s.domainValid := rfl
@[simp] theorem State.updGport_part (s : State) (g : Nat) (f : GaconPort → GaconPort) : (s.updGport g f).part = s.part := rfl
@[simp] theorem State.updGport_routes (s : State) (g : Nat) (f : GaconPort → GaconPort) : (s.updGport g f).routes = s.routes := rfl
@[simp] theorem State.updGport_power (s : State) (g : Nat) (f : GaconPort → GaconPort) : (s.updGport g f).power = s.power := rfl
@[simp] theorem State.updGport_macer (s : State) (g : Nat) (f : GaconPort → GaconPort) : (s.updGport g f).macer = s.macer := rfl
@[simp] theorem State.updGport_repair (s : State) (g : Nat) (f : GaconPort → GaconPort) : (s.updGport g f).repair = s.repair := rfl
@[simp] theorem State.updGport_keys (s : State) (g : Nat) (f : GaconPort → GaconPort) : (s.updGport g f).keys = s.keys := rfl
@[simp] theorem State.updGport_fw (s : State) (g : Nat) (f : GaconPort → GaconPort) : (s.updGport g f).fw = s.fw := rfl
@[simp] theorem State.updGport_mgmt (s : State) (g : Nat) (f : GaconPort → GaconPort) : (s.updGport g f).mgmt = s.mgmt := rfl
@[simp] theorem State.updGport_metering (s : State) (g : Nat) (f : GaconPort → GaconPort) : (s.updGport g f).metering = s.metering := rfl
@[simp] theorem State.updGport_pcie (s : State) (g : Nat) (f : GaconPort → GaconPort) : (s.updGport g f).pcie = s.pcie := rfl
@[simp] theorem State.updGport_store (s : State) (g : Nat) (f : GaconPort → GaconPort) : (s.updGport g f).store = s.store := rfl
@[simp] theorem State.updGport_mbox (s : State) (g : Nat) (f : GaconPort → GaconPort) : (s.updGport g f).mbox = s.mbox := rfl
@[simp] theorem State.updGport_devLog (s : State) (g : Nat) (f : GaconPort → GaconPort) : (s.updGport g f).devLog = s.devLog := rfl
@[simp] theorem State.updGport_errLog (s : State) (g : Nat) (f : GaconPort → GaconPort) : (s.updGport g f).errLog = s.errLog := rfl
@[simp] theorem State.updGport_devCtrs (s : State) (g : Nat) (f : GaconPort → GaconPort) : (s.updGport g f).devCtrs = s.devCtrs := rfl
@[simp] theorem State.updGport_cells (s : State) (g : Nat) (f : GaconPort → GaconPort) : (s.updGport g f).cells = s.cells := rfl
@[simp] theorem State.updGport_bays (s : State) (g : Nat) (f : GaconPort → GaconPort) : (s.updGport g f).bays = s.bays := rfl
@[simp] theorem State.updGport_suites (s : State) (g : Nat) (f : GaconPort → GaconPort) : (s.updGport g f).suites = s.suites := rfl
@[simp] theorem State.updGport_ports (s : State) (g : Nat) (f : GaconPort → GaconPort) : (s.updGport g f).ports = s.ports := rfl
@[simp] theorem State.updGport_streams (s : State) (g : Nat) (f : GaconPort → GaconPort) : (s.updGport g f).streams = s.streams := rfl
@[simp] theorem State.updGport_barriers (s : State) (g : Nat) (f : GaconPort → GaconPort) : (s.updGport g f).barriers = s.barriers := rfl
@[simp] theorem State.updGport_seqs (s : State) (g : Nat) (f : GaconPort → GaconPort) : (s.updGport g f).seqs = s.seqs := rfl
@[simp] theorem State.updGport_out (s : State) (g : Nat) (f : GaconPort → GaconPort) : (s.updGport g f).out = s.out := rfl
@[simp] theorem State.updGport_cell (s : State) (g : Nat) (f : GaconPort → GaconPort) (k : Nat) : (s.updGport g f).cell k = s.cell k := rfl
@[simp] theorem State.updGport_bay (s : State) (g : Nat) (f : GaconPort → GaconPort) (k : Nat) : (s.updGport g f).bay k = s.bay k := rfl
@[simp] theorem State.updGport_suite (s : State) (g : Nat) (f : GaconPort → GaconPort) (k : Nat) : (s.updGport g f).suite k = s.suite k := rfl
@[simp] theorem State.updGport_port (s : State) (g : Nat) (f : GaconPort → GaconPort) (k : Nat) : (s.updGport g f).port k = s.port k := rfl
@[simp] theorem State.updGport_barrier (s : State) (g : Nat) (f : GaconPort → GaconPort) (k : Nat) : (s.updGport g f).barrier k = s.barrier k := rfl
@[simp] theorem State.updGport_seqEntry (s : State) (g : Nat) (f : GaconPort → GaconPort) (k : Nat) : (s.updGport g f).seqEntry k = s.seqEntry k := rfl
@[simp] theorem State.updGport_stream (s : State) (g : Nat) (f : GaconPort → GaconPort) (k : StreamCtx) : (s.updGport g f).stream k = s.stream k := rfl
@[simp] theorem State.updGport_gport_same (s : State) (k : Nat) (f : GaconPort → GaconPort) : (s.updGport k f).gport k = f (s.gport k) := sget_sset_same _ _ _ _
theorem State.updGport_gport_ne (s : State) (k j : Nat) (f : GaconPort → GaconPort) (h : j ≠ k) : (s.updGport k f).gport j = s.gport j := sget_sset_ne _ _ _ _ _ h

/-! ### barriers -/

@[simp] theorem State.setBarrier_now (s : State) (n : Nat) (y : Barrier) : (s.setBarrier n y).now = s.now := rfl
@[simp] theorem State.setBarrier_tick (s : State) (n : Nat) (y : Barrier) : (s.setBarrier n y).tick = s.tick := rfl
@[simp] theorem State.setBarrier_free (s : State) (n : Nat) (y : Barrier) : (s.setBarrier n y).free = s.free := rfl
@[simp] theorem State.setBarrier_pending (s : State) (n : Nat) (y : Barrier) : (s.setBarrier n y).pending = s.pending := rfl
@[simp] theorem State.setBarrier_devState (s : State) (n : Nat) (y : Barrier) : (s.setBarrier n y).devState = s.devState := rfl
@[simp] theorem State.setBarrier_quiesced (s : State) (n : Nat) (y : Barrier) : (s.setBarrier n y).quiesced = s.quiesced := rfl
@[simp] theorem State.setBarrier_drainMode (s : State) (n : Nat) (y : Barrier) : (s.setBarrier n y).drainMode = s.drainMode := rfl
@[simp] theorem State.setBarrier_drainAt (s : State) (n : Nat) (y : Barrier) : (s.setBarrier n y).drainAt = s.drainAt := rfl
@[simp] theorem State.setBarrier_grade (s : State) (n : Nat) (y : Barrier) : (s.setBarrier n y).grade = s.grade := rfl
@[simp] theorem State.setBarrier_uid (s : State) (n : Nat) (y : Barrier) : (s.setBarrier n y).uid = s.uid := rfl
@[simp] theorem State.setBarrier_domainValid (s : State) (n : Nat) (y : Barrier) : (s.setBarrier n y).domainValid = s.domainValid := rfl
@[simp] theorem State.setBarrier_part (s : State) (n : Nat) (y : Barrier) : (s.setBarrier n y).part = s.part := rfl
@[simp] theorem State.setBarrier_routes (s : State) (n : Nat) (y : Barrier) : (s.setBarrier n y).routes = s.routes := rfl
@[simp] theorem State.setBarrier_power (s : State) (n : Nat) (y : Barrier) : (s.setBarrier n y).power = s.power := rfl
@[simp] theorem State.setBarrier_macer (s : State) (n : Nat) (y : Barrier) : (s.setBarrier n y).macer = s.macer := rfl
@[simp] theorem State.setBarrier_repair (s : State) (n : Nat) (y : Barrier) : (s.setBarrier n y).repair = s.repair := rfl
@[simp] theorem State.setBarrier_keys (s : State) (n : Nat) (y : Barrier) : (s.setBarrier n y).keys = s.keys := rfl
@[simp] theorem State.setBarrier_fw (s : State) (n : Nat) (y : Barrier) : (s.setBarrier n y).fw = s.fw := rfl
@[simp] theorem State.setBarrier_mgmt (s : State) (n : Nat) (y : Barrier) : (s.setBarrier n y).mgmt = s.mgmt := rfl
@[simp] theorem State.setBarrier_metering (s : State) (n : Nat) (y : Barrier) : (s.setBarrier n y).metering = s.metering := rfl
@[simp] theorem State.setBarrier_pcie (s : State) (n : Nat) (y : Barrier) : (s.setBarrier n y).pcie = s.pcie := rfl
@[simp] theorem State.setBarrier_store (s : State) (n : Nat) (y : Barrier) : (s.setBarrier n y).store = s.store := rfl
@[simp] theorem State.setBarrier_mbox (s : State) (n : Nat) (y : Barrier) : (s.setBarrier n y).mbox = s.mbox := rfl
@[simp] theorem State.setBarrier_devLog (s : State) (n : Nat) (y : Barrier) : (s.setBarrier n y).devLog = s.devLog := rfl
@[simp] theorem State.setBarrier_errLog (s : State) (n : Nat) (y : Barrier) : (s.setBarrier n y).errLog = s.errLog := rfl
@[simp] theorem State.setBarrier_devCtrs (s : State) (n : Nat) (y : Barrier) : (s.setBarrier n y).devCtrs = s.devCtrs := rfl
@[simp] theorem State.setBarrier_cells (s : State) (n : Nat) (y : Barrier) : (s.setBarrier n y).cells = s.cells := rfl
@[simp] theorem State.setBarrier_bays (s : State) (n : Nat) (y : Barrier) : (s.setBarrier n y).bays = s.bays := rfl
@[simp] theorem State.setBarrier_suites (s : State) (n : Nat) (y : Barrier) : (s.setBarrier n y).suites = s.suites := rfl
@[simp] theorem State.setBarrier_ports (s : State) (n : Nat) (y : Barrier) : (s.setBarrier n y).ports = s.ports := rfl
@[simp] theorem State.setBarrier_streams (s : State) (n : Nat) (y : Barrier) : (s.setBarrier n y).streams = s.streams := rfl
@[simp] theorem State.setBarrier_gacon (s : State) (n : Nat) (y : Barrier) : (s.setBarrier n y).gacon = s.gacon := rfl
@[simp] theorem State.setBarrier_seqs (s : State) (n : Nat) (y : Barrier) : (s.setBarrier n y).seqs = s.seqs := rfl
@[simp] theorem State.setBarrier_out (s : State) (n : Nat) (y : Barrier) : (s.setBarrier n y).out = s.out := rfl
@[simp] theorem State.setBarrier_cell (s : State) (n : Nat) (y : Barrier) (k : Nat) : (s.setBarrier n y).cell k = s.cell k := rfl
@[simp] theorem State.setBarrier_bay (s : State) (n : Nat) (y : Barrier) (k : Nat) : (s.setBarrier n y).bay k = s.bay k := rfl
@[simp] theorem State.setBarrier_suite (s : State) (n : Nat) (y : Barrier) (k : Nat) : (s.setBarrier n y).suite k = s.suite k := rfl
@[simp] theorem State.setBarrier_port (s : State) (n : Nat) (y : Barrier) (k : Nat) : (s.setBarrier n y).port k = s.port k := rfl
@[simp] theorem State.setBarrier_gport (s : State) (n : Nat) (y : Barrier) (k : Nat) : (s.setBarrier n y).gport k = s.gport k := rfl
@[simp] theorem State.setBarrier_seqEntry (s : State) (n : Nat) (y : Barrier) (k : Nat) : (s.setBarrier n y).seqEntry k = s.seqEntry k := rfl
@[simp] theorem State.setBarrier_stream (s : State) (n : Nat) (y : Barrier) (k : StreamCtx) : (s.setBarrier n y).stream k = s.stream k := rfl
@[simp] theorem State.setBarrier_barrier_same (s : State) (k : Nat) (y : Barrier) : (s.setBarrier k y).barrier k = y := sget_sset_same _ _ _ _
theorem State.setBarrier_barrier_ne (s : State) (k j : Nat) (y : Barrier) (h : j ≠ k) : (s.setBarrier k y).barrier j = s.barrier j := sget_sset_ne _ _ _ _ _ h
theorem State.setBarrier_barrier (s : State) (k j : Nat) (y : Barrier) : (s.setBarrier k y).barrier j = if j = k then y else s.barrier j := sget_sset _ _ _ _ _

/-! ### seqs -/

@[simp] theorem State.setSeqEntry_now (s : State) (n : Nat) (y : SeqEntry) : (s.setSeqEntry n y).now = s.now := rfl
@[simp] theorem State.setSeqEntry_tick (s : State) (n : Nat) (y : SeqEntry) : (s.setSeqEntry n y).tick = s.tick := rfl
@[simp] theorem State.setSeqEntry_free (s : State) (n : Nat) (y : SeqEntry) : (s.setSeqEntry n y).free = s.free := rfl
@[simp] theorem State.setSeqEntry_pending (s : State) (n : Nat) (y : SeqEntry) : (s.setSeqEntry n y).pending = s.pending := rfl
@[simp] theorem State.setSeqEntry_devState (s : State) (n : Nat) (y : SeqEntry) : (s.setSeqEntry n y).devState = s.devState := rfl
@[simp] theorem State.setSeqEntry_quiesced (s : State) (n : Nat) (y : SeqEntry) : (s.setSeqEntry n y).quiesced = s.quiesced := rfl
@[simp] theorem State.setSeqEntry_drainMode (s : State) (n : Nat) (y : SeqEntry) : (s.setSeqEntry n y).drainMode = s.drainMode := rfl
@[simp] theorem State.setSeqEntry_drainAt (s : State) (n : Nat) (y : SeqEntry) : (s.setSeqEntry n y).drainAt = s.drainAt := rfl
@[simp] theorem State.setSeqEntry_grade (s : State) (n : Nat) (y : SeqEntry) : (s.setSeqEntry n y).grade = s.grade := rfl
@[simp] theorem State.setSeqEntry_uid (s : State) (n : Nat) (y : SeqEntry) : (s.setSeqEntry n y).uid = s.uid := rfl
@[simp] theorem State.setSeqEntry_domainValid (s : State) (n : Nat) (y : SeqEntry) : (s.setSeqEntry n y).domainValid = s.domainValid := rfl
@[simp] theorem State.setSeqEntry_part (s : State) (n : Nat) (y : SeqEntry) : (s.setSeqEntry n y).part = s.part := rfl
@[simp] theorem State.setSeqEntry_routes (s : State) (n : Nat) (y : SeqEntry) : (s.setSeqEntry n y).routes = s.routes := rfl
@[simp] theorem State.setSeqEntry_power (s : State) (n : Nat) (y : SeqEntry) : (s.setSeqEntry n y).power = s.power := rfl
@[simp] theorem State.setSeqEntry_macer (s : State) (n : Nat) (y : SeqEntry) : (s.setSeqEntry n y).macer = s.macer := rfl
@[simp] theorem State.setSeqEntry_repair (s : State) (n : Nat) (y : SeqEntry) : (s.setSeqEntry n y).repair = s.repair := rfl
@[simp] theorem State.setSeqEntry_keys (s : State) (n : Nat) (y : SeqEntry) : (s.setSeqEntry n y).keys = s.keys := rfl
@[simp] theorem State.setSeqEntry_fw (s : State) (n : Nat) (y : SeqEntry) : (s.setSeqEntry n y).fw = s.fw := rfl
@[simp] theorem State.setSeqEntry_mgmt (s : State) (n : Nat) (y : SeqEntry) : (s.setSeqEntry n y).mgmt = s.mgmt := rfl
@[simp] theorem State.setSeqEntry_metering (s : State) (n : Nat) (y : SeqEntry) : (s.setSeqEntry n y).metering = s.metering := rfl
@[simp] theorem State.setSeqEntry_pcie (s : State) (n : Nat) (y : SeqEntry) : (s.setSeqEntry n y).pcie = s.pcie := rfl
@[simp] theorem State.setSeqEntry_store (s : State) (n : Nat) (y : SeqEntry) : (s.setSeqEntry n y).store = s.store := rfl
@[simp] theorem State.setSeqEntry_mbox (s : State) (n : Nat) (y : SeqEntry) : (s.setSeqEntry n y).mbox = s.mbox := rfl
@[simp] theorem State.setSeqEntry_devLog (s : State) (n : Nat) (y : SeqEntry) : (s.setSeqEntry n y).devLog = s.devLog := rfl
@[simp] theorem State.setSeqEntry_errLog (s : State) (n : Nat) (y : SeqEntry) : (s.setSeqEntry n y).errLog = s.errLog := rfl
@[simp] theorem State.setSeqEntry_devCtrs (s : State) (n : Nat) (y : SeqEntry) : (s.setSeqEntry n y).devCtrs = s.devCtrs := rfl
@[simp] theorem State.setSeqEntry_cells (s : State) (n : Nat) (y : SeqEntry) : (s.setSeqEntry n y).cells = s.cells := rfl
@[simp] theorem State.setSeqEntry_bays (s : State) (n : Nat) (y : SeqEntry) : (s.setSeqEntry n y).bays = s.bays := rfl
@[simp] theorem State.setSeqEntry_suites (s : State) (n : Nat) (y : SeqEntry) : (s.setSeqEntry n y).suites = s.suites := rfl
@[simp] theorem State.setSeqEntry_ports (s : State) (n : Nat) (y : SeqEntry) : (s.setSeqEntry n y).ports = s.ports := rfl
@[simp] theorem State.setSeqEntry_streams (s : State) (n : Nat) (y : SeqEntry) : (s.setSeqEntry n y).streams = s.streams := rfl
@[simp] theorem State.setSeqEntry_gacon (s : State) (n : Nat) (y : SeqEntry) : (s.setSeqEntry n y).gacon = s.gacon := rfl
@[simp] theorem State.setSeqEntry_barriers (s : State) (n : Nat) (y : SeqEntry) : (s.setSeqEntry n y).barriers = s.barriers := rfl
@[simp] theorem State.setSeqEntry_out (s : State) (n : Nat) (y : SeqEntry) : (s.setSeqEntry n y).out = s.out := rfl
@[simp] theorem State.setSeqEntry_cell (s : State) (n : Nat) (y : SeqEntry) (k : Nat) : (s.setSeqEntry n y).cell k = s.cell k := rfl
@[simp] theorem State.setSeqEntry_bay (s : State) (n : Nat) (y : SeqEntry) (k : Nat) : (s.setSeqEntry n y).bay k = s.bay k := rfl
@[simp] theorem State.setSeqEntry_suite (s : State) (n : Nat) (y : SeqEntry) (k : Nat) : (s.setSeqEntry n y).suite k = s.suite k := rfl
@[simp] theorem State.setSeqEntry_port (s : State) (n : Nat) (y : SeqEntry) (k : Nat) : (s.setSeqEntry n y).port k = s.port k := rfl
@[simp] theorem State.setSeqEntry_gport (s : State) (n : Nat) (y : SeqEntry) (k : Nat) : (s.setSeqEntry n y).gport k = s.gport k := rfl
@[simp] theorem State.setSeqEntry_barrier (s : State) (n : Nat) (y : SeqEntry) (k : Nat) : (s.setSeqEntry n y).barrier k = s.barrier k := rfl
@[simp] theorem State.setSeqEntry_stream (s : State) (n : Nat) (y : SeqEntry) (k : StreamCtx) : (s.setSeqEntry n y).stream k = s.stream k := rfl
@[simp] theorem State.setSeqEntry_seqEntry_same (s : State) (k : Nat) (y : SeqEntry) : (s.setSeqEntry k y).seqEntry k = y := sget_sset_same _ _ _ _
theorem State.setSeqEntry_seqEntry_ne (s : State) (k j : Nat) (y : SeqEntry) (h : j ≠ k) : (s.setSeqEntry k y).seqEntry j = s.seqEntry j := sget_sset_ne _ _ _ _ _ h
theorem State.setSeqEntry_seqEntry (s : State) (k j : Nat) (y : SeqEntry) : (s.setSeqEntry k y).seqEntry j = if j = k then y else s.seqEntry j := sget_sset _ _ _ _ _

/-! ### streams -/

@[simp] theorem State.setStream_now (s : State) (x : StreamCtx) (y : StreamState) : (s.setStream x y).now = s.now := rfl
@[simp] theorem State.setStream_tick (s : State) (x : StreamCtx) (y : StreamState) : (s.setStream x y).tick = s.tick := rfl
@[simp] theorem State.setStream_free (s : State) (x : StreamCtx) (y : StreamState) : (s.setStream x y).free = s.free := rfl
@[simp] theorem State.setStream_pending (s : State) (x : StreamCtx) (y : StreamState) : (s.setStream x y).pending = s.pending := rfl
@[simp] theorem State.setStream_devState (s : State) (x : StreamCtx) (y : StreamState) : (s.setStream x y).devState = s.devState := rfl
@[simp] theorem State.setStream_quiesced (s : State) (x : StreamCtx) (y : StreamState) : (s.setStream x y).quiesced = s.quiesced := rfl
@[simp] theorem State.setStream_drainMode (s : State) (x : StreamCtx) (y : StreamState) : (s.setStream x y).drainMode = s.drainMode := rfl
@[simp] theorem State.setStream_drainAt (s : State) (x : StreamCtx) (y : StreamState) : (s.setStream x y).drainAt = s.drainAt := rfl
@[simp] theorem State.setStream_grade (s : State) (x : StreamCtx) (y : StreamState) : (s.setStream x y).grade = s.grade := rfl
@[simp] theorem State.setStream_uid (s : State) (x : StreamCtx) (y : StreamState) : (s.setStream x y).uid = s.uid := rfl
@[simp] theorem State.setStream_domainValid (s : State) (x : StreamCtx) (y : StreamState) : (s.setStream x y).domainValid = s.domainValid := rfl
@[simp] theorem State.setStream_part (s : State) (x : StreamCtx) (y : StreamState) : (s.setStream x y).part = s.part := rfl
@[simp] theorem State.setStream_routes (s : State) (x : StreamCtx) (y : StreamState) : (s.setStream x y).routes = s.routes := rfl
@[simp] theorem State.setStream_power (s : State) (x : StreamCtx) (y : StreamState) : (s.setStream x y).power = s.power := rfl
@[simp] theorem State.setStream_macer (s : State) (x : StreamCtx) (y : StreamState) : (s.setStream x y).macer = s.macer := rfl
@[simp] theorem State.setStream_repair (s : State) (x : StreamCtx) (y : StreamState) : (s.setStream x y).repair = s.repair := rfl
@[simp] theorem State.setStream_keys (s : State) (x : StreamCtx) (y : StreamState) : (s.setStream x y).keys = s.keys := rfl
@[simp] theorem State.setStream_fw (s : State) (x : StreamCtx) (y : StreamState) : (s.setStream x y).fw = s.fw := rfl
@[simp] theorem State.setStream_mgmt (s : State) (x : StreamCtx) (y : StreamState) : (s.setStream x y).mgmt = s.mgmt := rfl
@[simp] theorem State.setStream_metering (s : State) (x : StreamCtx) (y : StreamState) : (s.setStream x y).metering = s.metering := rfl
@[simp] theorem State.setStream_pcie (s : State) (x : StreamCtx) (y : StreamState) : (s.setStream x y).pcie = s.pcie := rfl
@[simp] theorem State.setStream_store (s : State) (x : StreamCtx) (y : StreamState) : (s.setStream x y).store = s.store := rfl
@[simp] theorem State.setStream_mbox (s : State) (x : StreamCtx) (y : StreamState) : (s.setStream x y).mbox = s.mbox := rfl
@[simp] theorem State.setStream_devLog (s : State) (x : StreamCtx) (y : StreamState) : (s.setStream x y).devLog = s.devLog := rfl
@[simp] theorem State.setStream_errLog (s : State) (x : StreamCtx) (y : StreamState) : (s.setStream x y).errLog = s.errLog := rfl
@[simp] theorem State.setStream_devCtrs (s : State) (x : StreamCtx) (y : StreamState) : (s.setStream x y).devCtrs = s.devCtrs := rfl
@[simp] theorem State.setStream_cells (s : State) (x : StreamCtx) (y : StreamState) : (s.setStream x y).cells = s.cells := rfl
@[simp] theorem State.setStream_bays (s : State) (x : StreamCtx) (y : StreamState) : (s.setStream x y).bays = s.bays := rfl
@[simp] theorem State.setStream_suites (s : State) (x : StreamCtx) (y : StreamState) : (s.setStream x y).suites = s.suites := rfl
@[simp] theorem State.setStream_ports (s : State) (x : StreamCtx) (y : StreamState) : (s.setStream x y).ports = s.ports := rfl
@[simp] theorem State.setStream_gacon (s : State) (x : StreamCtx) (y : StreamState) : (s.setStream x y).gacon = s.gacon := rfl
@[simp] theorem State.setStream_barriers (s : State) (x : StreamCtx) (y : StreamState) : (s.setStream x y).barriers = s.barriers := rfl
@[simp] theorem State.setStream_seqs (s : State) (x : StreamCtx) (y : StreamState) : (s.setStream x y).seqs = s.seqs := rfl
@[simp] theorem State.setStream_out (s : State) (x : StreamCtx) (y : StreamState) : (s.setStream x y).out = s.out := rfl
@[simp] theorem State.setStream_cell (s : State) (x : StreamCtx) (y : StreamState) (k : Nat) : (s.setStream x y).cell k = s.cell k := rfl
@[simp] theorem State.setStream_bay (s : State) (x : StreamCtx) (y : StreamState) (k : Nat) : (s.setStream x y).bay k = s.bay k := rfl
@[simp] theorem State.setStream_suite (s : State) (x : StreamCtx) (y : StreamState) (k : Nat) : (s.setStream x y).suite k = s.suite k := rfl
@[simp] theorem State.setStream_port (s : State) (x : StreamCtx) (y : StreamState) (k : Nat) : (s.setStream x y).port k = s.port k := rfl
@[simp] theorem State.setStream_gport (s : State) (x : StreamCtx) (y : StreamState) (k : Nat) : (s.setStream x y).gport k = s.gport k := rfl
@[simp] theorem State.setStream_barrier (s : State) (x : StreamCtx) (y : StreamState) (k : Nat) : (s.setStream x y).barrier k = s.barrier k := rfl
@[simp] theorem State.setStream_seqEntry (s : State) (x : StreamCtx) (y : StreamState) (k : Nat) : (s.setStream x y).seqEntry k = s.seqEntry k := rfl
@[simp] theorem State.setStream_stream_same (s : State) (k : StreamCtx) (y : StreamState) : (s.setStream k y).stream k = y := sget_sset_same _ _ _ _
theorem State.setStream_stream_ne (s : State) (k j : StreamCtx) (y : StreamState) (h : ctxIx j ≠ ctxIx k) : (s.setStream k y).stream j = s.stream j := sget_sset_ne _ _ _ _ _ h
theorem State.updStream_def (s : State) (x : StreamCtx) (f : StreamState → StreamState) : s.updStream x f = s.setStream x (f (s.stream x)) := rfl
@[simp] theorem State.updStream_now (s : State) (x : StreamCtx) (f : StreamState → StreamState) : (s.updStream x f).now = s.now := rfl
@[simp] theorem State.updStream_tick (s : State) (x : StreamCtx) (f : StreamState → StreamState) : (s.updStream x f).tick = s.tick := rfl
@[simp] theorem State.updStream_free (s : State) (x : StreamCtx) (f : StreamState → StreamState) : (s.updStream x f).free = s.free := rfl
@[simp] theorem State.updStream_pending (s : State) (x : StreamCtx) (f : StreamState → StreamState) : (s.updStream x f).pending = s.pending := rfl
@[simp] theorem State.updStream_devState (s : State) (x : StreamCtx) (f : StreamState → StreamState) : (s.updStream x f).devState = s.devState := rfl
@[simp] theorem State.updStream_quiesced (s : State) (x : StreamCtx) (f : StreamState → StreamState) : (s.updStream x f).quiesced = s.quiesced := rfl
@[simp] theorem State.updStream_drainMode (s : State) (x : StreamCtx) (f : StreamState → StreamState) : (s.updStream x f).drainMode = s.drainMode := rfl
@[simp] theorem State.updStream_drainAt (s : State) (x : StreamCtx) (f : StreamState → StreamState) : (s.updStream x f).drainAt = s.drainAt := rfl
@[simp] theorem State.updStream_grade (s : State) (x : StreamCtx) (f : StreamState → StreamState) : (s.updStream x f).grade = s.grade := rfl
@[simp] theorem State.updStream_uid (s : State) (x : StreamCtx) (f : StreamState → StreamState) : (s.updStream x f).uid = s.uid := rfl
@[simp] theorem State.updStream_domainValid (s : State) (x : StreamCtx) (f : StreamState → StreamState) : (s.updStream x f).domainValid = s.domainValid := rfl
@[simp] theorem State.updStream_part (s : State) (x : StreamCtx) (f : StreamState → StreamState) : (s.updStream x f).part = s.part := rfl
@[simp] theorem State.updStream_routes (s : State) (x : StreamCtx) (f : StreamState → StreamState) : (s.updStream x f).routes = s.routes := rfl
@[simp] theorem State.updStream_power (s : State) (x : StreamCtx) (f : StreamState → StreamState) : (s.updStream x f).power = s.power := rfl
@[simp] theorem State.updStream_macer (s : State) (x : StreamCtx) (f : StreamState → StreamState) : (s.updStream x f).macer = s.macer := rfl
@[simp] theorem State.updStream_repair (s : State) (x : StreamCtx) (f : StreamState → StreamState) : (s.updStream x f).repair = s.repair := rfl
@[simp] theorem State.updStream_keys (s : State) (x : StreamCtx) (f : StreamState → StreamState) : (s.updStream x f).keys = s.keys := rfl
@[simp] theorem State.updStream_fw (s : State) (x : StreamCtx) (f : StreamState → StreamState) : (s.updStream x f).fw = s.fw := rfl
@[simp] theorem State.updStream_mgmt (s : State) (x : StreamCtx) (f : StreamState → StreamState) : (s.updStream x f).mgmt = s.mgmt := rfl
@[simp] theorem State.updStream_metering (s : State) (x : StreamCtx) (f : StreamState → StreamState) : (s.updStream x f).metering = s.metering := rfl
@[simp] theorem State.updStream_pcie (s : State) (x : StreamCtx) (f : StreamState → StreamState) : (s.updStream x f).pcie = s.pcie := rfl
@[simp] theorem State.updStream_store (s : State) (x : StreamCtx) (f : StreamState → StreamState) : (s.updStream x f).store = s.store := rfl
@[simp] theorem State.updStream_mbox (s : State) (x : StreamCtx) (f : StreamState → StreamState) : (s.updStream x f).mbox = s.mbox := rfl
@[simp] theorem State.updStream_devLog (s : State) (x : StreamCtx) (f : StreamState → StreamState) : (s.updStream x f).devLog = s.devLog := rfl
@[simp] theorem State.updStream_errLog (s : State) (x : StreamCtx) (f : StreamState → StreamState) : (s.updStream x f).errLog = s.errLog := rfl
@[simp] theorem State.updStream_devCtrs (s : State) (x : StreamCtx) (f : StreamState → StreamState) : (s.updStream x f).devCtrs = s.devCtrs := rfl
@[simp] theorem State.updStream_cells (s : State) (x : StreamCtx) (f : StreamState → StreamState) : (s.updStream x f).cells = s.cells := rfl
@[simp] theorem State.updStream_bays (s : State) (x : StreamCtx) (f : StreamState → StreamState) : (s.updStream x f).bays = s.bays := rfl
@[simp] theorem State.updStream_suites (s : State) (x : StreamCtx) (f : StreamState → StreamState) : (s.updStream x f).suites = s.suites := rfl
@[simp] theorem State.updStream_ports (s : State) (x : StreamCtx) (f : StreamState → StreamState) : (s.updStream x f).ports = s.ports := rfl
@[simp] theorem State.updStream_gacon (s : State) (x : StreamCtx) (f : StreamState → StreamState) : (s.updStream x f).gacon = s.gacon := rfl
@[simp] theorem State.updStream_barriers (s : State) (x : StreamCtx) (f : StreamState → StreamState) : (s.updStream x f).barriers = s.barriers := rfl
@[simp] theorem State.updStream_seqs (s : State) (x : StreamCtx) (f : StreamState → StreamState) : (s.updStream x f).seqs = s.seqs := rfl
@[simp] theorem State.updStream_out (s : State) (x : StreamCtx) (f : StreamState → StreamState) : (s.updStream x f).out = s.out := rfl
@[simp] theorem State.updStream_cell (s : State) (x : StreamCtx) (f : StreamState → StreamState) (k : Nat) : (s.updStream x f).cell k = s.cell k := rfl
@[simp] theorem State.updStream_bay (s : State) (x : StreamCtx) (f : StreamState → StreamState) (k : Nat) : (s.updStream x f).bay k = s.bay k := rfl
@[simp] theorem State.updStream_suite (s : State) (x : StreamCtx) (f : StreamState → StreamState) (k : Nat) : (s.updStream x f).suite k = s.suite k := rfl
@[simp] theorem State.updStream_port (s : State) (x : StreamCtx) (f : StreamState → StreamState) (k : Nat) : (s.updStream x f).port k = s.port k := rfl
@[simp] theorem State.updStream_gport (s : State) (x : StreamCtx) (f : StreamState → StreamState) (k : Nat) : (s.updStream x f).gport k = s.gport k := rfl
@[simp] theorem State.updStream_barrier (s : State) (x : StreamCtx) (f : StreamState → StreamState) (k : Nat) : (s.updStream x f).barrier k = s.barrier k := rfl
@[simp] theorem State.updStream_seqEntry (s : State) (x : StreamCtx) (f : StreamState → StreamState) (k : Nat) : (s.updStream x f).seqEntry k = s.seqEntry k := rfl
@[simp] theorem State.updStream_stream_same (s : State) (k : StreamCtx) (f : StreamState → StreamState) : (s.updStream k f).stream k = f (s.stream k) := sget_sset_same _ _ _ _

/-! ### Free values, interrupts -/

@[simp] theorem State.fresh_now (s : State) : s.fresh.2.now = s.now := rfl
@[simp] theorem State.fresh_tick (s : State) : s.fresh.2.tick = s.tick := rfl
@[simp] theorem State.fresh_pending (s : State) : s.fresh.2.pending = s.pending := rfl
@[simp] theorem State.fresh_devState (s : State) : s.fresh.2.devState = s.devState := rfl
@[simp] theorem State.fresh_quiesced (s : State) : s.fresh.2.quiesced = s.quiesced := rfl
@[simp] theorem State.fresh_drainMode (s : State) : s.fresh.2.drainMode = s.drainMode := rfl
@[simp] theorem State.fresh_drainAt (s : State) : s.fresh.2.drainAt = s.drainAt := rfl
@[simp] theorem State.fresh_grade (s : State) : s.fresh.2.grade = s.grade := rfl
@[simp] theorem State.fresh_uid (s : State) : s.fresh.2.uid = s.uid := rfl
@[simp] theorem State.fresh_domainValid (s : State) : s.fresh.2.domainValid = s.domainValid := rfl
@[simp] theorem State.fresh_part (s : State) : s.fresh.2.part = s.part := rfl
@[simp] theorem State.fresh_routes (s : State) : s.fresh.2.routes = s.routes := rfl
@[simp] theorem State.fresh_power (s : State) : s.fresh.2.power = s.power := rfl
@[simp] theorem State.fresh_macer (s : State) : s.fresh.2.macer = s.macer := rfl
@[simp] theorem State.fresh_repair (s : State) : s.fresh.2.repair = s.repair := rfl
@[simp] theorem State.fresh_keys (s : State) : s.fresh.2.keys = s.keys := rfl
@[simp] theorem State.fresh_fw (s : State) : s.fresh.2.fw = s.fw := rfl
@[simp] theorem State.fresh_mgmt (s : State) : s.fresh.2.mgmt = s.mgmt := rfl
@[simp] theorem State.fresh_metering (s : State) : s.fresh.2.metering = s.metering := rfl
@[simp] theorem State.fresh_pcie (s : State) : s.fresh.2.pcie = s.pcie := rfl
@[simp] theorem State.fresh_store (s : State) : s.fresh.2.store = s.store := rfl
@[simp] theorem State.fresh_mbox (s : State) : s.fresh.2.mbox = s.mbox := rfl
@[simp] theorem State.fresh_devLog (s : State) : s.fresh.2.devLog = s.devLog := rfl
@[simp] theorem State.fresh_errLog (s : State) : s.fresh.2.errLog = s.errLog := rfl
@[simp] theorem State.fresh_devCtrs (s : State) : s.fresh.2.devCtrs = s.devCtrs := rfl
@[simp] theorem State.fresh_cells (s : State) : s.fresh.2.cells = s.cells := rfl
@[simp] theorem State.fresh_bays (s : State) : s.fresh.2.bays = s.bays := rfl
@[simp] theorem State.fresh_suites (s : State) : s.fresh.2.suites = s.suites := rfl
@[simp] theorem State.fresh_ports (s : State) : s.fresh.2.ports = s.ports := rfl
@[simp] theorem State.fresh_streams (s : State) : s.fresh.2.streams = s.streams := rfl
@[simp] theorem State.fresh_gacon (s : State) : s.fresh.2.gacon = s.gacon := rfl
@[simp] theorem State.fresh_barriers (s : State) : s.fresh.2.barriers = s.barriers := rfl
@[simp] theorem State.fresh_seqs (s : State) : s.fresh.2.seqs = s.seqs := rfl
@[simp] theorem State.fresh_out (s : State) : s.fresh.2.out = s.out := rfl
@[simp] theorem State.fresh_free (s : State) : s.fresh.2.free = s.free + 1 := rfl
@[simp] theorem State.msix_now (s : State) (f : HostFn) (v : Nat) : (s.msix f v).now = s.now := rfl
@[simp] theorem State.msix_tick (s : State) (f : HostFn) (v : Nat) : (s.msix f v).tick = s.tick := rfl
@[simp] theorem State.msix_free (s : State) (f : HostFn) (v : Nat) : (s.msix f v).free = s.free := rfl
@[simp] theorem State.msix_pending (s : State) (f : HostFn) (v : Nat) : (s.msix f v).pending = s.pending := rfl
@[simp] theorem State.msix_devState (s : State) (f : HostFn) (v : Nat) : (s.msix f v).devState = s.devState := rfl
@[simp] theorem State.msix_quiesced (s : State) (f : HostFn) (v : Nat) : (s.msix f v).quiesced = s.quiesced := rfl
@[simp] theorem State.msix_drainMode (s : State) (f : HostFn) (v : Nat) : (s.msix f v).drainMode = s.drainMode := rfl
@[simp] theorem State.msix_drainAt (s : State) (f : HostFn) (v : Nat) : (s.msix f v).drainAt = s.drainAt := rfl
@[simp] theorem State.msix_grade (s : State) (f : HostFn) (v : Nat) : (s.msix f v).grade = s.grade := rfl
@[simp] theorem State.msix_uid (s : State) (f : HostFn) (v : Nat) : (s.msix f v).uid = s.uid := rfl
@[simp] theorem State.msix_domainValid (s : State) (f : HostFn) (v : Nat) : (s.msix f v).domainValid = s.domainValid := rfl
@[simp] theorem State.msix_part (s : State) (f : HostFn) (v : Nat) : (s.msix f v).part = s.part := rfl
@[simp] theorem State.msix_routes (s : State) (f : HostFn) (v : Nat) : (s.msix f v).routes = s.routes := rfl
@[simp] theorem State.msix_power (s : State) (f : HostFn) (v : Nat) : (s.msix f v).power = s.power := rfl
@[simp] theorem State.msix_macer (s : State) (f : HostFn) (v : Nat) : (s.msix f v).macer = s.macer := rfl
@[simp] theorem State.msix_repair (s : State) (f : HostFn) (v : Nat) : (s.msix f v).repair = s.repair := rfl
@[simp] theorem State.msix_keys (s : State) (f : HostFn) (v : Nat) : (s.msix f v).keys = s.keys := rfl
@[simp] theorem State.msix_fw (s : State) (f : HostFn) (v : Nat) : (s.msix f v).fw = s.fw := rfl
@[simp] theorem State.msix_mgmt (s : State) (f : HostFn) (v : Nat) : (s.msix f v).mgmt = s.mgmt := rfl
@[simp] theorem State.msix_metering (s : State) (f : HostFn) (v : Nat) : (s.msix f v).metering = s.metering := rfl
@[simp] theorem State.msix_store (s : State) (f : HostFn) (v : Nat) : (s.msix f v).store = s.store := rfl
@[simp] theorem State.msix_mbox (s : State) (f : HostFn) (v : Nat) : (s.msix f v).mbox = s.mbox := rfl
@[simp] theorem State.msix_devLog (s : State) (f : HostFn) (v : Nat) : (s.msix f v).devLog = s.devLog := rfl
@[simp] theorem State.msix_errLog (s : State) (f : HostFn) (v : Nat) : (s.msix f v).errLog = s.errLog := rfl
@[simp] theorem State.msix_devCtrs (s : State) (f : HostFn) (v : Nat) : (s.msix f v).devCtrs = s.devCtrs := rfl
@[simp] theorem State.msix_cells (s : State) (f : HostFn) (v : Nat) : (s.msix f v).cells = s.cells := rfl
@[simp] theorem State.msix_bays (s : State) (f : HostFn) (v : Nat) : (s.msix f v).bays = s.bays := rfl
@[simp] theorem State.msix_suites (s : State) (f : HostFn) (v : Nat) : (s.msix f v).suites = s.suites := rfl
@[simp] theorem State.msix_ports (s : State) (f : HostFn) (v : Nat) : (s.msix f v).ports = s.ports := rfl
@[simp] theorem State.msix_streams (s : State) (f : HostFn) (v : Nat) : (s.msix f v).streams = s.streams := rfl
@[simp] theorem State.msix_gacon (s : State) (f : HostFn) (v : Nat) : (s.msix f v).gacon = s.gacon := rfl
@[simp] theorem State.msix_barriers (s : State) (f : HostFn) (v : Nat) : (s.msix f v).barriers = s.barriers := rfl
@[simp] theorem State.msix_seqs (s : State) (f : HostFn) (v : Nat) : (s.msix f v).seqs = s.seqs := rfl
@[simp] theorem State.msix_out (s : State) (f : HostFn) (v : Nat) :
    (s.msix f v).out.msix = if s.power.linkUp && !(s.vector f v).masked then s.out.msix ++ [(f, v)] else s.out.msix := rfl
@[simp] theorem State.msix_dma (s : State) (f : HostFn) (v : Nat) : (s.msix f v).out.dma = s.out.dma := rfl
@[simp] theorem State.msix_pcie (s : State) (f : HostFn) (v : Nat) :
    (s.msix f v).pcie = if (s.vector f v).masked then
      { s.pcie with vectors := sset s.pcie.vectors (8 * fnIx f + v) { s.vector f v with pending := true } } else s.pcie := rfl
@[simp] theorem State.msix_cell (s : State) (f : HostFn) (v : Nat) (k : Nat) : (s.msix f v).cell k = s.cell k := rfl
@[simp] theorem State.msix_bay (s : State) (f : HostFn) (v : Nat) (k : Nat) : (s.msix f v).bay k = s.bay k := rfl
@[simp] theorem State.msix_suite (s : State) (f : HostFn) (v : Nat) (k : Nat) : (s.msix f v).suite k = s.suite k := rfl
@[simp] theorem State.msix_port (s : State) (f : HostFn) (v : Nat) (k : Nat) : (s.msix f v).port k = s.port k := rfl
@[simp] theorem State.msix_gport (s : State) (f : HostFn) (v : Nat) (k : Nat) : (s.msix f v).gport k = s.gport k := rfl
@[simp] theorem State.msix_barrier (s : State) (f : HostFn) (v : Nat) (k : Nat) : (s.msix f v).barrier k = s.barrier k := rfl
@[simp] theorem State.msix_seqEntry (s : State) (f : HostFn) (v : Nat) (k : Nat) : (s.msix f v).seqEntry k = s.seqEntry k := rfl
@[simp] theorem State.msix_stream (s : State) (f : HostFn) (v : Nat) (k : StreamCtx) : (s.msix f v).stream k = s.stream k := rfl

end Sys2Proof.Machine
end

