-- ==== Sys2Proof/Laws/Commands.lean ====
section
/-!
SUPPORT. What the operations that many commands share can do: records and logs, free values, time, completions, the common path of the mailbox
commands, and the issue of an instruction.
-/

namespace Sys2Proof.Machine

/-! ### Interrupts and free values -/

/-- Taking a free value changes its count only. -/
theorem State.fresh_spec (s : State) : s.fresh.1 = Config.freeValue s.free ∧ s.fresh.2 = { s with free := s.free + 1 } := ⟨rfl, rfl⟩

/-- Setting alert bits changes ALERT_CTL only, and leaves set bits set (Table 18.2). -/
theorem State.setAlert_spec (s : State) (m : Byte) :
    s.setAlert m = { s with mgmt := { s.mgmt with alert := s.mgmt.alert ||| m } } := rfl

/-! ### Records -/

/-- A record goes to the device error log, and for a suite and a TYPE other than 0x09 to its error queue with an interrupt (R557): nothing else
changes. -/
theorem State.addRecord_cases (s : State) (ty : Nat) (suite : Option Nat) (r : W256) :
    s.addRecord ty suite r = { s with errLog := ringPush s.errLog 0 r } ∨
    ∃ i, suite = some i ∧ ty ≠ 9 ∧
      s.addRecord ty suite r =
        ({ s with errLog := ringPush s.errLog 0 r, suites := (s.updSuite i (fun u => { u with errq := ringPush u.errq 512 r })).suites } : State).msix (vfOf i) 2 := by
  unfold State.addRecord
  cases suite with
  | none => exact .inl rfl
  | some i =>
    by_cases h : ty = 9
    · exact .inl (by simp [h])
    · exact .inr ⟨i, rfl, h, by simp only [h, if_false]; rfl⟩

@[simp] theorem State.addRecord_cells (s : State) (ty : Nat) (suite : Option Nat) (r : W256) : (s.addRecord ty suite r).cells = s.cells := by
  obtain h | ⟨i, -, -, h⟩ := s.addRecord_cases ty suite r <;> rw [h] <;> rfl

@[simp] theorem State.addRecord_ports (s : State) (ty : Nat) (suite : Option Nat) (r : W256) : (s.addRecord ty suite r).ports = s.ports := by
  obtain h | ⟨i, -, -, h⟩ := s.addRecord_cases ty suite r <;> rw [h] <;> rfl

@[simp] theorem State.addRecord_mbox (s : State) (ty : Nat) (suite : Option Nat) (r : W256) : (s.addRecord ty suite r).mbox = s.mbox := by
  obtain h | ⟨i, -, -, h⟩ := s.addRecord_cases ty suite r <;> rw [h] <;> rfl

@[simp] theorem State.addRecord_errLog (s : State) (ty : Nat) (suite : Option Nat) (r : W256) :
    (s.addRecord ty suite r).errLog = ringPush s.errLog 0 r := by
  obtain h | ⟨i, -, -, h⟩ := s.addRecord_cases ty suite r <;> rw [h] <;> rfl

/-- What a ring holds after a push (R556, R557): the sequence number advances, and the newest record carries the old one. -/
theorem ringPush_next (q : RecordRing) (size : Nat) (r : W256) : (ringPush q size r).next = q.next + 1 := by
  unfold ringPush
  simp only []
  split <;> rfl

/-- A ring with a size never holds more records than it, when it did not before (R557). -/
theorem ringPush_length (q : RecordRing) (size : Nat) (r : W256) (h0 : size ≠ 0) (h : q.records.length ≤ size) :
    (ringPush q size r).records.length ≤ size := by
  unfold ringPush
  simp only []
  split
  · simp only [List.length_drop, List.length_append, List.length_cons, List.length_nil]
    omega
  · rename_i hn
    have := hn
    simp only [ne_eq, h0, not_false_eq_true, true_and, Nat.not_lt] at this
    exact this

/-- An event of the device event log (R638). -/
theorem State.logEvent_spec (s : State) (code addr info : Nat) (suite : Option Nat) :
    s.logEvent code addr info suite =
      ({ s with devLog := ringPush s.devLog 4096 (errRecord s 0 code 0 addr info 0xFFFFF suite) } : State).msix .pf 1 := rfl

/-! ### Time -/

/-- Time never runs back, and a moment that has come is not waited for. -/
theorem State.waitUntil_of_le (s : State) (t : Nat) (h : t ≤ s.now) : s.waitUntil t = s := by simp [State.waitUntil, h]

@[simp] theorem State.advance_now (s : State) (k : Nat) : (s.advance k).now = s.now + k := rfl

/-- After waiting, the moment has come. -/
theorem State.waitUntil_now (s : State) (t : Nat) : (s.waitUntil t).now = max s.now t := by
  unfold State.waitUntil
  split
  · omega
  · rw [State.advance_now]; omega

/-- A cell in a section whose schedule cycle has come, and which no hold stops, is not waited for (R62, R208). -/
theorem State.waitCycle_of_le (s : State) (c t : Nat) (u : Suite) (hu : s.runningSuite (s.cell c) = some u)
    (hc : (s.cell c).clocked = true) (h : t ≤ (s.cell c).seq.cyc) : s.waitCycle c t = some s := by
  simp [State.waitCycle, hu, hc, h]

/-- Outside a RUNNING suite a cell's schedule time stands still (log 11). -/
theorem State.waitCycle_not_running (s : State) (c t : Nat) (h : s.runningSuite (s.cell c) = none) : s.waitCycle c t = none := by
  simp [State.waitCycle, h]

/-! ### Mailbox commands -/

/-- A DMA write is appended to what the device has put out, and nothing else changes. -/
theorem State.dmaWrite_spec (s : State) (f : HostFn) (addr : Nat) (bytes : List Byte) :
    s.dmaWrite f addr bytes = { s with out := { s.out with dma := s.out.dma ++ payloads f addr bytes } } := rfl

/-- A completion changes the mailbox, what the device has put out, and a vector that is masked, and nothing else (R503, R504). -/
theorem State.finish_frame (s : State) (t : Taken) (r : Reply) :
    s.finish t r = { s with mbox := (s.finish t r).mbox, out := (s.finish t r).out, pcie := (s.finish t r).pcie } := by
  unfold State.finish
  simp only []
  split
  · rfl
  · split <;> rfl

/-- A completed command is no longer in progress; the others are (R503). -/
theorem State.finish_taken (s : State) (t : Taken) (r : Reply) :
    (s.finish t r).mbox.taken = s.mbox.taken.filter (fun e => e.ticket != t.ticket) := by
  unfold State.finish
  simp only []
  split
  · rfl
  · split <;> rfl

/-- A completion opens and closes no session, and moves no lease or aperture. -/
theorem State.finish_sessions (s : State) (t : Taken) (r : Reply) :
    (s.finish t r).mbox.sessions = s.mbox.sessions ∧ (s.finish t r).mbox.leases = s.mbox.leases ∧
    (s.finish t r).mbox.apertures = s.mbox.apertures ∧ (s.finish t r).mbox.vfApertures = s.mbox.vfApertures := by
  unfold State.finish
  simp only []
  split
  · exact ⟨rfl, rfl, rfl, rfl⟩
  · split <;> exact ⟨rfl, rfl, rfl, rfl⟩

@[simp] theorem State.finish_cells (s : State) (t : Taken) (r : Reply) : (s.finish t r).cells = s.cells := by rw [s.finish_frame t r]
@[simp] theorem State.finish_suites (s : State) (t : Taken) (r : Reply) : (s.finish t r).suites = s.suites := by rw [s.finish_frame t r]
@[simp] theorem State.finish_bays (s : State) (t : Taken) (r : Reply) : (s.finish t r).bays = s.bays := by rw [s.finish_frame t r]
@[simp] theorem State.finish_ports (s : State) (t : Taken) (r : Reply) : (s.finish t r).ports = s.ports := by rw [s.finish_frame t r]
@[simp] theorem State.finish_keys (s : State) (t : Taken) (r : Reply) : (s.finish t r).keys = s.keys := by rw [s.finish_frame t r]
@[simp] theorem State.finish_fw (s : State) (t : Taken) (r : Reply) : (s.finish t r).fw = s.fw := by rw [s.finish_frame t r]
@[simp] theorem State.finish_mgmt (s : State) (t : Taken) (r : Reply) : (s.finish t r).mgmt = s.mgmt := by rw [s.finish_frame t r]
@[simp] theorem State.finish_devState (s : State) (t : Taken) (r : Reply) : (s.finish t r).devState = s.devState := by rw [s.finish_frame t r]
@[simp] theorem State.finish_pending (s : State) (t : Taken) (r : Reply) : (s.finish t r).pending = s.pending := by rw [s.finish_frame t r]

/-- A command that may start is the taken one of its ticket and opcode; one that goes on is running. -/
theorem startable_spec {s : State} {ticket op : Nat} {sel : Taken → Bool} {t : Taken} (h : startable s ticket op sel = some t) :
    t ∈ s.mbox.taken ∧ t.ticket = ticket ∧ t.opcode.toNat = op ∧ sel t = true ∧ (mayStart s t = true ∨ goesOn t = true) := by
  unfold startable at h
  cases hf : s.mbox.taken.find? (fun t => t.ticket == ticket && t.opcode.toNat == op && sel t) with
  | none => simp [hf] at h
  | some u =>
    rw [hf] at h
    simp only [Option.bind_some] at h
    split at h
    · rename_i hm
      cases h
      have hp := List.find?_some hf
      simp only [Bool.and_eq_true, beq_iff_eq] at hp
      exact ⟨List.mem_of_find?_eq_some hf, hp.1.1, hp.1.2, hp.2, by simpa using hm⟩
    · cases h

/-- What a row of a mailbox command can do: nothing, when no such command may start or go on; the answer of a common check that fails; or its
own effect (R505, R510–R512). -/
theorem runCommand_cases (s : State) (ticket op : Nat) (sel : Taken → Bool) (used : Taken → List (Nat × Nat)) (run : Taken → State → State) :
    (startable s ticket op sel = none ∧ runCommand s ticket op sel used run = s) ∨
    (∃ t r, startable s ticket op sel = some t ∧ t.running = false ∧ gate s t (used t) = some r ∧ runCommand s ticket op sel used run = s.finish t r) ∨
    (∃ t, startable s ticket op sel = some t ∧ (t.running = true ∨ gate s t (used t) = none) ∧ runCommand s ticket op sel used run = run t s) := by
  unfold runCommand
  cases h : startable s ticket op sel with
  | none => exact .inl ⟨rfl, rfl⟩
  | some t =>
    cases hr : t.running with
    | true => exact .inr (.inr ⟨t, rfl, .inl hr, by simp [hr]⟩)
    | false =>
      cases hg : gate s t (used t) with
      | none => exact .inr (.inr ⟨t, rfl, .inr hg, by simp [hr, hg]⟩)
      | some r => exact .inr (.inl ⟨t, r, rfl, hr, hg, by simp [hr, hg]⟩)

/-- A command that may start and meets the common checks has its own effect. -/
theorem runCommand_runs {s : State} {ticket op : Nat} {sel : Taken → Bool} {used : Taken → List (Nat × Nat)} {t : Taken}
    (run : Taken → State → State) (h : startable s ticket op sel = some t) (hg : gate s t (used t) = none) :
    runCommand s ticket op sel used run = run t s := by
  simp [runCommand, h, hg]

/-- A suite command goes on exactly when its suite exists and is in one of its states (R519). -/
theorem suiteGate_none (s : State) (i : Nat) (ok : List SuiteState) :
    suiteGate s i ok = none ↔ i < 32 ∧ (s.suite i).state ≠ .none ∧ ok.contains (s.suite i).state = true := by
  unfold suiteGate
  split
  · rename_i h
    constructor
    · intro x; cases x
    · rintro ⟨a, b, -⟩
      rcases h with h | h
      · omega
      · exact absurd h b
  · rename_i h
    rw [not_or] at h
    split
    · rename_i hc
      exact ⟨fun _ => ⟨by omega, h.2, hc⟩, fun _ => rfl⟩
    · rename_i hc
      constructor
      · intro x; cases x
      · rintro ⟨-, -, c⟩
        exact absurd c hc

/-! ### Instructions of a cell -/

/-- A fault of a cell that is FAULTED already changes nothing (R89). -/
theorem State.takeFault_of_faulted (s : State) (c cause detail addr : Nat) (exec : Bool) (f : FaultAt) (h : (s.cell c).state = .faulted) :
    s.takeFault c cause detail addr exec f = s := by
  simp [State.takeFault, h]

/-- Without a cycle to issue in, an instruction does not issue (R62). -/
theorem issueMain_waits (op c : Nat) (s : State) (h : s.waitCycle c (s.cell c).seq.ready = none) : issueMain op c s = s := by
  simp [issueMain, h]

/-- A context that may not issue now leaves the state as it is (R62, R89). -/
theorem issueMain_not_ready (op c : Nat) (s s1 : State) (h : s.waitCycle c (s.cell c).seq.ready = some s1)
    (hr : mainReady s1 (s1.cell c) = false) : issueMain op c s = s := by
  simp [issueMain, h, hr]

/-- Without a running handler, no handler instruction issues (R79). -/
theorem issueHandler_idle (op c : Nat) (s : State) (h : (s.cell c).seq.handler = none) : issueHandler op c s = s := by
  simp [issueHandler, h]

end Sys2Proof.Machine
end

