-- ==== Sys2Proof/Laws/Loader.lean ====
section
/-!
SUPPORT. What writing an image to HBM and loading its body can do (R333, R486).
-/

namespace Sys2Proof.Machine

/-- A projection that each step of a fold keeps is kept by the fold. -/
theorem foldl_keeps {S A B : Type} (f : S → A) (op : S → B → S) (h : ∀ s b, f (op s b) = f s) (l : List B) (s : S) :
    f (l.foldl op s) = f s := by
  induction l generalizing s with
  | nil => rfl
  | cons b l ih => rw [List.foldl_cons, ih, h]

/-- Bytes stored in HBM change the ports only. -/
theorem State.hbmRunW_others (s : State) (a : Nat) (bs : List Byte) (n : Nat) : { s.hbmRunW a bs n with ports := s.ports } = s := by
  induction n generalizing s a bs with
  | zero => rfl
  | succ n ih =>
    unfold State.hbmRunW
    split
    · rfl
    · exact congrArg (fun t : State => { t with ports := s.ports }) (ih _ _ _)

theorem State.hbmWrite_others (s : State) (a : Nat) (bs : List Byte) : { s.hbmWrite a bs with ports := s.ports } = s := s.hbmRunW_others a bs _

@[simp] theorem State.hbmWrite_mbox (s : State) (a : Nat) (bs : List Byte) : (s.hbmWrite a bs).mbox = s.mbox :=
  (congrArg State.mbox (s.hbmWrite_others a bs) :)

@[simp] theorem State.hbmWrite_suites (s : State) (a : Nat) (bs : List Byte) : (s.hbmWrite a bs).suites = s.suites :=
  (congrArg State.suites (s.hbmWrite_others a bs) :)

@[simp] theorem State.hbmWrite_cells (s : State) (a : Nat) (bs : List Byte) : (s.hbmWrite a bs).cells = s.cells :=
  (congrArg State.cells (s.hbmWrite_others a bs) :)

/-- Zeros over a suite's extents change the ports only. -/
theorem State.zeroSuite_keeps {A : Type} (f : State → A) (h : ∀ s lo hi, f (s.hbmClear lo hi) = f s) (w : ∀ s p g, f (State.updPort s p g) = f s)
    (s : State) (i : Nat) : f (s.zeroSuite i) = f s := by
  unfold State.zeroSuite State.wakeStacks
  rw [foldl_keeps f _ (fun s p => h s _ _), foldl_keeps f _ (fun s w => h s _ _), foldl_keeps f _ (fun s p => w s _ _)]

@[simp] theorem State.zeroSuite_mbox (s : State) (i : Nat) : (s.zeroSuite i).mbox = s.mbox := s.zeroSuite_keeps State.mbox (fun _ _ _ => rfl) (fun _ _ _ => rfl) i

@[simp] theorem State.zeroSuite_suites (s : State) (i : Nat) : (s.zeroSuite i).suites = s.suites := s.zeroSuite_keeps State.suites (fun _ _ _ => rfl) (fun _ _ _ => rfl) i

/-- The content segment changes the ports only. -/
theorem State.writeWindows_keeps {A : Type} (f : State → A) (h : ∀ s a bs, f (s.hbmWrite a bs) = f s) (s : State) (i : Nat) (m : List Byte) (q : BodyMap)
    (b : List Byte) : f (s.writeWindows i m q b) = f s :=
  foldl_keeps (fun a : Nat × State => f a.2) _ (fun _ _ => h _ _ _) _ _

@[simp] theorem State.writeWindows_mbox (s : State) (i : Nat) (m : List Byte) (q : BodyMap) (b : List Byte) :
    (s.writeWindows i m q b).mbox = s.mbox := s.writeWindows_keeps State.mbox State.hbmWrite_mbox i m q b

@[simp] theorem State.writeWindows_suites (s : State) (i : Nat) (m : List Byte) (q : BodyMap) (b : List Byte) :
    (s.writeWindows i m q b).suites = s.suites := s.writeWindows_keeps State.suites State.hbmWrite_suites i m q b

/-- The row streams of a section change the ports only. -/
theorem State.writeRows_keeps {A : Type} (f : State → A) (h : ∀ s a bs, f (s.hbmWrite a bs) = f s) (s : State) (i : Nat) (q : BodyMap) (b : List Byte)
    (k : Nat) (sec : Section) : f (s.writeRows i q b k sec) = f s := by
  unfold State.writeRows
  refine foldl_keeps f _ (fun s c => ?_) _ _
  split
  · rfl
  · exact h _ _ _

@[simp] theorem State.writeRows_mbox (s : State) (i : Nat) (q : BodyMap) (b : List Byte) (k : Nat) (sec : Section) :
    (s.writeRows i q b k sec).mbox = s.mbox := s.writeRows_keeps State.mbox State.hbmWrite_mbox i q b k sec

@[simp] theorem State.openSides_mbox (s : State) (i : Nat) : (s.openSides i).mbox = s.mbox := by
  unfold State.openSides
  refine foldl_keeps State.mbox _ (fun _ _ => ?_) _ _
  rfl

@[simp] theorem State.suitePower_mbox (s : State) (i : Nat) (p : BayState) : (s.suitePower i p).mbox = s.mbox := by
  unfold State.suitePower
  refine foldl_keeps State.mbox _ (fun _ _ => ?_) _ _
  rfl

/-- An applied patch changes the ports only. -/
theorem applyPatch_mbox {i : Nat} {h peers : List Byte} {q : BodyMap} {p : List Byte} {a c : List Byte × State}
    (e : applyPatch i h peers q p a = some c) : c.2.mbox = a.2.mbox := by
  unfold applyPatch at e
  simp only [Option.ite_none_left_eq_some] at e
  obtain ⟨v, -, e⟩ := Option.bind_eq_some_iff.mp e.2
  repeat' split at e
  all_goals first
    | cases e; rfl
    | cases e; exact State.hbmWrite_mbox _ _ _
    | cases e

theorem applyPatches_mbox {i : Nat} {h peers : List Byte} {q : BodyMap} {l : List Nat} {a c : List Byte × State}
    (e : applyPatches i h peers q l a = some c) : c.2.mbox = a.2.mbox := by
  induction l generalizing a with
  | nil => cases e; rfl
  | cons k l ih =>
    obtain ⟨b, hb, e⟩ := Option.bind_eq_some_iff.mp e
    rw [ih e, applyPatch_mbox hb]

@[simp] theorem State.setDevState_mbox (s : State) (d : DeviceState) : (s.setDevState d).mbox = s.mbox := by
  unfold State.setDevState
  split <;> rfl

@[simp] theorem State.settleActive_mbox (s : State) : s.settleActive.mbox = s.mbox := by
  unfold State.settleActive
  split
  · exact State.setDevState_mbox _ _
  · rfl

/-- A suite that becomes LOADED breaks no lease. -/
theorem State.setSuiteState_loaded_mbox (s : State) (i : Nat) : (s.setSuiteState i .loaded).mbox = s.mbox := by
  unfold State.setSuiteState
  split
  · rfl
  · simp only [reduceCtorEq, or_self, false_and, if_false]
    exact State.settleActive_mbox _

/-- A body that loads leaves the mailbox as it was. -/
theorem State.loadBody_mbox {s t : State} {i : Nat} {h m cek cipher peers : List Byte} (e : s.loadBody i h m cek cipher peers = some t) :
    t.mbox = s.mbox := by
  unfold State.loadBody at e
  simp only [] at e
  split at e
  · cases e
  · obtain ⟨b, -, e⟩ := Option.bind_eq_some_iff.mp e
    split at e
    · cases e
    · obtain ⟨p, hp, e⟩ := Option.bind_eq_some_iff.mp e
      obtain ⟨secs, -, e⟩ := Option.bind_eq_some_iff.mp e
      obtain ⟨descs, -, e⟩ := Option.bind_eq_some_iff.mp e
      obtain ⟨rests, -, e⟩ := Option.map_eq_some_iff.mp e
      subst e
      rw [State.suitePower_mbox]
      rw [State.setSuiteState_loaded_mbox]
      refine (State.openSides_mbox _ i).trans ?_
      refine (show ∀ (u : State) (f : Suite → Suite), (u.updSuite i f).mbox = u.mbox from fun _ _ => rfl) _ _ |>.trans ?_
      refine (foldl_keeps State.mbox _ ?_ _ _).trans ?_
      · intro s e
        exact s.writeRows_mbox i _ _ e.1 e.2
      have k := applyPatches_mbox hp
      dsimp only at k
      rw [State.writeWindows_mbox, State.zeroSuite_mbox] at k
      exact k

/-- A load whose checks pass starts: the suite is cleared, and the load is under way (R486 steps 1 and 2). -/
theorem startLoad_starts {s : State} {t : Taken} {i : Nat} {created : Bool} {img h m : List Byte} (parts : imageParts img = some (h, m))
    (checks : checkImage s h m false = 0) (fits : compatible (s.suite i) h m = true) (good : ((suiteBays s i).any fun b => !s.repair.good.getLsbD b) = false)
    (noPeer : hNpeer h = 0) :
    startLoad s t i created img =
      (0, ({ s.clearForLoad i h m with mbox := { (s.clearForLoad i h m).mbox with load := some ⟨t.ticket, i, created, h, m, (contentKey s.keys h).getD []⟩ } }
        : State).keepRunning t) := by
  simp only [startLoad, parts, checks, fits, good, noPeer]
  simp

/-- A load whose body has no fault, and which stores nothing, answers OK with the state its body left. -/
theorem loadInto_loads {s t : State} {r : LoadRun} {len : Nat} {img : List Byte} {peers : HostRead} (noPeer : hNpeer r.header = 0)
    (size : 1024 + r.manifest.length + leAt r.header 144 8 ≤ img.length)
    (body : s.loadBody r.suite r.header r.manifest r.cek (img.drop (1024 + r.manifest.length)) (peers.getD []) = some t) :
    loadInto s r img len peers false = (0, none, t) := by
  have c : ¬ img.length < min (1024 + r.manifest.length + leAt r.header 144 8) len := by omega
  simp only [loadInto, noPeer, body, c]
  simp

end Sys2Proof.Machine
end

