-- ==== Sys2Proof/WellFormed.lean ====
section
/-!
DEFINITION. Which commands are well formed: operands that the types of Syntax leave too wide. The machine answers an ill-formed command too;
no statement needs well-formedness.
-/

namespace Sys2Proof

/-- A host access lies inside its function's BAR (Table 14.1). -/
def accessWf (f : HostFn) (off : Nat) : Bool := decide (off < Machine.barSize f)

/-- What the device read is whole: a command entry has 64 bytes (Table 14.8). -/
def entryWf (r : HostRead) : Bool := r.all (fun l => l.length == 64)

/-- Well-formed commands: a track that the cell has (R255, R256), a BAR offset inside the BAR (R496, R499), a whole command entry (R503), a
capability block with five credit counts (R446), a GC_CTL write that carries its bit (Table 12.9), and a fault of THERMTRIP or its rearming at
a junction temperature that calls for it (R539). -/
def Instr.wf (i : Instr) : Bool :=
  match i with
  | .flitReceive c port track _ => Machine.hasTrack false c.val (4 * port.val + track.val)
  | .registerWrite f off _ => accessWf f off
  | .rcFieldRead f off => accessWf f off
  | .unmappedAccess f off _ => accessWf f off
  | .apertureHbmAccess f off _ => accessWf f off
  | .commandFetch _ e => entryWf e
  | .negotiate _ cap => cap.credits.length == 5
  | .gcCtlTrain _ _ v => v.getLsbD 63
  | .gcCtlDown _ _ v => v.getLsbD 62
  | .thermtrip tj => decide (115 ≤ tj.toNat)
  | .thermtripRearm tj => decide (tj.toNat < 95)
  | _ => true

end Sys2Proof
end

