-- ==== Sys2Proof/Tests/Slice0.lean ====
section
/-!
SUPPORT. The model's own tests: witnesses that the hypotheses of the obligations can be met, ill-formed commands that WellFormed refuses,
and a few effects on small states, with values worked out by hand from the spec.
-/

namespace Sys2Proof.Tests

open Sys2Proof.Machine

set_option Elab.async false

/-! ### Small states -/

/-- An instruction word (Table 2.7). -/
def word (op d s1 s2 n flags eng : Nat) : BitVec 128 :=
  BitVec.ofNat 128 (eng + 2 ^ 24 * flags + 2 ^ 32 * n + 2 ^ 48 * s2 + 2 ^ 72 * s1 + 2 ^ 96 * d + 2 ^ 120 * op)

/-- A configuration store with some instructions from address 0 on, and constant words. -/
def store (ws : List (BitVec 128)) (consts : List (Nat × W32)) : Machine.Config :=
  let x := ws.zipIdx.foldl (fun (x : Cell) w => (List.range 4).foldl (fun (x : Cell) k => x.putCfg (4 * w.2 + k) (fld w.1 (32 * k) 32)) x) {}
  (consts.foldl (fun (x : Cell) k => x.putCfg (0xE80 + k.1) k.2) x).cfg

/-- A RUNNING cell of suite 0 with a program. -/
def cellWith (ws : List (BitVec 128)) (consts : List (Nat × W32)) : Cell :=
  { state := .running, suite := some 0, cfg := store ws consts, seq := { checked := 4 } }

/-- A RUNNING suite in an open, recoverable section that is not final. -/
def suite0 : Suite := { state := .running, sections := [⟨0, false, true, 0, 0, 0, 0⟩], feeder := { isOpen := true } }

/-- The part with suite 0 RUNNING in bay 0, which is ON, and cell 0 given. -/
def runningPart (x : Cell) : State :=
  { State.reset with
    devState := .active, power := { vin12Good := true, vin48Good := true, linkUp := true }
    cells := [(0, x)], suites := [(0, suite0)], bays := [(0, { owner := some 0, power := .on, lock := true })] }

/-- The part with a cell whose main context is at one instruction. -/
def oneInstr (w : BitVec 128) : State := runningPart (cellWith [w] [])

/-- VADD of 32 FP32 elements, pane 1 from panes 2 and 3, with SEAL. -/
def vaddWord : BitVec 128 := word 0x40 0x1000 0x2000 0x3000 32 0x80 0

/-- The part with a cell in which a handler runs one instruction in the cycles of an OPEN slot. -/
def handles (w : BitVec 128) : State :=
  let x := cellWith [w] []
  runningPart { x with seq := { x.seq with openNop := some ⟨0, 16, 0xFF, 16⟩, handler := some ⟨0, 0, 8, 1, 0, 0⟩ } }

/-- A cell in schedule cycle t whose main context issued an instruction in cycle 0. -/
def queued (e : Engine) (w : BitVec 128) (n t : Nat) (consts : List (Nat × W32)) : Cell :=
  let x := cellWith [w] consts
  let y : Cell := { x with eng := x.eng.setQueue e [mkIssued x .main w 0 n false none] }
  { y with seq := { y.seq with cyc := t, pc := 1, ready := t, seqNo := 1 } }

/-- A cell in schedule cycle t with an instruction that started in cycle 4, reads last in cycle 5 and ends in cycle 9. -/
def flying (t : Nat) : Cell :=
  let x := queued .vector vaddWord 32 t []
  { x with eng := { inflight := x.eng.vectorQ.map (fun i => { instr := i, engine := .vector, start := 4, lastRead := 5, done := 9 }) }
           tags := [(2, .full), (3, .full)], pendSeal := [(1, 0)] }

/-- A cell with a landing zone of panes 4 and 5, whose WAIT for 3 strips is next. -/
def zoned (v : Zone) : Cell :=
  let x := cellWith [word 4 0 0 0 3 0 0] []
  { x with zones := [(0, { v with valid := true, pane := 4, count := 2 })] }


/-- A command taken with no parameters. -/
def tk0 : Taken := ⟨5, .pf, 0, false, 7, 1, [], false, false, none⟩

/-- The first command taken. -/
def ticketOf (s : State) : Taken := s.mbox.taken.headD tk0

/-- The oldest instruction in flight in cell 0. -/
def flight (s : State) : InFlight :=
  ((s.cell 0).eng.inflight.head?).getD { instr := mkIssued {} .main 0 0 0 false none, engine := .vector, start := 0, lastRead := 0, done := 0 }

/-! ### Cell instructions at issue, handlers and completion -/

namespace Issue

def ws : List (BitVec 128) := [word 0 0 0 0 1 0 0, word 0 0 0 0 2 0x10 0xFF0004, word 0 0 0 0 0 0x20 0, word 1 0 0 0 2 0 0, word 3 0 0 0 4 0 0, word 7 0 0 0 0 0 5,
  word 5 0x3000 0 0 2 0 0, word 6 0x2000 0 0 1 0 0, word 8 0 0 0 0 0 0, word 9 0 0 0 0 0 0, vaddWord, word 0x40 0x1000 0x2000 0x3000 32 0xE0 0, word 0x9D 0 0 0 0 0 0x200,
  word 0x20 0 0 0 0 0 0xFF, word 0x98 0 0x800000 0 0 0 8, word 0xB1 0 0 0 0 0 1, word 0x80 0x800000 0x3000 0 32 0 0,word 0xFF 0 0 0 0 0 0]

def hws : List (BitVec 128) := [word 0 0 0 0 1 0 0, word 5 0x3000 0 0 2 0 0, word 6 0x2000 0 0 1 0 0,word 9 0 0 0 0 0 0,word 0x9D 0 0 0 0 0 0x200, word 0x98 0 0x800000 0 0 0 8, word 0xB1 0 0 0 0 0 1,
  word 0x9A 0x803000 0 0 0 0 0, word 0x9A 0x803000 0 0 0 0x80 0]

def tagd (s : State) : State := s.updCell 0 (fun x => { x with tags := [(2,.full),(3,.full)] })

/-- The hypotheses of O3 are met. -/
theorem witness_NoCommandStopsTheBlockOrLosesTheQueue :
    (∃ (i : Instr) (s : State) (t : State),
      exec i s = .next t) ∧
    (∃ (i : Instr),
      hostOffset i = none) ∧
    (∃ (i : Instr) (f : HostFn) (off : Nat),
      hostOffset i = some (f, off) ∧
      barSize f ≤ off) ∧
    (∃ (i : Instr) (f : HostFn) (off : Nat),
      hostOffset i = some (f, off) ∧
      off < barSize f) :=
  ⟨⟨.nop 0 .main, State.reset, State.reset, rfl⟩,
   ⟨(Instr.nop 0 (Ctx.main)), by decide +kernel⟩,
   ⟨.registerWrite .pf (barSize .pf) 0, .pf, barSize .pf, ⟨rfl, Nat.le_refl _⟩⟩,
   ⟨.registerWrite .pf 0x78 0, .pf, 0x78, ⟨rfl, by decide +kernel⟩⟩⟩

/-- The hypotheses of O4 are met. -/
theorem witness_EngineInstructionEntersItsQueue :
    (∃ (i : Instr) (op : Nat) (c : CellId) (s : State) (e : Engine),
      (opcodeOf i = some (op, c, .main) ∨ ∃ k, zctlOf i = some (k, c, .main) ∧ op = 0x9D ∧ wE (nextWord s c) 8 3 = k) ∧
      mayIssue s c op ∧
      (opInfo (nextWord s c)).bind (·.unit) = some e) :=
  ⟨(Instr.vadd 0 (Ctx.main)), 64, 0, oneInstr vaddWord, Engine.vector, ⟨Or.inl rfl, by unfold mayIssue; decide +kernel, by decide +kernel⟩⟩

/-- The hypotheses of O5 are met. -/
theorem witness_SequencingInstructionsTakeEffectAtIssue :
    (∃ (c : CellId) (s : State),
      mayIssue s c 0x00) ∧
    (∃ (c : CellId) (s : State),
      mayIssue s c 0x01) ∧
    (∃ (c : CellId) (s : State),
      mayIssue s c 0x03) ∧
    (∃ (c : CellId) (s : State),
      mayIssue s c 0x07) ∧
    (∃ (c : CellId) (s : State) (outer : List Loop) (l : Loop),
      let x := s.cell c
      mayIssue s c 0x02 ∧
      x.seq.loops = outer ++ [l]) :=
  ⟨⟨0, ((ws.map oneInstr).getD 0 State.reset), by unfold mayIssue; decide +kernel⟩,
   ⟨0, ((ws.map oneInstr).getD 3 State.reset), by unfold mayIssue; decide +kernel⟩,
   ⟨0, ((ws.map oneInstr).getD 4 State.reset), by unfold mayIssue; decide +kernel⟩,
   ⟨0, ((ws.map oneInstr).getD 5 State.reset), by unfold mayIssue; decide +kernel⟩,
   ⟨0, (runningPart { cellWith [word 2 0 0 0 0 0 0] [] with seq := { checked := 4, loops := [⟨0,3⟩]} }), [], ({ body := 0, counter := 3 }), by unfold mayIssue; decide +kernel⟩⟩

/-- The hypotheses of O6 are met. -/
theorem witness_WaitTakesTheLandingThreshold :
    (∃ (c : CellId) (s : State),
      mayIssue s c 0x04) :=
  ⟨0, (runningPart (zoned {landed := 2, provLanded := 5})), by unfold mayIssue; decide +kernel⟩

/-- The hypotheses of O7 are met. -/
theorem witness_SealAndReleaseFollowTheTagTable :
    (∃ (c : CellId) (s : State),
      mayIssue s c 0x05) ∧
    (∃ (c : CellId) (s : State),
      mayIssue s c 0x06) :=
  ⟨⟨0, ((ws.map oneInstr).getD 6 State.reset), by unfold mayIssue; decide +kernel⟩,
   ⟨0, ((ws.map oneInstr).getD 7 State.reset), by unfold mayIssue; decide +kernel⟩⟩

/-- The hypotheses of O8 are met. -/
theorem witness_DrydownAndHaltEndIssue :
    (∃ (c : CellId) (s : State),
      mayIssue s c 0x08) ∧
    (∃ (c : CellId) (s : State),
      mayIssue s c 0x09) :=
  ⟨⟨0, ((ws.map oneInstr).getD 8 State.reset), by unfold mayIssue; decide +kernel⟩,
   ⟨0, ((ws.map oneInstr).getD 9 State.reset), by unfold mayIssue; decide +kernel⟩⟩

/-- The hypotheses of O9 are met. -/
theorem witness_HandlerInstructionIssuesInAnOpenSlot :
    (∃ (i : Instr) (op : Nat) (c : CellId) (s : State) (h : Handler),
      (opcodeOf i = some (op, c, .handler) ∨ ∃ k, zctlOf i = some (k, c, .handler) ∧ op = 0x9D ∧ wE ((s.cell c).instr h.pc) 8 3 = k) ∧
      mayIssueHandler s c op h) :=
  ⟨(Instr.release 0 (Ctx.handler)), 6, 0, ((hws.map (fun w => tagd (handles w))).getD 2 State.reset), ({ pc := 0, issued := 0, maxLen := 8, vl := 1, ready := 0, queue := 0 }), ⟨Or.inl rfl, by unfold mayIssueHandler; refine ⟨?_, ?_, ?_, ?_, ?_, ?_, ?_, ?_, ?_, ?_, ?_, ⟨0xFF, 16, ?_⟩, ?_, ?_⟩ <;> decide +kernel⟩⟩

/-- The hypotheses of O10 are met. -/
theorem witness_IllegalOpcodeFaultsTheCellAndIsReported :
    (∃ (i : Instr) (op : Nat) (c : CellId) (s : State),
      let x := s.cell c
      opcodeOf i = some (op, c, .main) ∧
      (s.runningSuite x).isSome = true ∧
      x.seq.ready ≤ x.seq.cyc ∧
      mainReady s x = true ∧
      s.faultsNow c = false ∧
      x.parity = none ∧
      x.seq.pc ≤ 511 ∧
      x.instrBad x.seq.pc = none ∧
      opInfo (nextWord s c) = none) ∧
    (∃ (s : State) (c : Nat),
      (s.cell c).state = .faulted) ∧
    (∃ (s : State) (c : Nat) (i : Nat),
      (s.cell c).state ≠ .faulted ∧
      cellSuite (s.cell c) = some i) :=
  ⟨⟨(Instr.nop 0 (Ctx.main)), 0, 0, ((ws.map oneInstr).getD 17 State.reset), by decide +kernel⟩,
   ⟨(runningPart { cellWith [vaddWord] [] with state := .faulted }), 0, by decide +kernel⟩,
   ⟨((ws.map oneInstr).getD 0 State.reset), 0, 0, by decide +kernel⟩⟩

/-- The hypotheses of O13 are met. -/
theorem witness_CompletionSealsAndClearsMarks :
    (∃ (s : State) (c : CellId) (e : Engine) (f : InFlight) (u : _),
      let x := s.cell c
      let i := f.instr
      let t := x.seq.cyc
      f ∈ x.eng.inflight ∧
      f.cut = none ∧
      i.dsts.Nodup ∧
      i.srcs.Nodup ∧
      x.eng.inflight.find? (fun g => g.engine == e) = some f ∧
      s.runningSuite x = some u ∧
      x.clocked = true ∧
      t ≤ f.done) ∧
    (∃ (s : State) (c : CellId) (f : InFlight),
      let x := s.cell c
      let i := f.instr
      f ∈ x.eng.inflight ∧
      f.cut = none ∧
      i.dsts.Nodup ∧
      i.srcs.Nodup) ∧
    (∃ (s : State) (c : CellId) (f : InFlight),
      let x := s.cell c
      let i := f.instr
      f ∈ x.eng.inflight ∧
      f.cut = none ∧
      i.dsts.Nodup ∧
      i.srcs.Nodup) :=
  ⟨⟨(runningPart (flying 5)), 0, Engine.vector, flight (runningPart (flying 9)), ((runningPart (flying 5))).suite 0, by decide +kernel⟩,
   ⟨(runningPart (flying 5)), 0, (flight (runningPart (flying 5))), by decide +kernel⟩,
   ⟨(runningPart (flying 5)), 0, (flight (runningPart (flying 5))), by decide +kernel⟩⟩

end Issue

/-! ### Engines, scratchpad, check point, scrubbers and zones -/

namespace Engines

def qst (e : Engine) (w : BitVec 128) (n t : Nat) (cs : List (Nat × W32)) : State := runningPart (let x := queued e w n t cs; { x with tags := [(2,.full),(3,.full)] })

def hst : State :=
  let x := cellWith [word 0 0 0 0 1 0 0] []
  let x := (((x.putCfg 0xA00 3).putCfg 0xE00 0x08000001).putCfg 0xE01 4).putCfg 0xA01 0x00000000
  runningPart { x with cfg := { x.cfg with queueValid := [0] }, que := ({} : Queues).store 0 5 |>.setLive 0 { count := 1, tail := 0 }, seq := { x.seq with dispatch := [(0,3,0)] } }

def scr : State := runningPart { cellWith [] [] with scrub := [(0, { backs := [(8, 77)] })] }

def fly2 (t : Nat) : Cell :=
  let x := flying t
  { x with eng := { x.eng with inflight := x.eng.inflight.map (fun f =>
      let p := planOf x 0 f
      { f with reads := p.reads, slots := p.slots, sends := p.sends, takes := p.takes, lastRead := p.lastRead, done := p.done, got := (List.range p.reads.length).map (fun k => (k, List.replicate 128 5)) }) } }

def msgc (n : Nat) : State := runningPart { queued .moveSend (word 0x98 0 0x800000 0 0 0 8) 0 5 [] with mem := [(19, 1)], check := [(4, checkOf 0x01000000)], trk := { outbound := List.replicate n (.msg 0) } }

def offd : State := { State.reset with cells := [(0, { (zoned { landed := 7, provLanded := 5, notices := [⟨true, true, 3200⟩] }) with state := .idle })] }

def reading : State := runningPart (let x := flying 4; { x with eng := { x.eng with inflight := x.eng.inflight.map (fun f => { f with reads := [(4, List.range 128)] }) } })

def oldestMove (s : State) : Issued := ((s.cell 0).eng.moveQ.head?).getD (mkIssued {} .main 0 0 0 false none)

/-- The hypotheses of O11 are met. -/
theorem witness_EnginesStartTheHeadOfTheirQueue :
    (∃ (c : CellId) (s : State) (i : Issued) (r : List Issued),
      let x := s.cell c
      let t := x.seq.cyc
      (s.runningSuite x).isSome = true ∧
      x.clocked = true ∧
      (∀ g ∈ x.eng.inflight, g.instr.seqNo ≠ i.seqNo ∧ g.takes.contains t = false) ∧
      x.eng.matrixQ = i :: r ∧
      max (i.cycle + 1) (matStart x.mat i) ≤ t) ∧
    (∃ (c : CellId) (s : State) (i : Issued) (r : List Issued),
      let x := s.cell c
      let t := x.seq.cyc
      let now := fun (e : Engine) (free : Nat) => (∃ k, chainStart x e i = some k ∧ max (max (i.cycle + 1) free) (max (ownWrites x e i) k) ≤ t) ∧ ∀ p, i.chainedIn = some p → chainNeed (flightOf i e t) ≤ (chainOf (x.eng.pathTo e) p).length
      (s.runningSuite x).isSome = true ∧
      x.clocked = true ∧
      (∀ g ∈ x.eng.inflight, g.instr.seqNo ≠ i.seqNo ∧ g.takes.contains t = false) ∧
      x.eng.vectorQ = i :: r ∧
      now .vector x.eng.vectorFree) ∧
    (∃ (c : CellId) (s : State) (i : Issued) (r : List Issued),
      let x := s.cell c
      let t := x.seq.cyc
      let now := fun (e : Engine) (free : Nat) => (∃ k, chainStart x e i = some k ∧ max (max (i.cycle + 1) free) (max (ownWrites x e i) k) ≤ t) ∧ ∀ p, i.chainedIn = some p → chainNeed (flightOf i e t) ≤ (chainOf (x.eng.pathTo e) p).length
      (s.runningSuite x).isSome = true ∧
      x.clocked = true ∧
      (∀ g ∈ x.eng.inflight, g.instr.seqNo ≠ i.seqNo ∧ g.takes.contains t = false) ∧
      x.eng.reductionQ = i :: r ∧
      now .reduction x.eng.reductionFree) ∧
    (∃ (c : CellId) (s : State) (i : Issued) (r : List Issued),
      let x := s.cell c
      let t := x.seq.cyc
      let now := fun (e : Engine) (free : Nat) => (∃ k, chainStart x e i = some k ∧ max (max (i.cycle + 1) free) (max (ownWrites x e i) k) ≤ t) ∧ ∀ p, i.chainedIn = some p → chainNeed (flightOf i e t) ≤ (chainOf (x.eng.pathTo e) p).length
      (s.runningSuite x).isSome = true ∧
      x.clocked = true ∧
      (∀ g ∈ x.eng.inflight, g.instr.seqNo ≠ i.seqNo ∧ g.takes.contains t = false) ∧
      x.eng.moveQ = i :: r ∧
      wOp i.word ∈ [0x90, 0x91, 0x92, 0x93, 0x99, 0x9A] ∧
      now .moveSend x.eng.moveFree) ∧
    (∃ (c : CellId) (s : State) (i : Issued) (r : List Issued),
      let x := s.cell c
      let t := x.seq.cyc
      let now := fun (e : Engine) (free : Nat) => (∃ k, chainStart x e i = some k ∧ max (max (i.cycle + 1) free) (max (ownWrites x e i) k) ≤ t) ∧ ∀ p, i.chainedIn = some p → chainNeed (flightOf i e t) ≤ (chainOf (x.eng.pathTo e) p).length
      (s.runningSuite x).isSome = true ∧
      x.clocked = true ∧
      (∀ g ∈ x.eng.inflight, g.instr.seqNo ≠ i.seqNo ∧ g.takes.contains t = false) ∧
      x.eng.counterQ = i :: r ∧
      now .counter x.eng.counterFree) :=
  ⟨⟨0, (qst .matrix (word 0x20 0 0 0 0 0 3) 0 5 []), ({ word := 0x20000000000000000000000000000003#128, ctx := Ctx.main, pc := 0, cycle := 0, seqNo := 0, mode := 0x0#4, n := 0, prov := false, chainedIn := none, consts := [0, 0, 0, 0, 0, 0, 0], loops := [], depth := 0, srcs := [], dsts := [], wall := 0, heldAt := 0 }), [], by decide +kernel⟩,
   ⟨0, (qst .vector vaddWord 32 5 []), ({ word := 0x40001000002000003000002080000000#128, ctx := Ctx.main, pc := 0, cycle := 0, seqNo := 0, mode := 0x0#4, n := 32, prov := false, chainedIn := none, consts := [0, 0, 0, 0, 0, 0, 0], loops := [], depth := 0, srcs := [2, 3], dsts := [1], wall := 0, heldAt := 0 }), [], by decide +kernel⟩,
   ⟨0, (qst .reduction (word 0x80 0x800000 0x3000 0 32 0 0) 32 5 []), ({ word := 0x80800000003000000000002000000000#128, ctx := Ctx.main, pc := 0, cycle := 0, seqNo := 0, mode := 0x0#4, n := 32, prov := false, chainedIn := none, consts := [0, 0, 0, 0, 0, 0, 0], loops := [], depth := 0, srcs := [3], dsts := [0], wall := 0, heldAt := 0 }), [], by decide +kernel⟩,
   ⟨0, (qst .moveSend (word 0x90 0x1000 0x2000 0 2 0 0) 2 5 []), ({ word := 0x90001000002000000000000200000000#128, ctx := Ctx.main, pc := 0, cycle := 0, seqNo := 0, mode := 0x0#4, n := 2, prov := false, chainedIn := none, consts := [0, 0, 0, 0, 0, 0, 0], loops := [], depth := 0, srcs := [2], dsts := [1], wall := 0, heldAt := 0 }), [], by decide +kernel⟩,
   ⟨0, (qst .counter (word 0xB0 0x801000 0 0 0 0 3) 0 5 []), ({ word := 0xb0801000000000000000000000000003#128, ctx := Ctx.main, pc := 0, cycle := 0, seqNo := 0, mode := 0x0#4, n := 0, prov := false, chainedIn := none, consts := [0, 0, 0, 0, 0, 0, 0], loops := [], depth := 0, srcs := [], dsts := [1], wall := 0, heldAt := 0 }), [], by decide +kernel⟩⟩

/-- The hypotheses of O12 are met. -/
theorem witness_StartedInstructionReadsAndWrites :
    (∃ (s : State) (c : Nat) (f : InFlight) (d : Found) (k : Nat) (t : Nat) (as : List Nat),
      let x := s.cell c
      x.eng.inflight = [f] ∧
      f.cut = none ∧
      d.s = s ∧
      f.reads[k]? = some (t, as) ∧
      (∀ j, j ≠ k → (f.reads[j]?).map (·.1) ≠ some t)) ∧
    (∃ (s : State) (c : Nat) (f : InFlight) (d : Found) (w : _),
      let x := s.cell c
      x.eng.inflight = [f] ∧
      f.cut = none ∧
      d.s = s ∧
      f.slots = [w] ∧
      mergingWords w = [] ∧
      w.addrs.Nodup ∧
      firstPane w.addrs (marked x.pendRelease f.instr.seqNo) = none) :=
  ⟨⟨reading, 0, flight reading, { s := reading }, 0, 4, List.range 128, by decide +kernel, by decide +kernel, rfl, by decide +kernel, fun j h => by
     cases j with
     | zero => exact absurd rfl h
     | succ j => exact nofun⟩,
   ⟨(runningPart (fly2 4)), 0, flight ((runningPart (fly2 4))), ({ s := (runningPart (fly2 4)) } : Found), (flight ((runningPart (fly2 4)))).slots.headD ⟨0, [], false⟩, by decide +kernel⟩⟩

/-- The hypotheses of O14 are met. -/
theorem witness_BytesWrittenAreReadBack :
    (∃ (x : Cell) (bs : List (Nat × Byte)) (e : _),
      Memory.wf x.mem = true ∧
      Memory.wf x.check = true ∧
      (bs.map (·.1)).Nodup ∧
      (∀ e ∈ bs, x.readWord (e.1 / 4 * 4) ≠ .uncorrectable) ∧
      e ∈ bs) ∧
    (∃ (x : Cell) (bs : List (Nat × Byte)) (e : _),
      Memory.wf x.mem = true ∧
      Memory.wf x.check = true ∧
      (bs.map (·.1)).Nodup ∧
      (∀ e ∈ bs, x.readWord (e.1 / 4 * 4) ≠ .uncorrectable) ∧
      e ∈ bs) ∧
    (∃ (x : Cell) (bs : List (Nat × Byte)) (a : _),
      Memory.wf x.mem = true ∧
      Memory.wf x.check = true ∧
      (bs.map (·.1)).Nodup ∧
      (∀ e ∈ bs, x.readWord (e.1 / 4 * 4) ≠ .uncorrectable) ∧
      (∀ e ∈ bs, e.1 / 4 ≠ a / 4)) ∧
    (∃ (x : Cell) (bs : List (Nat × Byte)),
      Memory.wf x.mem = true ∧
      Memory.wf x.check = true ∧
      (bs.map (·.1)).Nodup ∧
      (∀ e ∈ bs, x.readWord (e.1 / 4 * 4) ≠ .uncorrectable)) ∧
    (∃ (x : Cell) (bs : List (Nat × Byte)),
      Memory.wf x.mem = true ∧
      Memory.wf x.check = true ∧
      (bs.map (·.1)).Nodup ∧
      (∀ e ∈ bs, x.readWord (e.1 / 4 * 4) ≠ .uncorrectable)) ∧
    (∃ (x : Cell) (bs : List (Nat × Byte)),
      Memory.wf x.mem = true ∧
      Memory.wf x.check = true ∧
      (bs.map (·.1)).Nodup ∧
      (∀ e ∈ bs, x.readWord (e.1 / 4 * 4) ≠ .uncorrectable)) ∧
    (∃ (x : Cell) (bs : List (Nat × Byte)),
      Memory.wf x.mem = true ∧
      Memory.wf x.check = true ∧
      (bs.map (·.1)).Nodup ∧
      (∀ e ∈ bs, x.readWord (e.1 / 4 * 4) ≠ .uncorrectable)) :=
  ⟨⟨({ mem := [(0, 1), (5, 2)], check := [(0, checkOf 1), (1, checkOf 0x200)] } : Cell), ([(0, 0x0#8)]), (0, 0x0#8), by decide +kernel⟩,
   ⟨({ mem := [(0, 1), (5, 2)], check := [(0, checkOf 1), (1, checkOf 0x200)] } : Cell), ([(0, 0x0#8)]), (0, 0x0#8), by decide +kernel⟩,
   ⟨({ mem := [(0, 1), (5, 2)], check := [(0, checkOf 1), (1, checkOf 0x200)] } : Cell), [], 0, by decide +kernel⟩,
   ⟨({ mem := [(0, 1), (5, 2)], check := [(0, checkOf 1), (1, checkOf 0x200)] } : Cell), [], by decide +kernel⟩,
   ⟨({ mem := [(0, 1), (5, 2)], check := [(0, checkOf 1), (1, checkOf 0x200)] } : Cell), [], by decide +kernel⟩,
   ⟨({ mem := [(0, 1), (5, 2)], check := [(0, checkOf 1), (1, checkOf 0x200)] } : Cell), [], by decide +kernel⟩,
   ⟨({ mem := [(0, 1), (5, 2)], check := [(0, checkOf 1), (1, checkOf 0x200)] } : Cell), [], by decide +kernel⟩⟩

/-- The hypotheses of O16 are met. -/
theorem witness_MessageInstructionsUseTheirBuffers :
    (∃ (c : CellId) (s : State) (i : Issued) (r : List Issued),
      let x := s.cell c
      let t := x.seq.cyc
      let off := (x.trk.outbound.length < 4 : Prop)
      (s.runningSuite x).isSome = true ∧
      x.clocked = true ∧
      x.eng.moveQ = i :: r ∧
      i.chainedIn = none ∧
      x.eng.inflight = [] ∧
      max (i.cycle + 1) x.eng.moveFree ≤ t ∧
      wOp i.word = 0x9C ∧
      off) ∧
    (∃ (c : CellId) (s : State) (i : Issued) (r : List Issued),
      let x := s.cell c
      let t := x.seq.cyc
      let off := (x.trk.outbound.length < 4 : Prop)
      (s.runningSuite x).isSome = true ∧
      x.clocked = true ∧
      x.eng.moveQ = i :: r ∧
      i.chainedIn = none ∧
      x.eng.inflight = [] ∧
      max (i.cycle + 1) x.eng.moveFree ≤ t ∧
      wOp i.word = 0x9C ∧
      ¬ off) ∧
    (∃ (c : CellId) (s : State) (i : Issued) (r : List Issued),
      let x := s.cell c
      let t := x.seq.cyc
      let off := (x.trk.outbound.length < 4 : Prop)
      let m := msgOf s c ((List.range 32).map (fun k => (x.readWords ((List.range 8).map (fun j => 4 * j + oAddr (wS1 i.word)))).byte (k + oAddr (wS1 i.word))))
      (s.runningSuite x).isSome = true ∧
      x.clocked = true ∧
      x.eng.moveQ = i :: r ∧
      i.chainedIn = none ∧
      x.eng.inflight = [] ∧
      max (i.cycle + 1) x.eng.moveFree ≤ t ∧
      wOp i.word = 0x98 ∧
      wE i.word 3 1 = 1 ∧
      mDstPart m ≠ s.part.toNat ∧
      tokenTarget s m = none ∧
      off) ∧
    (∃ (c : CellId) (s : State) (i : Issued) (r : List Issued),
      let x := s.cell c
      let t := x.seq.cyc
      let off := (x.trk.outbound.length < 4 : Prop)
      let m := msgOf s c ((List.range 32).map (fun k => (x.readWords ((List.range 8).map (fun j => 4 * j + oAddr (wS1 i.word)))).byte (k + oAddr (wS1 i.word))))
      (s.runningSuite x).isSome = true ∧
      x.clocked = true ∧
      x.eng.moveQ = i :: r ∧
      i.chainedIn = none ∧
      x.eng.inflight = [] ∧
      max (i.cycle + 1) x.eng.moveFree ≤ t ∧
      wOp i.word = 0x98 ∧
      wE i.word 3 1 = 1 ∧
      mDstPart m ≠ s.part.toNat ∧
      tokenTarget s m = none ∧
      ¬ off) ∧
    (∃ (c : CellId) (s : State) (i : Issued) (r : List Issued) (f : InFlight),
      let x := s.cell c
      let t := x.seq.cyc
      (s.runningSuite x).isSome = true ∧
      x.clocked = true ∧
      x.eng.moveQ = i :: r ∧
      i.chainedIn = none ∧
      x.eng.inflight = [] ∧
      max (i.cycle + 1) x.eng.moveFree ≤ t ∧
      f.engine = .moveSend ∧
      f.instr = i ∧
      f.sends = [] ∧
      f.cut = none ∧
      f.done = t ∧
      wOp i.word = 0x9C) ∧
    (∃ (c : CellId) (s : State) (i : Issued) (r : List Issued) (f : InFlight),
      let x := s.cell c
      let t := x.seq.cyc
      (s.runningSuite x).isSome = true ∧
      x.clocked = true ∧
      x.eng.moveQ = i :: r ∧
      i.chainedIn = none ∧
      x.eng.inflight = [] ∧
      max (i.cycle + 1) x.eng.moveFree ≤ t ∧
      f.engine = .moveSend ∧
      f.instr = i ∧
      f.sends = [] ∧
      f.cut = none ∧
      f.done = t ∧
      wOp i.word = 0x98 ∧
      wE i.word 3 1 = 1 ∧
      byRouter s c (msgOf s c f.data.flatten) = false) ∧
    (∃ (c : CellId) (s : State) (i : Issued) (r : List Issued),
      let x := s.cell c
      let t := x.seq.cyc
      (s.runningSuite x).isSome = true ∧
      x.clocked = true ∧
      x.eng.moveQ = i :: r ∧
      i.chainedIn = none ∧
      x.eng.inflight = [] ∧
      max (i.cycle + 1) x.eng.moveFree ≤ t ∧
      wOp i.word = 0x9D ∧
      x.state = .running ∧
      (wE i.word 8 3 = 2 ∨ wE i.word 8 3 = 3)) ∧
    (∃ (c : CellId) (s : State) (i : Issued) (r : List Issued),
      let x := s.cell c
      let t := x.seq.cyc
      (s.runningSuite x).isSome = true ∧
      x.clocked = true ∧
      x.eng.moveQ = i :: r ∧
      i.chainedIn = none ∧
      x.eng.inflight = [] ∧
      max (i.cycle + 1) x.eng.moveFree ≤ t ∧
      wOp i.word = 0x9D ∧
      x.state = .running ∧
      (wE i.word 8 3 = 4 ∨ wE i.word 8 3 = 5)) ∧
    (∃ (c : CellId) (s : State) (i : Issued) (r : List Issued),
      let x := s.cell c
      let t := x.seq.cyc
      let z := wE i.word 0 6
      (s.runningSuite x).isSome = true ∧
      x.clocked = true ∧
      x.eng.moveQ = i :: r ∧
      i.chainedIn = none ∧
      x.eng.inflight = [] ∧
      max (i.cycle + 1) x.eng.moveFree ≤ t ∧
      wOp i.word = 0x9D ∧
      x.state = .running ∧
      wE i.word 8 3 = 1 ∧
      (x.zone z).mode = false) :=
  ⟨⟨0, (qst .moveSend (word 0x9C 0 (0xE00000+5) 0 0 0 0) 0 5 [(5, 7)]), ({ word := 0x9c000000e00005000000000000000000#128, ctx := Ctx.main, pc := 0, cycle := 0, seqNo := 0, mode := 0x0#4, n := 0, prov := false, chainedIn := none, consts := [7, 0, 0, 0, 0, 0, 0], loops := [], depth := 0, srcs := [], dsts := [], wall := 0, heldAt := 0 }), [], by decide +kernel⟩,
   ⟨0, ((qst .moveSend (word 0x9C 0 (0xE00000+5) 0 0 0 0) 0 5 [(5, 7)]).updCell 0 (fun x => { x with trk := { x.trk with outbound := List.replicate 4 (.msg 0) } })), ({ word := 0x9c000000e00005000000000000000000#128, ctx := Ctx.main, pc := 0, cycle := 0, seqNo := 0, mode := 0x0#4, n := 0, prov := false, chainedIn := none, consts := [7, 0, 0, 0, 0, 0, 0], loops := [], depth := 0, srcs := [], dsts := [], wall := 0, heldAt := 0 }), [], by decide +kernel⟩,
   ⟨0, (msgc 0), ({ word := 0x98000000800000000000000000000008#128, ctx := Ctx.main, pc := 0, cycle := 0, seqNo := 0, mode := 0x0#4, n := 0, prov := false, chainedIn := none, consts := [0, 0, 0, 0, 0, 0, 0], loops := [], depth := 0, srcs := [0], dsts := [], wall := 0, heldAt := 0 }), [], by decide +kernel⟩,
   ⟨0, (msgc 4), ({ word := 0x98000000800000000000000000000008#128, ctx := Ctx.main, pc := 0, cycle := 0, seqNo := 0, mode := 0x0#4, n := 0, prov := false, chainedIn := none, consts := [0, 0, 0, 0, 0, 0, 0], loops := [], depth := 0, srcs := [0], dsts := [], wall := 0, heldAt := 0 }), [], by decide +kernel⟩,
   ⟨0, (qst .moveSend (word 0x9C 0 (0xE00000+5) 0 0 0 0) 0 5 [(5, 7)]), oldestMove ((qst .moveSend (word 0x9C 0 (0xE00000+5) 0 0 0 0) 0 5 [(5, 7)])), [], { instr := oldestMove ((qst .moveSend (word 0x9C 0 (0xE00000+5) 0 0 0 0) 0 5 [(5, 7)])), engine := .moveSend, start := 4, lastRead := 4, done := 5 }, by decide +kernel⟩,
   ⟨0, msgc 0, oldestMove (msgc 0), [], { instr := oldestMove (msgc 0), engine := .moveSend, start := 4, lastRead := 4, done := 5, reads := [(4, List.range 32)], got := [(0, List.replicate 32 1)] }, by decide +kernel⟩,
   ⟨0, (qst .moveSend (word 0x9D 0 0 0 0 0 0x200) 0 5 []), ({ word := 0x9d000000000000000000000000000200#128, ctx := Ctx.main, pc := 0, cycle := 0, seqNo := 0, mode := 0x0#4, n := 0, prov := false, chainedIn := none, consts := [0, 0, 0, 0, 0, 0, 0], loops := [], depth := 0, srcs := [], dsts := [], wall := 0, heldAt := 0 }), [], by decide +kernel⟩,
   ⟨0, (qst .moveSend (word 0x9D 0 0 0 0 0 0x400) 0 5 []), ({ word := 0x9d000000000000000000000000000400#128, ctx := Ctx.main, pc := 0, cycle := 0, seqNo := 0, mode := 0x0#4, n := 0, prov := false, chainedIn := none, consts := [0, 0, 0, 0, 0, 0, 0], loops := [], depth := 0, srcs := [], dsts := [], wall := 0, heldAt := 0 }), [], by decide +kernel⟩,
   ⟨0, (qst .moveSend (word 0x9D 0 (0xE00000+5) 0 3 0 0x100) 3 5 [(5,7)]), ({ word := 0x9d000000e00005000000000300000100#128, ctx := Ctx.main, pc := 0, cycle := 0, seqNo := 0, mode := 0x0#4, n := 3, prov := false, chainedIn := none, consts := [7, 0, 0, 0, 0, 0, 0], loops := [], depth := 0, srcs := [], dsts := [], wall := 0, heldAt := 0 }), [], by decide +kernel⟩⟩

/-- The hypotheses of O17 are met. -/
theorem witness_CheckPointChecksTheNextBeat :
    (∃ (c : CellId) (s : State),
      let x := s.cell c
      x.state = .running ∧
      x.seq.dried = false ∧
      x.held = false ∧
      (s.runningSuite x).isSome = true ∧
      16 * (x.seq.checked - 1) + 8 ≤ x.seq.cyc) ∧
    (∃ (c : CellId) (s : State) (u : _),
      let x := s.cell c
      x.state = .waitingStart ∧
      s.runningSuite x = some u ∧
      s.now / cycleLen u.freq.current % 16 = 8) ∧
    (∃ (c : CellId) (s : State),
      let x := s.cell c
      x.held = true ∧
      x.seq.late ≠ []) ∧
    (∃ (c : CellId) (s : State),
      let x := s.cell c
      x.held = false) :=
  ⟨⟨0, ((oneInstr vaddWord).updCell 0 (fun x => { x with seq := { x.seq with cyc := 57 } })), by decide +kernel⟩,
   ⟨0, { runningPart { cellWith [vaddWord] [] with state := .waitingStart } with now := 160 }, suite0, by decide +kernel⟩,
   ⟨0, (((oneInstr vaddWord).updCell 0 (fun x => { x with held := true, seq := { x.seq with late := [⟨0,0⟩] } })).updSuite 0 (fun u => { u with hold := {u.hold with held := true}})), by decide +kernel⟩,
   ⟨0, State.reset, by decide +kernel⟩⟩

/-- The hypotheses of O18 are met. -/
theorem witness_HandlerDispatchStartsTheOldestEntry :
    (∃ (c : CellId) (s : State) (q : Nat) (at_ : Nat) (w : Nat) (rest : List (Nat × Nat × Nat)) (m : W256),
      let x := s.cell c
      let h := x.qHandler q
      x.held = false ∧
      x.state = .running ∧
      (s.runningSuite x).isSome = true ∧
      x.seq.handler = none ∧
      x.seq.dispatch = (q, at_, w) :: rest ∧
      at_ + 1 ≤ x.seq.cyc ∧
      x.qBad q = none ∧
      x.parityBad (0xE00 + 2 * h) = false ∧
      x.parityBad (0xE00 + 2 * h + 1) = false ∧
      x.hWord h 0 % 2 = 1 ∧
      (if (x.que.qlive q).fresh.1 = x.obs.wall then (x.que.qlive q).fresh.2 else 0) < (x.que.qlive q).count ∧
      x.que.slot (x.que.qlive q).head = some m) :=
  ⟨0, (hst.updCell 0 (fun x => { x with seq := { x.seq with cyc := 9 } })), 0, 3, 0, [], (0x5#256), by decide +kernel⟩

/-- The hypotheses of O19 are met. -/
theorem witness_ScrubbersReadWriteBackAndSignal :
    (∃ (c : CellId) (o : Fin 8) (s : State),
      let x := s.cell c
      s.powered c = true ∧
      (sget {} x.scrub o.val).made (scrubPeriod s.tick) < 4096) ∧
    (∃ (c : CellId) (o : Fin 8) (s : State),
      let x := s.cell c
      (sget {} x.scrub o.val).made (scrubPeriod s.tick) < 4096 ∧
      ((scrubWords o.val ((sget {} x.scrub o.val).made (scrubPeriod s.tick))).all (fun a => match x.readWord a with | .good _ => true | _ => false)) = true) ∧
    (∃ (c : CellId) (o : Fin 8) (s : State) (a : _) (d : _) (r : _),
      let x := s.cell c
      (sget {} x.scrub o.val).backs = (a, d) :: r) ∧
    (∃ (c : CellId) (s : State) (j : Nat),
      let k0 := s.tick.toNat / 781250
      let k := if s.tick.toNat % 781250 = 0 ∧ (s.cell c).interval < k0 then k0 else k0 + 1
      let s1 := s.waitUntil (s.now + (781250 * k - s.tick.toNat) * 600 - s.now % 600)
      let x := s1.cell c
      x.state = .running ∧
      cellSuite x = some j) ∧
    (∃ (q : Scrub) (p : Nat),
      q.period < p) :=
  ⟨⟨0, 0, (qst .matrix (word 0x20 0 0 0 0 0 3) 0 5 []), by decide +kernel⟩,
   ⟨0, 0, State.reset, by decide +kernel⟩,
   ⟨0, 0, scr, 8, (0x4d#32), [], by decide +kernel⟩,
   ⟨0, (qst .matrix (word 0x20 0 0 0 0 0 3) 0 5 []), 0, by decide +kernel⟩,
   ⟨({ period := 0, reads := 0, past := 0, backs := [] }), 1, by decide +kernel⟩⟩

/-- The hypotheses of O20 are met. -/
theorem witness_NoticesWaitForTheirBeatAndMoveTheZone :
    (∃ (c : CellId) (z : ZoneId) (s : State) (n : ZoneNotice) (due : ZoneNotice → Bool),
      let x := s.cell c
      let v := x.zone z
      v.valid = true ∧
      v.notices = [n] ∧
      due n = true) ∧
    (∃ (c : CellId) (z : ZoneId) (s : State) (n : ZoneNotice) (m : _),
      let x := s.cell c
      let v := x.zone z
      v.valid = true ∧
      v.notices = [n, m] ∧
      n.commit = true ∧
      m.commit = false) ∧
    (∃ (c : CellId) (z : ZoneId) (s : State) (n : ZoneNotice) (u : _),
      let x := s.cell c
      let v := x.zone z
      v.valid = true ∧
      v.notices = [n] ∧
      n.off = false ∧
      s.runningSuite x = some u ∧
      x.clocked = true ∧
      x.seq.cyc ≤ n.due) ∧
    (∃ (c : CellId) (z : ZoneId) (s : State) (n : ZoneNotice),
      let x := s.cell c
      let v := x.zone z
      v.valid = true ∧
      v.notices = [n] ∧
      n.off = true ∧
      s.cells = [(c.val, x)] ∧
      s.runningSuite x = none ∧
      x.accesses = [] ∧
      (∀ k, k ≠ z.val → (x.zone k).notices = []) ∧
      s.now < n.due) ∧
    (∃ (s : State) (commit : Bool) (nb : W32) (step : W32) (sect : W16) (i : Nat) (target : NoticeTarget) (c : _) (z : _),
      findBelow 32 (fun i => (s.suite i).sb.noticeList.any (fun n => n.target == target && n.commit == commit && some nb == some n.beat && n.step == step && n.sect == sect)) = some i ∧
      target = .zone c z ∧
      (s.cell c).epoch = step ∧
      (s.cell c).cfg.sect = sect ∧
      (s.cell c).state = .running) ∧
    (∃ (s : State) (commit : Bool) (nb : W32) (step : W32) (sect : W16) (i : Nat) (target : NoticeTarget) (c : _) (z : _),
      findBelow 32 (fun i => (s.suite i).sb.noticeList.any (fun n => n.target == target && n.commit == commit && some nb == some n.beat && n.step == step && n.sect == sect)) = some i ∧
      target = .zone c z ∧
      ((s.cell c).epoch ≠ step ∨ (s.cell c).cfg.sect ≠ sect)) ∧
    (∃ (s : State) (commit : Bool) (nb : W32) (step : W32) (sect : W16) (i : Nat) (target : NoticeTarget) (x : _),
      findBelow 32 (fun i => (s.suite i).sb.noticeList.any (fun n => n.target == target && n.commit == commit && some nb == some n.beat && n.step == step && n.sect == sect)) = some i ∧
      target = .context x ∧
      (s.suite i).feeder.isOpen = true ∧
      (s.suite i).feeder.current = sect.toNat ∧
      (s.suite i).contexts.any (fun k => k.2.2 == x) = true ∧
      (s.stream x).active = true) :=
  ⟨⟨0, 0, offd, ({ commit := true, off := true, due := 3200 }), (fun _ => true), by decide +kernel⟩,
   ⟨0, 0, (runningPart { zoned { landed := 7, provLanded := 5, notices := [⟨true, false, 32⟩,⟨false,false,32⟩] } with tags := [(4,.provisional),(5,.full)] }), ({ commit := true, off := false, due := 32 }), ({ commit := false, off := false, due := 32 }), by decide +kernel⟩,
   ⟨0, 0, (runningPart { zoned { landed := 7, provLanded := 5, notices := [⟨true, false, 0⟩], modeReq := some (true, 2) } with tags := [(4,.provisional),(5,.full)] }), ({ commit := true, off := false, due := 0 }), ((runningPart { zoned { landed := 7, provLanded := 5, notices := [⟨true, false, 0⟩], modeReq := some (true, 2) } with tags := [(4,.provisional),(5,.full)] })).suite 0, by decide +kernel⟩,
   ⟨0, 0, offd, ({ commit := true, off := true, due := 3200 }), ⟨rfl, rfl, rfl, rfl, by decide +kernel, rfl, fun k h => by simp [State.cell, Cell.zone, offd, zoned, sget, show ¬ 0 = k from fun e => h e.symm], by decide +kernel⟩⟩,
   ⟨((runningPart (zoned {})).updSuite 0 (fun u => { u with sb := { u.sb with noticeList := [⟨.zone 0 0, true, 3, 0, 0⟩, ⟨.zone 0 0, false, 0, 0, 0⟩] } })), true, (0x3#32), (0x0#32), (0x0#16), 0, (NoticeTarget.zone 0 0), 0, 0, by decide +kernel⟩,
   ⟨((runningPart { zoned {} with epoch := 4}).updSuite 0 (fun u => { u with sb := { u.sb with noticeList := [⟨.zone 0 0, true, 3, 0, 0⟩, ⟨.zone 0 0, false, 0, 0, 0⟩] } })), true, (0x3#32), (0x0#32), (0x0#16), 0, (NoticeTarget.zone 0 0), 0, 0, by decide +kernel⟩,
   ⟨(((runningPart { zoned {} with epoch := 4}).updSuite 0 (fun u => { u with contexts := [(0,0,.se 0 0)], sb := { u.sb with noticeList := [⟨.context (.se 0 0), true, 3, 0, 0⟩] } })).updStream (.se 0 0) (fun v => { v with active := true })), true, (0x3#32), (0x0#32), (0x0#16), 0, (NoticeTarget.context (StreamCtx.se 0 0)), (StreamCtx.se 0 0), by decide +kernel⟩⟩

/-- The hypotheses of O21 are met. -/
theorem witness_ZoneRegisterActions :
    (∃ (c : CellId) (z : ZoneId) (s : State) (m : _) (b : _) (u : _),
      ((s.cell c).zone z).modeReq = some (m, b) ∧
      s.runningSuite (s.cell c) = some u ∧
      (s.cell c).clocked = true ∧
      (s.cell c).seq.cyc ≤ 16 * b) ∧
    (∃ (c : CellId) (z : ZoneId) (s : State) (m : _) (b : _) (k : _),
      ((s.cell c).zone z).modeReq = some (m, b) ∧
      16 * b ≤ k) ∧
    (∃ (s : State) (f : HostFn),
      s.answers f = false) ∧
    (∃ (s : State) (k : SuiteId),
      s.answers (.vf k) = true) ∧
    (∃ (c : CellId) (s : State) (rest : W64),
      let s1 := s.freshIn (s.bayCycle (cellBay c))
      let x := s1.cell c
      s.answers .pf = true ∧
      x.state = .running ∧
      rest.getLsbD 62 = false) ∧
    (∃ (c : CellId) (s : State),
      let s1 := s.freshIn (s.bayCycle (cellBay c))
      let x := s1.cell c
      s.answers .pf = true ∧
      x.state = .running) ∧
    (∃ (s : State) (g : W16),
      s.answers .pf = true ∧
      g ≠ 0) ∧
    (∃ (c : CellId) (s : State) (w : W64),
      let s1 := s.freshIn (s.bayCycle (cellBay c))
      let x := s1.cell c
      s.answers .pf = true ∧
      w.getLsbD 28 = true ∧
      x.held = false ∧
      x.state = .idle) ∧
    (∃ (c : CellId) (s : State),
      let s1 := s.freshIn (s.bayCycle (cellBay c))
      let x := s1.cell c
      s.answers .pf = true ∧
      x.held = false ∧
      x.state = .idle) ∧
    (∃ (c : CellId) (s : State),
      let s1 := s.freshIn (s.bayCycle (cellBay c))
      let x := s1.cell c
      s.answers .pf = true ∧
      x.state = .running) :=
  ⟨⟨0, 0, (runningPart { zoned { landed := 7, provLanded := 5, notices := [⟨true, false, 0⟩], modeReq := some (true, 2) } with tags := [(4,.provisional),(5,.full)] }), true, 2, ((runningPart { zoned { landed := 7, provLanded := 5, notices := [⟨true, false, 0⟩], modeReq := some (true, 2) } with tags := [(4,.provisional),(5,.full)] })).suite 0, by decide +kernel⟩,
   ⟨0, 0, (runningPart { zoned { landed := 7, provLanded := 5, notices := [⟨true, false, 0⟩], modeReq := some (true, 2) } with tags := [(4,.provisional),(5,.full)] }), true, 2, 32, by decide +kernel⟩,
   ⟨State.reset, HostFn.pf, by decide +kernel⟩,
   ⟨(msgc 0), 0, by decide +kernel⟩,
   ⟨0, (msgc 0), (0x0#64), by decide +kernel⟩,
   ⟨0, (msgc 0), by decide +kernel⟩,
   ⟨(msgc 0), (0x3#16), by decide +kernel⟩,
   ⟨1, (msgc 0), (0xffffffffffffffff#64), by decide +kernel⟩,
   ⟨1, (msgc 0), by decide +kernel⟩,
   ⟨0, (msgc 0), by decide +kernel⟩⟩

end Engines

/-! ### Holds, bay isolation, tracks, landings and messages -/

namespace Tracks

def base : State := runningPart (cellWith [word 0 0 0 0 1 0 0] [])

def hold (f : Hold → Hold) (s : State := base) : State := s.updSuite 0 (fun u => { u with hold := f u.hold })

def cel (f : Cell → Cell) (s : State := base) : State := s.updCell 0 f

def fl (n : Nat) : Flit := ⟨BitVec.ofNat 256 n, true, false, false, none⟩

def trk (f : Tracks → Tracks) (s : State := base) : State := cel (fun x => { x with trk := f x.trk }) s

def land (h : Nat) : Landing := ⟨0, 0, fl h, [some (fl 1), some (fl 2), some (fl (3*2^200)), some (fl 0)]⟩

def lst (v : Zone) (h : Nat) (f : Cell → Cell := id) : State := runningPart (f (let x := zoned v; { x with trk := { landings := [land h] } }))

def mm (q cell : Nat) (suite := 0) : W256 := message 0 0 15 1 suite 0 0 0 0 0 (cell * 256 + q) 0

def qcell : Cell := let x := cellWith [word 0 0 0 0 1 0 0] []; let x := x.putCfg 0xA00 1; let x := x.putCfg 0xA01 0x00020000; { x with cfg := { x.cfg with queueValid := [0] } }

/-- The hypotheses of O22 are met. -/
theorem witness_HoldBeginsAndEndsAtABoundary :
    (∃ (sid : SuiteId) (s : State) (s1 : State),
      s.waitBoundary sid.val = some s1 ∧
      (s.suite sid.val).hold.sendHold = true) ∧
    (∃ (sid : SuiteId) (s : State) (s1 : State),
      s.waitBoundary sid.val = some s1 ∧
      (s.suite sid.val).hold.held = true ∧
      (s.suite sid.val).hold.sendRelease = true) ∧
    (∃ (sid : SuiteId) (s : State) (s1 : State),
      s.waitBoundary sid.val = some s1 ∧
      (s.suite sid.val).hold.sendHold = false) ∧
    (∃ (sid : SuiteId) (s : State) (s1 : State),
      s.waitBoundary sid.val = some s1 ∧
      (s.suite sid.val).hold.sendRelease = false) :=
  ⟨⟨0, (hold (fun h => { h with sendHold := true })), (((hold (fun h => { h with sendHold := true }))).waitBoundary 0).getD State.reset, by decide +kernel⟩,
   ⟨0, (hold (fun h => { h with held := true, sendRelease := true }) (cel (fun x => { x with held := true }))), (((hold (fun h => { h with held := true, sendRelease := true }) (cel (fun x => { x with held := true })))).waitBoundary 0).getD State.reset, by decide +kernel⟩,
   ⟨0, base, ((base).waitBoundary 0).getD State.reset, by decide +kernel⟩,
   ⟨0, base, ((base).waitBoundary 0).getD State.reset, by decide +kernel⟩⟩

/-- The hypotheses of O23 are met. -/
theorem witness_HoldRootSamplesAndTimesOut :
    (∃ (sid : SuiteId) (s : State),
      let u := s.suite sid.val
      let h := u.hold
      let beat := suiteWallBeat s sid.val
      u.state = .running ∧
      s.now / cycleLen u.freq.current % 16 = 12 ∧
      h.sampled ≠ beat + 1) ∧
    (∃ (sid : SuiteId) (s : State),
      let u := s.suite sid.val
      let h := u.hold
      h.held = true ∧
      s.suites.any (fun e => e.1 == sid.val) = true ∧
      (s.suites.map (·.1)).Nodup) ∧
    (∃ (sid : SuiteId) (s : State),
      let u := s.suite sid.val
      let h := u.hold
      h.held = true ∧
      h.timedOut = false ∧
      h.limit ≠ 0 ∧
      h.limit.toNat ≤ h.run ∧
      u.recov.active = false) ∧
    (∃ (sid : SuiteId) (s : State),
      let u := s.suite sid.val
      let h := u.hold
      h.run < h.limit.toNat) :=
  ⟨⟨0, ({ base with now := 240 }), by decide +kernel⟩,
   ⟨0, (hold (fun h => { h with held := true, sendRelease := true }) (cel (fun x => { x with held := true }))), by decide +kernel⟩,
   ⟨0, (hold (fun h => { h with held := true, limit := 3, run := 3 })), by decide +kernel⟩,
   ⟨0, State.reset, by decide +kernel⟩⟩

/-- The hypotheses of O24 are met. -/
theorem witness_BayIsolationOpensOnlyInsideASuite :
    (∃ (s : State),
      s.answers .pf = true) ∧
    (∃ (b : BayId) (v : W64) (s : State) (d : _),
      let s1 := s.freshIn (s.bayCycle b.val)
      let ok := mayOpen s1 b.val (fld v 0 4)
      d < 4 ∧
      ok.getLsbD d = true) ∧
    (∃ (s : State) (f : _),
      s.answers f = false) ∧
    (∃ (s : State) (k : SuiteId),
      s.answers (.vf k) = true) :=
  ⟨⟨base, by decide +kernel⟩,
   ⟨0, (0x2#64), (base.updBay 1 (fun y => { y with owner := some 0 })), 1, by decide +kernel⟩,
   ⟨State.reset, HostFn.pf, by decide +kernel⟩,
   ⟨base, 0, by decide +kernel⟩⟩

/-- The hypotheses of O25 are met. -/
theorem witness_FlitsEnterTheirFifoOrOverrun :
    (∃ (c : CellId) (port : Fin 5) (track : Fin 4) (s : State),
      let j := 4 * port.val + track.val
      let x := s.cell c
      sget [] x.trk.wires j = []) ∧
    (∃ (c : CellId) (port : Fin 5) (track : Fin 4) (s : State) (f : _) (rest : _),
      let j := 4 * port.val + track.val
      let x := s.cell c
      let q := sget [] x.trk.fifos j
      sget [] x.trk.wires j = f :: rest ∧
      (∀ n, neighbour c.val port.val = some n → cellBay n = cellBay c.val) ∧
      q.length < 8 ∧
      (f.valid = true ∨ tracksAct x = true)) ∧
    (∃ (c : CellId) (port : Fin 5) (track : Fin 4) (s : State) (f : _) (rest : _),
      let j := 4 * port.val + track.val
      let x := s.cell c
      let q := sget [] x.trk.fifos j
      sget [] x.trk.wires j = f :: rest ∧
      (∀ n, neighbour c.val port.val = some n → cellBay n = cellBay c.val) ∧
      f.valid = false ∧
      (8 ≤ q.length ∨ tracksAct x = false)) ∧
    (∃ (c : CellId) (port : Fin 5) (track : Fin 4) (s : State) (f : _) (rest : _),
      let j := 4 * port.val + track.val
      let x := s.cell c
      let q := sget [] x.trk.fifos j
      sget [] x.trk.wires j = f :: rest ∧
      (∀ n, neighbour c.val port.val = some n → cellBay n = cellBay c.val) ∧
      f.valid = true ∧
      q.length < 8) ∧
    (∃ (c : CellId) (port : Fin 5) (track : Fin 4) (s : State) (f : _) (rest : _),
      let j := 4 * port.val + track.val
      let x := s.cell c
      let q := sget [] x.trk.fifos j
      sget [] x.trk.wires j = f :: rest ∧
      (∀ n, neighbour c.val port.val = some n → cellBay n = cellBay c.val) ∧
      f.valid = true ∧
      8 ≤ q.length) :=
  ⟨⟨0, 0, 0, State.reset, by decide +kernel⟩,
   ⟨0, 0, 0, (trk (fun t => { t with wires := [(0, [fl 3, fl 4]), (4, [fl 5])], fifos := [(0, [fl 9])] })), ({ data := 0x3#256, valid := true, prov := false, void := false, strip := none }), ([{ data := 0x4#256, valid := true, prov := false, void := false, strip := none }]), by decide +kernel⟩,
   ⟨0, 0, 0, (trk (fun t => { t with wires := [(0, [{ fl 3 with valid := false }])], fifos := [(0, List.replicate 8 (fl 9))] })), ({ data := 0x3#256, valid := false, prov := false, void := false, strip := none }), [], by decide +kernel⟩,
   ⟨0, 0, 0, (trk (fun t => { t with wires := [(0, [fl 3, fl 4]), (4, [fl 5])], fifos := [(0, [fl 9])] })), ({ data := 0x3#256, valid := true, prov := false, void := false, strip := none }), ([{ data := 0x4#256, valid := true, prov := false, void := false, strip := none }]), by decide +kernel⟩,
   ⟨0, 0, 0, (trk (fun t => { t with wires := [(0, [fl 3, fl 4])], fifos := [(0, List.replicate 8 (fl 9))] })), ({ data := 0x3#256, valid := true, prov := false, void := false, strip := none }), ([{ data := 0x4#256, valid := true, prov := false, void := false, strip := none }]), by decide +kernel⟩⟩

/-- The hypotheses of O26 are met. -/
theorem witness_RouteTablePopsEachNamedFifoOnce :
    (∃ (c : CellId) (s : State) (u : Suite),
      let x := s.cell c
      s.runningSuite x = some u ∧
      x.trk.phaseDone ≠ some x.obs.wall ∧
      tracksAct x = true) ∧
    (∃ (c : CellId) (s : State) (u : Suite),
      let x := s.cell c
      s.runningSuite x = some u ∧
      x.trk.phaseDone ≠ some x.obs.wall ∧
      tracksAct x = false) :=
  ⟨⟨0, base, (base).suite 0, by decide +kernel⟩,
   ⟨0, (trk (fun t => { t with wires := [(0, [fl 3, fl 4]),(2, [fl 5]), (1, [fl 7])], fifos := [(0, [fl 1])] }) (cel (fun x => { x with state := .loading }))), ((trk (fun t => { t with wires := [(0, [fl 3, fl 4]),(2, [fl 5]), (1, [fl 7])], fifos := [(0, [fl 1])] }) (cel (fun x => { x with state := .loading })))).suite 0, by decide +kernel⟩⟩

/-- The hypotheses of O27 are met. -/
theorem witness_LandingStripIsWrittenCountedAndCredited :
    (∃ (c : CellId) (o : Fin 8) (s : State) (l : Landing) (u : _),
      let x := s.cell c
      x.trk.landings.find? (fun k => k.octant == o.val) = some l ∧
      s.runningSuite x = some u) :=
  ⟨0, 0, (lst {} 0x4080), land 0x4080, ((lst {} 0x4080)).suite 0, by decide +kernel⟩

/-- The hypotheses of O28 are met. -/
theorem witness_MessagesReachTheirQueues :
    (∃ (c : CellId) (s : State) (k : Fin 5) (m : _) (rest : _),
      let x := s.cell c
      x.state = .running ∧
      x.held = false ∧
      sget [] x.trk.router k.val = m :: rest ∧
      routePort c.val (mDstQueue m / 256) = 4) ∧
    (∃ (c : CellId) (s : State) (k : Fin 5) (m : _) (rest : _) (n : _),
      let x := s.cell c
      let p := routePort c.val (mDstQueue m / 256)
      let e := 64 * p + 32 + x.seq.cyc % 16
      x.state = .running ∧
      x.held = false ∧
      sget [] x.trk.router k.val = m :: rest ∧
      x.seq.dried = false ∧
      (s.runningSuite x).isSome = true ∧
      p ≠ 4 ∧
      neighbour c.val p = some n ∧
      cellBay n = cellBay c.val ∧
      openAt x x.seq.cyc = true ∧
      nbit (x.outEntry e) 15 = true ∧
      nbits (x.outEntry e) 13 2 = 2 ∧
      x.parityBad (0x800 + e / 2) = false ∧
      x.trk.phaseDone ≠ some x.obs.wall ∧
      x.trk.routed.any (fun r => r.1 == p && r.2 == x.obs.wall) = false ∧
      routerRoom (s.cell n) (facing p) = true) ∧
    (∃ (c : CellId) (s : State) (a : _),
      let x := s.cell c
      x.trk.arrivals = [a] ∧
      x.qBad a.queue = none ∧
      x.qValid a.queue = true ∧
      mRemote a.msg = false ∧
      cellSuite x = some (mSuite a.msg) ∧
      (x.que.qlive a.queue).count + (x.que.qlive a.queue).retained < x.qSize a.queue ∧
      Memory.wf x.que.storeA = true ∧
      Memory.wf x.que.checkA = true) ∧
    (∃ (c : CellId) (s : State) (a : _),
      let x := s.cell c
      x.trk.arrivals = [a] ∧
      x.qBad a.queue = none ∧
      mRemote a.msg = false ∧
      (x.qValid a.queue = false ∨ x.qSize a.queue ≤ (x.que.qlive a.queue).count + (x.que.qlive a.queue).retained)) :=
  ⟨⟨0, (trk (fun t => { t with router := [(0, [mm 3 0, mm 4 1]), (1, [mm 3 1])] })), 0, (0x300000000000000000000010f000000000000000000000000#256), ([0x10400000000000000000000010f000000000000000000000000#256]), by decide +kernel⟩,
   ⟨0, ((trk (fun t => { t with router := [(0, [mm 3 0, mm 4 1]), (1, [mm 3 1])] })).updCell 0 (fun x => let x := (x.putCfg (0x800 + 48) 0xC000); { x with seq := {x.seq with openNop := some ⟨0,16,0xFF,16⟩ } })), 1, (0x10300000000000000000000010f000000000000000000000000#256), [], 1, by decide +kernel⟩,
   ⟨0, (runningPart { qcell with trk := { arrivals := [⟨.hub, 0, mm 0 0, none⟩] } }), ({ src := MsgSource.hub, queue := 0, msg := 0x10f000000000000000000000000#256, vc := none }), by decide +kernel⟩,
   ⟨0, (runningPart { qcell with trk := { arrivals := [⟨.hub, 7, mm 0 0, none⟩] } }), ({ src := MsgSource.hub, queue := 7, msg := 0x10f000000000000000000000000#256, vc := none }), by decide +kernel⟩⟩

/-- The hypotheses of O29 are met. -/
theorem witness_HubPathMovesOneItem :
    (∃ (c : CellId) (s : State) (k : _) (rest : _),
      let x := s.cell c
      let b := cellBay c.val
      let y := s.bay b
      x.trk.outbound = k :: rest ∧
      y.up.length < 16 ∧
      y.upFree ≤ s.now) ∧
    (∃ (c : CellId) (s : State) (m : _) (vc : _) (rest : _),
      let x := s.cell c
      let b := cellBay c.val
      let y := s.bay b
      y.down = (c, m, vc) :: rest ∧
      x.state ≠ .loading ∧
      x.state ≠ .waitingStart ∧
      y.downFree ≤ s.now) ∧
    (∃ (c : CellId) (s : State) (n : BayId) (o : SuiteId) (m : _) (rest : _),
      (s.bay n.val).owner = some o ∧
      (s.suite o.val).feeder.released = [] ∧
      staging (s.suite o.val) = false ∧
      (s.bay n.val).up = (c, .msg m) :: rest ∧
      tokenTarget s m = none ∧
      mDstPart m = s.part.toNat ∧
      cellSuite (s.cell (mDstQueue m / 256)) = some o.val ∧
      cellBay (mDstQueue m / 256) ≠ n.val) :=
  ⟨⟨0, (trk (fun t => { t with outbound := [.msg (mm 0 0), .bar 3 0] })), (HubItem.msg 0x10f000000000000000000000000#256), ([HubItem.bar 3 0x0#64]), by decide +kernel⟩,
   ⟨0, (base.updBay 0 (fun y => { y with down := [(0, mm 5 0, none), (0, mm 6 0, none)] })), (0x500000000000000000000010f000000000000000000000000#256), none, ([(0, 0x600000000000000000000010f000000000000000000000000#256, none)]), by decide +kernel⟩,
   ⟨0, (((base.updBay 0 (fun y => { y with up := [(0, .msg (mm 5 16)), (0, .msg 0)] })).updBay 1 (fun y => { y with owner := some 0 })).updCell 16 (fun x => { x with suite := some 0 }) |>.updSuite 0 (fun u => { u with feeder := { u.feeder with isOpen := false } })), 0, 0, (0x100500000000000000000000010f000000000000000000000000#256), ([(0, HubItem.msg 0x0#256)]), by decide +kernel⟩⟩

end Tracks

/-! ### Barriers, stream contexts and memory ports -/

namespace Streams

def base : State := runningPart (cellWith [word 0 0 0 0 1 0 0] [])

def bar (b : Barrier) (s : State := base) : State := s.setBarrier 0 b

def own (s : State) := s.updSuite 0 (fun u => { u with barBlocks := [0] })

def mkd (kind start row : Nat) (tracks fpb phase panes addr target tb base c0 : Nat) (idxsp := 0) (elem := 0) (idx := 0) (due := 0): BitVec 512 :=
  BitVec.ofNat 512 (1 + kind*2 + idxsp*2^5 + 1*2^8 + tracks*2^24 + fpb*2^28 + phase*2^32 + row*2^48 + start*2^64 + due*2^96 + tb*2^128 + panes*2^144 + addr*2^160+target*2^192+elem*2^208+base*2^224+idx*2^288
   + (c0 + 2^16+2^32+2^48)*2^352 + 1*2^416)

def dR : BitVec 512 := mkd 0 0 0 1 1 0 1 0x4000 0 32 0x1000000 2

def dW : BitVec 512 := mkd 1 0 15 1 1 0 0 0 0 0 0x1000000 2

def dI : BitVec 512 := mkd 3 0 15 1 1 0 0 0 0 0 0x1000000 2 1 1 (15+2^12*1+2^16*4)

def x0 : StreamCtx := .se 0 0

def strm (v : StreamState) (sl : List (Nat × W16)) (s : State := base) : State :=
  let s := s.updSuite 0 (fun u => { u with contexts := [(0,0,x0)], windows := [⟨false, true,true,false,0,0,1,1⟩] })
  let s := s.updPort 0 (fun q => sl.foldl (fun q e => putSlot q e.1 e.2) q)
  s.setStream x0 v

def ent : W16 := 0x8000

def win := [(2,ent),(5,ent),(0,ent)]

def tr : TileRead := ⟨⟨x0,1,false,0⟩, 48, false, [], [], none⟩

def trB : TileRead := { tr with inBuffer := true, data := (List.range 4096).map (BitVec.ofNat 8 ·) }

def wstrips : List WStrip := (List.range 32).map (fun r => ⟨0, r, List.replicate 128 (BitVec.ofNat 8 r), [], false⟩)

def g0 : StreamCtx := .gacon 0 0

def gst : State :=
  let s := base.updSuite 0 (fun u => { u with contexts := [(96,0,g0)], windows := [⟨false, true,true,false,0,0,1,1⟩] })
  let s := s.updPort 0 (fun q => putSlot q 5 ent)
  let s := s.setStream g0 { active := true, desc := dR, serial := 1, dlvs := [(1,dR)], rdTile := 2 }
  s.setGport 0 { reads := [⟨⟨g0,1,false,0⟩, 0, false, [], [], none⟩] }

def outl (f : Nat) (c row : Nat) (s : State) : State := (s.updCell row (fun x => { x with suite := some 0, state := .running, seq := { x.seq with cyc := 40 }, trk := { x.trk with outlets := sset x.trk.outlets f ((List.range 4).map (fun k => (c+k, (⟨BitVec.ofNat 256 (k+5), true, false, false, none⟩ : Flit)))) } }))

def barUp (c : W64) (s : State) : State := s.updSuite 0 (fun u => { u with feeder := { u.feeder with released := [(0, .bar 0 c)] } })

def barTx (c : W64) : Txn := ⟨txnHdr 4 7 0 0 0 0 0x025000000000 0 3 0 0 0, leBytes 8 c.toNat, some 0, none⟩

def barRx (c : W64) (s : State) : State := s.setGport 0 { state := .up, rxq := [(0, [barTx c])] }

/-- The hypotheses of O30 are met. -/
theorem witness_BarrierCountsItsArrivals :
    (∃ (n : BarId) (s : State) (src : _),
      let direct := fun (src : BarSrc) => src = .mgmt ∨ ∃ k : SuiteId, src = .vf k ∧ s.barOwner n.val = some k.val
      direct src) ∧
    (∃ (n : BarId) (s : State) (err : Bool) (genchk : Bool) (gen : W16) (i : SuiteId),
      s.barOwner n.val = some i.val ∧
      (∃ k ∈ suiteBays s i.val, ∃ rel c, hubHead s i.val k = some (rel, c, .bar n.val (arriveCmd err genchk gen)))) ∧
    (∃ (n : BarId) (s : State) (err : Bool) (genchk : Bool) (gen : W16) (part : _) (i : _),
      let next := fun (part : BitVec 6) (i : SuiteId) (v : W64) => (s.barrier n.val).remote = true ∧ ∃ (g : Fin 16) (vc : Fin 5) (x : Txn), gHead s g.val vc.val 4 = some x ∧ txnDst x = s.part.toNat ∧ txnSrc x = part.toNat ∧ txnSuite x = i.val ∧ barOf (txnAddr x % 2 ^ 48) = some n.val ∧ BitVec.ofNat 64 (leAt x.body 0 8) = v
      next part i (arriveCmd err genchk gen)) ∧
    (∃ (n : BarId) (s : State) (src : _),
      let direct := fun (src : BarSrc) => src = .mgmt ∨ ∃ k : SuiteId, src = .vf k ∧ s.barOwner n.val = some k.val
      direct src) ∧
    (∃ (n : BarId) (s : State) (genchk : Bool) (gen : W16) (part : _) (i : _),
      let next := fun (part : BitVec 6) (i : SuiteId) (v : W64) => (s.barrier n.val).remote = true ∧ ∃ (g : Fin 16) (vc : Fin 5) (x : Txn), gHead s g.val vc.val 4 = some x ∧ txnDst x = s.part.toNat ∧ txnSrc x = part.toNat ∧ txnSuite x = i.val ∧ barOf (txnAddr x % 2 ^ 48) = some n.val ∧ BitVec.ofNat 64 (leAt x.body 0 8) = v
      next part i (flag64 true 60 ||| flag64 genchk 59 ||| at64 gen 32)) ∧
    (∃ (n : BarId) (s : State) (k : SuiteId),
      s.barOwner n.val ≠ some k.val) ∧
    (∃ (n : BarId) (s : State) (f : HostFn),
      let b := s.barrier n.val
      s.answers f = true ∧
      (f = .pf ∨ ∃ k : SuiteId, f = .vf k ∧ s.barOwner n.val = some k.val) ∧
      b.armed = false) ∧
    (∃ (n : BarId) (s : State) (f : HostFn),
      let b := s.barrier n.val
      s.answers f = true ∧
      (f = .pf ∨ ∃ k : SuiteId, f = .vf k ∧ s.barOwner n.val = some k.val) ∧
      b.armed = false) ∧
    (∃ (n : BarId) (s : State) (f : HostFn),
      let b := s.barrier n.val
      s.answers f = true ∧
      (f = .pf ∨ ∃ k : SuiteId, f = .vf k ∧ s.barOwner n.val = some k.val) ∧
      b.armed = true) :=
  ⟨⟨0, State.reset, BarSrc.mgmt, by decide +kernel⟩,
   ⟨0, (barUp (arriveCmd false true 3) (own (bar { armed := true, latched := 2, arrived := 1, gen := 3 }))), false, true, (0x3#16), 0, ⟨by decide +kernel, 0, by decide +kernel, true, 0, by decide +kernel⟩⟩,
   ⟨0, (barRx (arriveCmd false true 3) (bar { armed := true, remote := true, latched := 2, arrived := 1, gen := 3 })), false, true, (0x3#16), (0x0#6), 0, ⟨rfl, 0, 0, barTx (arriveCmd false true 3), by decide +kernel⟩⟩,
   ⟨0, State.reset, BarSrc.mgmt, by decide +kernel⟩,
   ⟨0, (barRx (flag64 true 60 ||| flag64 true 59 ||| at64 (3 : W16) 32) (bar { armed := true, remote := true, latched := 2, arrived := 1, gen := 4 })), true, (0x3#16), (0x0#6), 0, ⟨rfl, 0, 0, barTx (flag64 true 60 ||| flag64 true 59 ||| at64 (3 : W16) 32), by decide +kernel⟩⟩,
   ⟨0, State.reset, 0, by decide +kernel⟩,
   ⟨1, (barUp (arriveCmd false true 3) (own (bar { armed := true, latched := 2, arrived := 1, gen := 3 }))), HostFn.pf, by decide +kernel⟩,
   ⟨1, (barUp (arriveCmd false true 3) (own (bar { armed := true, latched := 2, arrived := 1, gen := 3 }))), HostFn.pf, by decide +kernel⟩,
   ⟨0, (barUp (arriveCmd false true 3) (own (bar { armed := true, latched := 2, arrived := 1, gen := 3 }))), HostFn.pf, by decide +kernel⟩⟩

/-- The hypotheses of O31 are met. -/
theorem witness_ContextsStartReadAndDeliver :
    (∃ (s : State) (x : StreamCtx) (e : Fin 96) (k : Fin 16) (d : _) (rest : _) (i : _) (n : _),
      x = .se e k ∧
      (s.stream x).queue = d :: rest ∧
      s.ctxSuite x = some i ∧
      canBegin (s.stream x) = true ∧
      s.nextSlot (ctxPort x) (fun _ j q => match q with | some (_, a) => a.toNat == seAgent e.val k.val && decide (slotClass s.repair.split j < 2) | none => false) = some n ∧
      dStart d ≤ suiteBeat (s.waitSlot (ctxPort x) n) i ∧
      nbit d.toNat 0 = true ∧
      dBad d i (ctxPort x) = false) ∧
    (∃ (s : State) (x : StreamCtx) (e : Fin 96) (k : Fin 16) (d : _) (rest : _) (i : _) (n : _),
      x = .se e k ∧
      (s.stream x).queue = d :: rest ∧
      s.ctxSuite x = some i ∧
      canBegin (s.stream x) = true ∧
      s.nextSlot (ctxPort x) (fun _ j q => match q with | some (_, a) => a.toNat == seAgent e.val k.val && decide (slotClass s.repair.split j < 2) | none => false) = some n ∧
      dStart d ≤ suiteBeat (s.waitSlot (ctxPort x) n) i ∧
      nbit d.toNat 0 = true ∧
      dBad d i (ctxPort x) = true) ∧
    (∃ (s : State) (p : PortId) (n : _) (su : _) (ag : _) (a : _),
      let s1 := (s.waitSlot p.val n).updPort p.val (fun q => { q with lastSlot := some n })
      let x := agentCtx p.val ag
      let use := readUse (s1.stream x) (inBufferOf (s1.port p.val).reads x s1.now) (fun row b => legalTile (s1.suite su.toNat) p.val row b)
      stackServes (s.port p.val) = true ∧
      (∀ h ∈ s.mbox.waits, stackOf h.addr ≠ p.val) ∧
      s.nextSlot p.val (fun _ i k => slotClass s.repair.split i == 0 && k.isSome) = some n ∧
      ((s1.port p.val).slots.find? (fun e => e.1 == slotIx (s1.port p.val) n)).map (·.2) = some (su, ag) ∧
      use = .data a) ∧
    (∃ (s : State) (p : PortId) (n : _) (su : _) (ag : _),
      let s1 := (s.waitSlot p.val n).updPort p.val (fun q => { q with lastSlot := some n })
      let x := agentCtx p.val ag
      let use := readUse (s1.stream x) (inBufferOf (s1.port p.val).reads x s1.now) (fun row b => legalTile (s1.suite su.toNat) p.val row b)
      stackServes (s.port p.val) = true ∧
      (∀ h ∈ s.mbox.waits, stackOf h.addr ≠ p.val) ∧
      s.nextSlot p.val (fun _ i k => slotClass s.repair.split i == 0 && k.isSome) = some n ∧
      ((s1.port p.val).slots.find? (fun e => e.1 == slotIx (s1.port p.val) n)).map (·.2) = some (su, ag) ∧
      use = .nothing) ∧
    (∃ (s : State) (p : PortId) (r : _),
      (s.port p.val).reads = [r] ∧
      r.inBuffer = false ∧
      r.id.index = false ∧
      25 * r.arrives ≤ s.now) :=
  ⟨⟨(strm { queue := [dR, dW] } win), (StreamCtx.se 0 0), 0, 0, (0x100010001000100020000000000000000000000000100000000000000000040000001002000000000000000000000000011000101#512), ([0x10001000100010002000000000000000000000000010000000000000000000000000000000000000000000000000f000011000103#512]), 0, 0, by decide +kernel⟩,
   ⟨(strm { queue := [BitVec.ofNat 512 0x1F1] } win), (StreamCtx.se 0 0), 0, 0, (0x1f1#512), [], 0, 0, by decide +kernel⟩,
   ⟨(strm {active := true, desc := dR, serial := 1, dlvs := [(1,dR)]} win), 0, 0, (0x0#5), (0x0#7), 16777216, by decide +kernel⟩,
   ⟨(strm { queue := [dR, dW] } win), 0, 0, (0x0#5), (0x0#7), by decide +kernel⟩,
   ⟨({ (strm {active := true, desc := dR, serial := 1, dlvs := [(1,dR)], rdTile := 1} win).updPort 0 (fun q => { q with reads := [tr] }) with now := 1300 }), 0, ({ id := { ctx := StreamCtx.se 0 0, serial := 1, index := false, k := 0 }, arrives := 48, inBuffer := false, data := [], granules := [], gone := none }), by decide +kernel⟩⟩

/-- The hypotheses of O32 are met. -/
theorem witness_WriteRemoteAndMaintenanceSlots :
    (∃ (s : State) (p : PortId) (n : _) (su : _) (ag : _) (t : _) (a : _) (a' : _),
      let s1 := (s.waitSlot p.val n).updPort p.val (fun q => { q with lastSlot := some n })
      let x := agentCtx p.val ag
      stackServes (s.port p.val) = true ∧
      (∀ h ∈ s.mbox.waits, stackOf h.addr ≠ p.val) ∧
      s.nextSlot p.val (fun _ i k => slotClass s.repair.split i == 1 && k.isSome) = some n ∧
      ((s1.port p.val).slots.find? (fun e => e.1 == slotIx (s1.port p.val) n)).map (·.2) = some (su, ag) ∧
      tileReady (s1.stream x) = some t ∧
      dTileAddr (s1.stream x).desc (s1.stream x).indices t = some a ∧
      legalTile (s1.suite su.toNat) p.val false a = some a') ∧
    (∃ (s : State) (p : PortId) (n : _) (su : _) (ag : _),
      let s1 := (s.waitSlot p.val n).updPort p.val (fun q => { q with lastSlot := some n })
      stackServes (s.port p.val) = true ∧
      (∀ h ∈ s.mbox.waits, stackOf h.addr ≠ p.val) ∧
      s.nextSlot p.val (fun _ i k => slotClass s.repair.split i == 1 && k.isSome) = some n ∧
      ((s1.port p.val).slots.find? (fun e => e.1 == slotIx (s1.port p.val) n)).map (·.2) = some (su, ag) ∧
      tileReady (s1.stream (agentCtx p.val ag)) = none) ∧
    (∃ (s : State) (p : PortId) (n : _),
      let s1 := s.waitSlot p.val n
      stackServes (s.port p.val) = true ∧
      s.nextSlot p.val (fun _ i _ => slotClass s.repair.split i == 3) = some n ∧
      (s1.port p.val).maint = [] ∧
      (s1.port p.val).reads = [] ∧
      scrubDue s1 < (s1.port p.val).scrubPos) ∧
    (∃ (s : State) (p : PortId),
      stackServes (s.port p.val) = true) ∧
    (∃ (s : State),
      s.answers .pf = true) ∧
    (∃ (s : State) (k : SuiteId),
      s.answers (.vf k) = true) ∧
    (∃ (p : PortId) (s : State),
      stackServes (s.port p.val) = false) ∧
    (∃ (p : PortId) (s : State),
      s.nextSlot p.val (fun _ i k => slotClass s.repair.split i == 2 && k.isSome) = none) ∧
    (∃ (p : PortId) (s : State) (n : _) (su : _) (ag : _) (r : _),
      let s1 := (s.waitSlot p.val n).updPort p.val (fun q => { q with lastSlot := some n })
      let g := ag.toNat / 8
      let s2 := s1.settleGaconIndex g
      stackServes (s.port p.val) = true ∧
      s.nextSlot p.val (fun _ i k => slotClass s.repair.split i == 2 && k.isSome) = some n ∧
      ((s1.port p.val).slots.find? (fun e => e.1 == slotIx (s1.port p.val) n)).map (·.2) = some (su, ag) ∧
      (∀ x ∈ gaconCtxs (s2.suite su.toNat) g, s2.askTile g su.toNat x = none) ∧
      (s2.gport g).reads = [r] ∧
      r.inBuffer = false ∧
      r.id.index = false ∧
      r.id.ctx ∈ gaconCtxs (s2.suite su.toNat) g ∧
      (s2.stream r.id.ctx).dlvs.any (fun e => e.1 == r.id.serial && cellDie (dTarget e.2) == p.val / 3) = true) :=
  ⟨⟨(strm {active := true, desc := dW, serial := 1, taken := 32, wcb := wstrips} win), 0, 2, (0x0#5), (0x0#7), 0, 16777216, 16777216, by decide +kernel⟩,
   ⟨(strm { queue := [dR, dW] } win), 0, 2, (0x0#5), (0x0#7), by decide +kernel⟩,
   ⟨(base.updPort 0 (fun q => { q with scrubPos := 1 })), 0, 31, by decide +kernel⟩,
   ⟨State.reset, 0, by decide +kernel⟩,
   ⟨(barUp (arriveCmd false true 3) (own (bar { armed := true, latched := 2, arrived := 1, gen := 3 }))), by decide +kernel⟩,
   ⟨(barUp (arriveCmd false true 3) (own (bar { armed := true, latched := 2, arrived := 1, gen := 3 }))), 0, by decide +kernel⟩,
   ⟨0, (base.updPort 0 (fun q => { q with retired := true })), by decide +kernel⟩,
   ⟨0, State.reset, by decide +kernel⟩,
   ⟨0, gst, 5, (0x0#5), (0x0#7), ({ id := { ctx := StreamCtx.gacon 0 0, serial := 1, index := false, k := 0 }, arrives := 0, inBuffer := false, data := [], granules := [], gone := none }), by decide +kernel⟩⟩

set_option maxRecDepth 100000 in
/-- The hypotheses of O33 are met. -/
theorem witness_FramesPassBetweenSpineAndContext :
    (∃ (x : StreamCtx) (s : State) (i : Nat) (serial : _) (d : _) (ds : _) (r : _) (n : _) (wall : _) (at_ : _),
      let v := s.stream x
      let u := s.suite i
      let ts := dTrackList d
      let f := v.dlvStrip / ts.length
      let due := dDue0 d + v.dlvTile * dTileBeats d
      let cell := dRowCell d
      s.ctxSuite x = some i ∧
      v.dlvs = (serial, d) :: ds ∧
      v.voided = false ∧
      dReads d = true ∧
      u.state = .running ∧
      (s.ctxReads x).find? (fun z => z.id == ⟨x, serial, false, v.dlvTile⟩) = some r ∧
      r.inBuffer = true ∧
      r.granules = [] ∧
      v.dlvStrip < 31 ∧
      frameMoment v u.hold.held (s.now / cycleLen u.freq.current) (s.cell cell).seq.cyc (due + f / dFpb d) (dPhase d + 5 * (f % dFpb d)) due (suiteBeat s i) = some (n, wall, at_) ∧
      (s.bay (cellBay cell)).owner.map (fun o => o.val) = some i ∧
      n * cycleLen u.freq.current ≤ s.now) ∧
    (∃ (x : StreamCtx) (s : State) (i : Nat) (c : _) (tr : _),
      let v := s.stream x
      let cell := dRowCell v.desc
      s.ctxSuite x = some i ∧
      v.active = true ∧
      v.voided = false ∧
      dWrites v.desc = true ∧
      v.taken < 32 * dTiles v.desc ∧
      firstFrame (s.cell cell) (dTrackList v.desc) ((List.range (dFpb v.desc)).map (fun j => dPhase v.desc + 4 * j)) (16 * dDue0 v.desc) = some (c, tr) ∧
      (s.runningSuite (s.cell cell)).isSome = true ∧
      (s.cell cell).clocked = true ∧
      c + 4 ≤ (s.cell cell).seq.cyc ∧
      spineTagOk s cell i = true ∧
      s.wcbUse x < 64) ∧
    (∃ (x : StreamCtx) (s : State) (i : Nat) (c : _) (tr : _),
      let v := s.stream x
      let cell := dIdx v.desc % 2 ^ 12
      s.ctxSuite x = some i ∧
      v.active = true ∧
      v.voided = false ∧
      dIndexed v.desc = true ∧
      dIdxSp v.desc = true ∧
      firstFrame (s.cell cell) [nbits (dIdx v.desc) 12 2] [nbits (dIdx v.desc) 16 4] 0 = some (c, tr) ∧
      (s.runningSuite (s.cell cell)).isSome = true ∧
      (s.cell cell).clocked = true ∧
      c + 4 ≤ (s.cell cell).seq.cyc ∧
      spineTagOk s cell i = true) :=
  ⟨⟨(StreamCtx.se 0 0), ({ (strm {active := true, desc := dR, serial := 1, dlvs := [(1,dR)], rdTile := 1} win).updPort 0 (fun q => { q with reads := [trB] }) with now := 20*10 }), 0, 1, dR, [], trB, 8, 1, 7, by decide +kernel⟩,
   ⟨(StreamCtx.se 0 0), (outl 16 16 15 (strm {active := true, desc := dW, serial := 1} win)), 0, 16, 0, by decide +kernel⟩,
   ⟨(StreamCtx.se 0 0), (outl 17 20 15 (strm {active := true, desc := dI, serial := 1} win)), 0, 20, 1, by decide +kernel⟩⟩

end Streams

/-! ### Configuration, sections, step builder -/

namespace Sections

def base : State := runningPart (cellWith [word 0 0 0 0 1 0 0] [])

def mkd (kind start row : Nat) (tracks fpb phase panes addr target tb base c0 : Nat) (idxsp := 0) (elem := 0) (idx := 0) (due := 0): BitVec 512 :=
  BitVec.ofNat 512 (1 + kind*2 + idxsp*2^5 + 1*2^8 + tracks*2^24 + fpb*2^28 + phase*2^32 + row*2^48 + start*2^64 + due*2^96 + tb*2^128 + panes*2^144 + addr*2^160+target*2^192+elem*2^208+base*2^224+idx*2^288
   + (c0 + 2^16+2^32+2^48)*2^352 + 1*2^416)

def dR : BitVec 512 := mkd 0 0 0 1 1 0 1 0x4000 0 32 0x1000000 2

def dW : BitVec 512 := mkd 1 0 15 1 1 0 0 0 0 0 0x1000000 2

def x0 : StreamCtx := .se 0 0

def cel (f : Cell → Cell) (s : State := base) : State := s.updCell 0 f

def grp : Group := ⟨BitVec.ofNat 1024 0x1234567, false⟩

def ld (f : Machine.Config → Machine.Config) (s : State := base) : State := cel (fun x => { x with state := .loading, cfg := f x.cfg }) s

def su (f : Suite → Suite) (s : State := base) : State := s.updSuite 0 f

def sq (e : SeqEntry) (s : State) : State := s.setSeqEntry 3 e

def sbd (f : Builder → Builder) (s : State := base) : State := su (fun u => { u with serving := true, seqBlocks := [0], sb := f u.sb }) s

def msg0 (tag user tok : Nat) (s : State := base) : W256 := message (s.part.toNat*2^48+commitAddr 0) tok 15 0 0 0 tag 0 0 0xFFFFF 0 user

def rng (q : OutRing) (s : State := base) : State := sbd (fun b => { b with rings := [(0,q)] }) s

def dR4 : BitVec 512 := mkd 4 0 0 1 0 0 0 0 0 0 0 1

set_option maxRecDepth 100000 in
/-- The hypotheses of O34 are met. -/
theorem witness_ConfigurationGroupsReachTheStore :
    (∃ (c : CellId) (s : State),
      let x := s.cell c
      x.state = .loading ∧
      x.seq.handler = none ∧
      x.cfg.path.length < 8) ∧
    (∃ (c : CellId) (s : State),
      let x := s.cell c
      x.state ≠ .loading) ∧
    (∃ (c : CellId) (s : State) (g : _) (rest : _),
      let x := s.cell c
      x.cfg.path = g :: rest ∧
      cellLx c.val ≠ 15 ∧
      canTake (s.cell (c.val + 1)) = true) ∧
    (∃ (c : CellId) (s : State) (g : _) (s1 : _) (i : _),
      let x := s.cell c
      cellSuite x = some i ∧
      cellLx c.val = 0 ∧
      canTake x = true ∧
      s.spineGroup i c.val = (some g, s1)) ∧
    (∃ (c : CellId) (s : State) (s1 : _) (i : _),
      let x := s.cell c
      cellSuite x = some i ∧
      cellLx c.val = 0 ∧
      canTake x = true ∧
      s.spineGroup i c.val = (none, s1) ∧
      foreignRow s1 i c.val = none) ∧
    (∃ (c : CellId) (s : State) (g : _) (rest : _),
      let x := s.cell c
      x.cfg.wire = g :: rest ∧
      x.state = .loading ∧
      2 ≤ x.cfg.groups ∧
      x.cfg.groups < 129) ∧
    (∃ (c : CellId) (s : State) (g : _) (rest : _),
      let x := s.cell c
      x.cfg.wire = g :: rest ∧
      x.state = .loading ∧
      130 ≤ x.cfg.groups) ∧
    (∃ (c : CellId) (s : State) (s1 : _),
      let x := s.cell c
      x.state = .loading ∧
      2 ≤ x.cfg.groups ∧
      enginesIdle x = true ∧
      x.cfg.clearPos < 128 ∧
      s.nextCycle c.val = some s1) :=
  ⟨⟨0, (ld id), by decide +kernel⟩,
   ⟨0, State.reset, by decide +kernel⟩,
   ⟨0, (ld (fun g => { g with path := List.replicate 8 grp })), grp, List.replicate 7 grp, by decide +kernel⟩,
   ⟨0, ({ ld (fun g => { g with ready := true }) (su (fun u => { u with contexts := [(0,0,x0)] })) with streams := [(0, { active := true, desc := dR4, dlvs := [(1,dR4)] })], ports := [(0, { reads := [⟨⟨x0,1,false,0⟩,0,true,List.replicate 4096 7,[], none⟩] })] }), ({ bytes := 0x707070707070707070707070707070707070707070707070707070707070707070707070707070707070707070707070707070707070707070707070707070707070707070707070707070707070707070707070707070707070707070707070707070707070707070707070707070707070707000000000707070707070707#1024, void := false }), ((({ ld (fun g => { g with ready := true }) (su (fun u => { u with contexts := [(0,0,x0)] })) with streams := [(0, { active := true, desc := dR4, dlvs := [(1,dR4)] })], ports := [(0, { reads := [⟨⟨x0,1,false,0⟩,0,true,List.replicate 4096 7,[], none⟩] })] })).spineGroup 0 0).2, 0, by decide +kernel⟩,
   ⟨0, (ld (fun g => { g with ready := true }) (su (fun u => { u with protExts := [(0,0,1)], feeder := { u.feeder with configured := true } }))), (ld (fun g => { g with ready := true }) (su (fun u => { u with protExts := [(0,0,1)], feeder := { u.feeder with configured := true } }))), 0, by decide +kernel⟩,
   ⟨0, (ld (fun g => { g with wire := [grp, grp], groups := 2 })), ({ bytes := 0x1234567#1024, void := false }), ([{ bytes := 0x1234567#1024, void := false }]), by decide +kernel⟩,
   ⟨0, (ld (fun g => { g with wire := [grp], groups := 130, path := [grp] })), ({ bytes := 0x1234567#1024, void := false }), [], by decide +kernel⟩,
   ⟨0, (ld (fun g => { g with wire := [grp, grp], groups := 2 })), (((ld (fun g => { g with wire := [grp, grp], groups := 2 }))).nextCycle 0).getD State.reset, by decide +kernel⟩⟩

/-- The hypotheses of O35 are met. -/
theorem witness_CommitStartsTheNewConfiguration :
    (∃ (c : CellId) (s : State) (u : Suite),
      let x := s.cell c
      x.state = .loading ∧
      x.cfg.groups = 130 ∧
      x.cfg.clearPos = 128 ∧
      enginesIdle x = true ∧
      x.cfg.blockErr = false ∧
      s.runningSuite x = some u ∧
      x.cfg.readyAt + 4 * cycleLen u.freq.current ≤ s.now ∧
      u.recov.active = false) ∧
    (∃ (c : CellId) (s : State),
      let x := s.cell c
      x.state = .loading ∧
      x.cfg.groups = 130 ∧
      x.cfg.clearPos = 128 ∧
      enginesIdle x = true ∧
      x.cfg.blockErr = true) :=
  ⟨⟨0, (ld (fun g => { g with groups := 130, clearPos := 128, header := BitVec.ofNat 1024 (0x77*2^64+0x5*2^32+3*2^128) }) { cel (fun x => { x with tags := [(5,.full),(133,.provisional)], mem := [(0x5007,5)], seq := { x.seq with loops := [⟨1,2⟩], pc := 9 } }) with now := 100 }), ((ld (fun g => { g with groups := 130, clearPos := 128, header := BitVec.ofNat 1024 (0x77*2^64+0x5*2^32+3*2^128) }) { cel (fun x => { x with tags := [(5,.full),(133,.provisional)], mem := [(0x5007,5)], seq := { x.seq with loops := [⟨1,2⟩], pc := 9 } }) with now := 100 })).suite 0, by decide +kernel⟩,
   ⟨0, (ld (fun g => { g with groups := 130, clearPos := 128, blockErr := true }) { base with now := 100 }), by decide +kernel⟩⟩

/-- The hypotheses of O36 are met. -/
theorem witness_SectionsCloseAndStart :
    (∃ (sid : SuiteId) (s : State),
      let i := sid.val
      mayClose s i = false) ∧
    (∃ (sid : SuiteId) (s : State),
      let i := sid.val
      mayClose s i = true ∧
      s.repair.quarantine = []) ∧
    (∃ (sid : SuiteId) (s : State) (s1 : _),
      let i := sid.val
      let u := s.suite i
      u.hold.sendStart = true ∧
      s.waitBoundary i = some s1) ∧
    (∃ (sid : SuiteId) (s : State) (b : BayId),
      (s.bay b.val).owner = some sid ∧
      (s.bay b.val).power = .on ∧
      (s.bay b.val).ramping = true) ∧
    (∃ (sid : SuiteId) (s : State),
      let i := sid.val
      let u := s.suite i
      u.freq.withheld = true ∧
      u.sb.closedAt + cdiv (u.sb.stepLen * s.power.duty.toNat) (16 - s.power.duty.toNat) ≤ s.now) :=
  ⟨⟨0, State.reset, by decide +kernel⟩,
   ⟨0, ((bayCells 0).foldl (fun s c => s.updCell c (fun x => { x with suite := some 0, state := .loading })) base), by decide +kernel⟩,
   ⟨0, su (fun u => { u with feeder := { u.feeder with isOpen := false, phase := 2 }, hold := { u.hold with sendStart := true }, contexts := [(0, 0, x0)], descs := [(x0, dR), (x0, dW)], sections := [⟨0, false, true, 0, 0, 2, 3⟩] }) (cel (fun x => { x with state := .waitingStart })), ((su (fun u => { u with feeder := { u.feeder with isOpen := false, phase := 2 }, hold := { u.hold with sendStart := true }, contexts := [(0, 0, x0)], descs := [(x0, dR), (x0, dW)], sections := [⟨0, false, true, 0, 0, 2, 3⟩] }) (cel (fun x => { x with state := .waitingStart }))).waitBoundary 0).getD State.reset, by decide +kernel⟩,
   ⟨0, (base.updBay 0 (fun y => { y with ramping := true })), 0, by decide +kernel⟩,
   ⟨0, (su (fun u => { u with freq := { u.freq with withheld := true } }) { base with now := 50 }), by decide +kernel⟩⟩

/-- The hypotheses of O37 are met. -/
theorem witness_BuilderBuildsCommitsAndPutsOut :
    (∃ (sid : SuiteId) (s : State),
      let i := sid.val
      let u := s.suite i
      let n := nextStep u
      u.serving = true ∧
      u.sb.building = true ∧
      (u.sb.built.any (fun e => e.1 == n)) = false) ∧
    (∃ (sid : SuiteId) (s : State),
      let i := sid.val
      let u := s.suite i
      u.sb.building = false) ∧
    (∃ (sid : SuiteId) (s : State) (b : BayId) (rel : _) (c : _) (m : _),
      let i := sid.val
      let u := s.suite i
      (s.bay b.val).owner = some sid ∧
      hubHead s i b.val = some (rel, c, .msg m) ∧
      tokenTarget s m = some i ∧
      u.serving = true) ∧
    (∃ (sid : SuiteId) (s : State) (n' : _) (k : _) (m : _),
      let i := sid.val
      let u := s.suite i
      u.sb.closed = some n' ∧
      u.sb.built = [(n', [k])] ∧
      u.sb.commitQ = [m] ∧
      mTag m = 0 ∧
      mUser m = n' ∧
      k.kind ≠ 0 ∧
      k.sample = true ∧
      takesToken (s.seqEntry k.entry) = true ∧
      u.stopping = false ∧
      sorted s.seqs = true) ∧
    (∃ (sid : SuiteId) (ring : Fin 16) (s : State) (r : _) (rest : _),
      let i := sid.val
      let q := sget {} (s.suite i).sb.rings ring.val
      let next := (q.tail.toNat + 1) % outSize q
      q.waiting = r :: rest ∧
      q.enable = true ∧
      next ≠ q.head.toNat % outSize q) ∧
    (∃ (sid : SuiteId) (ring : Fin 16) (s : State),
      let i := sid.val
      let q := sget {} (s.suite i).sb.rings ring.val
      let next := (q.tail.toNat + 1) % outSize q
      next = q.head.toNat % outSize q) ∧
    (∃ (sid : SuiteId) (s : State),
      s.answers (.vf sid) = true) ∧
    (∃ (sid : SuiteId) (s : State) (j : SuiteId),
      j ≠ sid ∧
      s.answers (.vf j) = true) :=
  ⟨⟨0, (sbd (fun b => { b with building := true, b := 2, p := 1, l := 4, pageBudget := 8, log2pt := 4 })), by decide +kernel⟩,
   ⟨0, State.reset, by decide +kernel⟩,
   ⟨0, (sbd id (base.updBay 0 (fun y => { y with up := [(0, .msg (msg0 0 0 7))] })) |> su (fun u => { u with feeder := { u.feeder with isOpen := false } })), 0, false, 0, (0xfffff000000000000000f000000070000024000800f00#256), by decide +kernel⟩,
   ⟨0, (sbd (fun b => { b with closed := some 5, built := [(5, [⟨1,true,3,19,1,0,2⟩])], commitQ := [msg0 0 5 77] }) (sq { state := .decode, position := 20, maxLen := 40 } base)), 5, ({ kind := 1, sample := true, entry := 3, position := 19, count := 1, pageFirst := 0, pages := 2 }), (0x500000000000fffff000000000000000f0000004d0000024000800f00#256), by decide +kernel⟩,
   ⟨0, 0, (rng { enable := true, addr := 0x55, waiting := [0xABC, 0xDEF] }), (0xabc#256), ([0xdef#256]), by decide +kernel⟩,
   ⟨0, 0, (rng { enable := true, tail := 4, head := 5, waiting := [3] }), by decide +kernel⟩,
   ⟨0, base, by decide +kernel⟩,
   ⟨0, base, 1, by decide +kernel⟩⟩

end Sections

/-! ### Gacon links and transactions -/

namespace Links

def base : State := runningPart (cellWith [word 0 0 0 0 1 0 0] [])

def gp (q : GaconPort) (s : State := base) : State := s.setGport 0 { q with txPat := q.txPat }

def up0 : GaconPort := { state := .up, features := 0x1F, credits := [3,3,3,3,3], rxMap := [0,1,2,3], rxSpares := [4,5], txMap := [0,1,2,3], stLanes4 := true }

def lf (seq ack vc : Nat) (first last : Bool) (pay : List Byte) (cvc := 0) (cnt := 0) : BitVec 2144 := linkFlit (seq + ack*2^12 + vc*2^24 + b2n first*2^27 + b2n last*2^28 + cvc*2^32 + cnt*2^35) pay

def hd (op hops src addr len seq : Nat) (cov := 0) : W256 := txnHdr op hops 0 0 0 src addr len seq cov 0 0

def flits : List (BitVec 2144) := [0, lf 0 0 0 true false [1,2], lf 0 0 1 true true (leBytes 32 (hd 1 7 0 0x1000 4096 5).toNat), lf 0 0 1 false true [5,3], lf 0 0 1 true true [9], lf 3 0 0 true true [], lf 0 4 7 false false [0] 2 9, lf 0 4 7 false false [1,0,0,0,5] 2 9,
  lf 0 4 7 false false ([2,0,0,0,1,2,3] ++ [7]) 5 9, lf 0 4 7 false false [3] 0 9, lf 0 1 5 true true []]

def tx (op hops src addr len seq : Nat) (body : List Byte) (arr : Bool := true) : Txn := ⟨hd op hops src addr len seq, body, if arr then some 0 else none, none⟩

def rx (t : Txn) (s : State := base) (vc := 0) : State := (gp { up0 with rxq := [(vc, [t, t])] } s)

def rt (s : State) : State := { s with routes := [(1, (true, 0)), (2, (true, 1))], gacon := sset s.gacon 1 up0 }

def win (s : State) : State := (s.updSuite 0 (fun u => { u with windows := [⟨false, true,true,false,0,0,1,1⟩], remoteSpad := true, barBlocks := [0] })).updPort 0 (fun q => putSlot q 5 0x8000)

def m1 : W256 := message 0 0 15 1 0 0 0 1 0 0 (0*256+3) 0

set_option maxRecDepth 100000 in
/-- The hypotheses of O38 are met. -/
theorem witness_LinkFlitsAreAcceptedOnceInOrder :
    (∃ (g : GPort) (s : State),
      let q0 := s.gport g.val
      portUp q0 = false) ∧
    (∃ (g : GPort) (f : BitVec 2144) (fec : FecResult) (s : State),
      let q0 := s.gport g.val
      let s1 := s.countFec g.val fec
      let q := s1.gport g.val
      let intact := fec.lost = false ∧ lfCrcOk f = true
      portUp q0 = true ∧
      portUp q = true ∧
      intact ∧
      lfVc f < 5 ∧
      lfSeq f = q.expSeq ∧
      lfLast f = false) ∧
    (∃ (g : GPort) (f : BitVec 2144) (fec : FecResult) (s : State),
      let q0 := s.gport g.val
      let s1 := s.countFec g.val fec
      let q := s1.gport g.val
      let intact := fec.lost = false ∧ lfCrcOk f = true
      let bs := (if lfFirst f then [] else sget [] q.rxFlits (lfVc f)) ++ lfPayload f
      portUp q0 = true ∧
      portUp q = true ∧
      intact ∧
      lfVc f < 5 ∧
      lfSeq f = q.expSeq ∧
      lfLast f = true ∧
      5 < leAt bs 0 32 % 16) ∧
    (∃ (g : GPort) (f : BitVec 2144) (fec : FecResult) (s : State),
      let q0 := s.gport g.val
      let s1 := s.countFec g.val fec
      let q := s1.gport g.val
      let intact := fec.lost = false ∧ lfCrcOk f = true
      let bs := (if lfFirst f then [] else sget [] q.rxFlits (lfVc f)) ++ lfPayload f
      portUp q0 = true ∧
      portUp q = true ∧
      intact ∧
      lfVc f < 5 ∧
      lfSeq f = q.expSeq ∧
      lfLast f = true ∧
      leAt bs 0 32 % 16 ≤ 5) ∧
    (∃ (g : GPort) (f : BitVec 2144) (fec : FecResult) (s : State),
      let q0 := s.gport g.val
      let s1 := s.countFec g.val fec
      let q := s1.gport g.val
      let intact := fec.lost = false ∧ lfCrcOk f = true
      portUp q0 = true ∧
      portUp q = true ∧
      (lfVc f < 5 ∨ ¬ intact) ∧
      (¬ intact ∨ lfSeq f ≠ q.expSeq)) ∧
    (∃ (g : GPort) (f : BitVec 2144) (s : State),
      let q0 := s.gport g.val
      controlOk q0 f 0 = true) :=
  ⟨⟨0, State.reset, by decide +kernel⟩,
   ⟨0, (flits.getD 1 0), ({ lost := false, corrected := 0, uncorrectable := 0, symbols := [] }), (gp up0), by decide +kernel⟩,
   ⟨0, (flits.getD 4 0), ({ lost := false, corrected := 0, uncorrectable := 0, symbols := [] }), (gp up0), by decide +kernel⟩,
   ⟨0, (flits.getD 2 0), ({ lost := false, corrected := 0, uncorrectable := 0, symbols := [] }), (gp up0), by decide +kernel⟩,
   ⟨0, (flits.getD 0 0), ({ lost := false, corrected := 0, uncorrectable := 0, symbols := [] }), (gp up0), by decide +kernel⟩,
   ⟨0, (flits.getD 6 0), (gp up0), by decide +kernel⟩⟩

set_option maxRecDepth 100000 in
/-- The hypotheses of O39 are met. -/
theorem witness_LinkSendsControlReplayAndData :
    (∃ (g : GPort) (s : State) (f : _) (rest : _),
      let q := s.gport g.val
      portUp q = true ∧
      q.control = f :: rest) ∧
    (∃ (g : GPort) (s : State) (k : _) (f : _) (rest : _),
      let q := s.gport g.val
      portUp q = true ∧
      q.control = [] ∧
      q.resend = (k, f) :: rest) ∧
    (∃ (g : GPort) (s : State) (v : _) (x : _) (p : _) (more : _),
      let q := s.gport g.val
      let pat := (sget 4 q.txPat q.txPos).toNat
      portUp q = true ∧
      q.control = [] ∧
      q.resend = [] ∧
      q.txSwap = none ∧
      q.cut.find? (fun e => e.1 == pat) = some (v, ⟨x, p :: more⟩) ∧
      0 < nth q.credits pat 0 ∧
      q.replay.length < 512 ∧
      pat < 5) ∧
    (∃ (g : GPort) (s : State),
      let q := s.gport g.val
      let pat := (sget 4 q.txPat q.txPos).toNat
      portUp q = true ∧
      q.control = [] ∧
      q.resend = [] ∧
      (q.txSwap.isSome = true ∨ ∀ v, v < 5 ∨ v = pat → vcMay q v = false)) ∧
    (∃ (g : GPort) (s : State) (f : _),
      let q := s.gport g.val
      let quiet := fun (s : State) => ∀ i ∈ gaconSuites s g.val, ∀ e, e = countReplay (sget {} (s.gport g.val).wins i) (s.suite i).hold.window → ¬ (e.replays = allotment 3 + 1 ∧ e.excess = true)
      controlOk q f 1 = true ∧
      quiet s) ∧
    (∃ (g : GPort) (s : State),
      let q := s.gport g.val
      let quiet := fun (s : State) => ∀ i ∈ gaconSuites s g.val, ∀ e, e = countReplay (sget {} (s.gport g.val).wins i) (s.suite i).hold.window → ¬ (e.replays = allotment 3 + 1 ∧ e.excess = true)
      let s1 := s.waitUntil (q.ackAt + 30000)
      portUp q = true ∧
      q.replay ≠ [] ∧
      quiet s1) ∧
    (∃ (g : GPort) (s : State),
      let q := s.gport g.val
      portUp q = true ∧
      q.nakOut = true) ∧
    (∃ (g : GPort) (s : State),
      let q := s.gport g.val
      q.replay = []) ∧
    (∃ (g : GPort) (s : State),
      let q := s.gport g.val
      q.nakOut = false) :=
  ⟨⟨0, (gp { up0 with control := [5,6], resend := [(1,0)] }), (0x5#2144), ([0x6#2144]), by decide +kernel⟩,
   ⟨0, (gp { up0 with resend := [(1,0),(2,0)] }), (0x1#12), (0x0#2144), ([(0x2#12, 0x0#2144)]), by decide +kernel⟩,
   ⟨0, (gp { up0 with cut := [(4, ⟨tx 1 7 0 0 0 0 [], [⟨[1],true,false⟩,⟨[2],false,true⟩]⟩)] }), 4, ({ hdr := 0x701#256, body := [], arrived := some 0, suite := none }), ({ bytes := [0x1#8], first := true, last := false }), ([{ bytes := [0x2#8], first := false, last := true }]), by decide +kernel⟩,
   ⟨0, (gp { up0 with txSwap := some ⟨1,5,77,false⟩ }), ⟨rfl, rfl, rfl, Or.inl rfl⟩⟩,
   ⟨0, (gp up0), (flits.getD 7 0), ⟨by decide +kernel, fun i hi e he => by subst he; revert i; decide +kernel⟩⟩,
   ⟨0, (gp {up0 with replay := [(3,0),(4,0),(5,0),(9,0)], sent := [(5, 0, tx 1 7 0 0 0 0 [])]}), ⟨by decide +kernel, by decide +kernel, fun i hi e he => by subst he; revert i; decide +kernel⟩⟩,
   ⟨0, (gp { up0 with nakOut := true }), by decide +kernel⟩,
   ⟨0, State.reset, by decide +kernel⟩,
   ⟨0, State.reset, by decide +kernel⟩⟩

set_option maxRecDepth 100000 in
/-- The hypotheses of O40 are met. -/
theorem witness_LaneFailoverMovesToTheSpare :
    (∃ (g : GPort) (s : State) (lane : Fin 10),
      let q := s.gport g.val
      let failed := q.rxFailed ||| BitVec.ofNat 10 (2 ^ lane.val)
      portUp q = true ∧
      (q.rxSwap.isSome = true ∨ q.rxMap.findIdx? (fun l => failed.getLsbD l) = none)) ∧
    (∃ (g : GPort) (s : State) (lane : Fin 10) (k : _) (sp : _) (more : _),
      let q := s.gport g.val
      let failed := q.rxFailed ||| BitVec.ofNat 10 (2 ^ lane.val)
      portUp q = true ∧
      q.rxSwap = none ∧
      q.rxMap.findIdx? (fun l => failed.getLsbD l) = some k ∧
      spares failed q.rxSpares = sp :: more ∧
      q.features.getLsbD 4 = true) ∧
    (∃ (g : GPort) (s : State) (lane : Fin 10) (k : _),
      let q := s.gport g.val
      let failed := q.rxFailed ||| BitVec.ofNat 10 (2 ^ lane.val)
      portUp q = true ∧
      q.rxSwap = none ∧
      q.rxMap.findIdx? (fun l => failed.getLsbD l) = some k ∧
      (spares failed q.rxSpares = [] ∨ q.features.getLsbD 4 = false)) ∧
    (∃ (g : GPort) (s : State) (w : _),
      let q := s.gport g.val
      let p := (s.waitUntil (codewordAt q q.rxWord w.codeword s.now)).gport g.val
      q.rxSwap = some w ∧
      w.acked = true ∧
      (p.rxMap.set w.logical w.spare).findIdx? (fun l => p.rxFailed.getLsbD l) = none) ∧
    (∃ (g : GPort) (s : State) (w : _),
      let q := s.gport g.val
      q.txSwap = some w ∧
      w.acked = true) ∧
    (∃ (g : GPort) (s : State) (rx : Bool) (w : _),
      let q := s.gport g.val
      (if rx then q.rxSwap else q.txSwap) = some w ∧
      w.acked = false) ∧
    (∃ (g : GPort) (s : State) (f : _),
      let q := s.gport g.val
      controlOk q f 2 = true) ∧
    (∃ (g : GPort) (s : State) (f : _),
      let q := s.gport g.val
      controlOk q f 3 = true) ∧
    (∃ (g : GPort) (s : State),
      let q := s.gport g.val
      portUp q = true) ∧
    (∃ (g : GPort) (s : State),
      let q := s.gport g.val
      portUp q = false) :=
  ⟨⟨0, (gp { up0 with rxSwap := some ⟨1,5,77,true⟩, state := .failover }), 0, by decide +kernel⟩,
   ⟨0, (gp up0), 0, 0, 4, ([5]), by decide +kernel⟩,
   ⟨0, (gp { up0 with rxMap := [3,2,1,0], rxFailed := 0x3F0 }), 0, 3, by decide +kernel⟩,
   ⟨0, (gp { up0 with rxSwap := some ⟨1,5,77,true⟩, state := .failover }), ({ logical := 1, spare := 5, codeword := 0x4d#64, acked := true }), by decide +kernel⟩,
   ⟨0, (gp { up0 with txSwap := some ⟨1,5,77,true⟩, state := .failover }), ({ logical := 1, spare := 5, codeword := 0x4d#64, acked := true }), by decide +kernel⟩,
   ⟨0, (gp { up0 with txSwap := some ⟨1,5,77,false⟩, txq := [(4, [tx 1 7 0 0 0 0 []])] }), false, ({ logical := 1, spare := 5, codeword := 0x4d#64, acked := false }), by decide +kernel⟩,
   ⟨0, (gp up0), (flits.getD 8 0), by decide +kernel⟩,
   ⟨0, (gp up0), (flits.getD 9 0), by decide +kernel⟩,
   ⟨0, (gp up0), by decide +kernel⟩,
   ⟨0, State.reset, by decide +kernel⟩⟩

/-- The hypotheses of O41 are met. -/
theorem witness_TrainingBringsAPortUp :
    (∃ (s : State) (f : _),
      s.answers f = false) ∧
    (∃ (g : GPort) (s : State),
      let q := s.gport g.val
      s.answers .pf = true ∧
      (q.state = .down ∨ q.state = .failed) ∧
      s.domainValid = true) ∧
    (∃ (g : GPort) (s : State),
      let q := s.gport g.val
      s.answers .pf = true ∧
      (q.state = .down ∨ q.state = .failed) ∧
      s.domainValid = false) ∧
    (∃ (s : State) (i : _),
      s.answers (.vf i) = true) ∧
    (∃ (g : GPort) (s : State),
      let q := s.gport g.val
      s.answers .pf = true ∧
      portUp q = true) ∧
    (∃ (g : GPort) (s : State) (m : _),
      let q := s.gport g.val
      q.state = .detect ∧
      4 ≤ (lanes m).length) ∧
    (∃ (g : GPort) (s : State) (m : _),
      let q := s.gport g.val
      q.state = .detect ∧
      (lanes m).length < 4) ∧
    (∃ (g : GPort) (s : State) (r : _) (x : _),
      let q := s.gport g.val
      q.state = .equalise ∧
      4 ≤ (lanes r).length ∧
      4 ≤ (lanes x).length) ∧
    (∃ (g : GPort) (s : State) (r : _) (x : _),
      let q := s.gport g.val
      q.state = .equalise ∧
      ((lanes r).length < 4 ∨ (lanes x).length < 4)) ∧
    (∃ (g : GPort) (s : State) (cap : CapBlock),
      let q := s.gport g.val
      q.state = .negotiate ∧
      cap.verMin ≤ 0x20 ∧
      0x10 ≤ cap.verMax ∧
      cap.verMin ≤ cap.verMax ∧
      cap.part ≠ s.part) ∧
    (∃ (g : GPort) (s : State) (cap : CapBlock),
      let q := s.gport g.val
      q.state = .negotiate ∧
      (0x20 < cap.verMin ∨ cap.verMax < 0x10)) ∧
    (∃ (g : GPort) (s : State) (cap : CapBlock),
      let q := s.gport g.val
      q.state = .negotiate ∧
      cap.verMin ≤ 0x20 ∧
      0x10 ≤ cap.verMax ∧
      cap.verMin ≤ cap.verMax ∧
      cap.part = s.part) ∧
    (∃ (g : GPort) (s : State),
      let q := s.gport g.val
      q.state = .align) ∧
    (∃ (g : GPort) (s : State),
      let q := s.gport g.val
      q.state = .align) ∧
    (∃ (s : State),
      s.answers .pf = true ∧
      (∀ h < 16, (s.gport h).state = .down ∨ (s.gport h).state = .failed)) ∧
    (∃ (s : State) (i : _),
      s.answers (.vf i) = true) ∧
    (∃ (g : GPort) (s : State),
      let q := s.gport g.val
      s.answers .pf = true ∧
      portUp q = true) :=
  ⟨⟨State.reset, HostFn.pf, by decide +kernel⟩,
   ⟨0, ({ base with domainValid := true }), by decide +kernel⟩,
   ⟨0, (base.setBarrier 0 { participants := 2 }), by decide +kernel⟩,
   ⟨(base.setBarrier 0 { participants := 2 }), 0, by decide +kernel⟩,
   ⟨0, (gp up0), by decide +kernel⟩,
   ⟨0, (gp { state := .detect }), (0x3ff#10), by decide +kernel⟩,
   ⟨0, (gp { state := .detect }), (0x0#10), by decide +kernel⟩,
   ⟨0, (gp { state := .equalise }), (0x3ff#10), (0x3ff#10), by decide +kernel⟩,
   ⟨0, (gp { state := .equalise }), (0x0#10), (0x0#10), by decide +kernel⟩,
   ⟨0, (gp { state := .negotiate, feat := 0x1F }), ({ verMin := 0x10#8, verMax := 0x20#8, lanes4 := false, rate100 := false, feat := 0x1f#5, part := 0x2#6, port := 0x3#4, goodLanes8 := true, credits := [8, 8, 8, 8, 8] }), by decide +kernel⟩,
   ⟨0, (gp { state := .negotiate, feat := 0x1F }), ({ verMin := 0x21#8, verMax := 0x22#8, lanes4 := false, rate100 := false, feat := 0x1f#5, part := 0x2#6, port := 0x3#4, goodLanes8 := true, credits := [8, 8, 8, 8, 8] }), by decide +kernel⟩,
   ⟨0, (gp { state := .negotiate, feat := 0x1F }), ({ verMin := 0x10#8, verMax := 0x20#8, lanes4 := false, rate100 := false, feat := 0x1f#5, part := 0x0#6, port := 0x3#4, goodLanes8 := true, credits := [8, 8, 8, 8, 8] }), by decide +kernel⟩,
   ⟨0, (gp { state := .align }), by decide +kernel⟩,
   ⟨0, (gp { state := .align }), by decide +kernel⟩,
   ⟨(base.setBarrier 0 { participants := 2 }), by decide +kernel⟩,
   ⟨(base.setBarrier 0 { participants := 2 }), 0, by decide +kernel⟩,
   ⟨0, (gp up0), by decide +kernel⟩⟩

set_option maxRecDepth 100000 in
/-- The hypotheses of O42 are met. -/
theorem witness_GaconTransactionsActAtTheirPart :
    (∃ (g : GPort) (vc : Vc) (s : State) (x : Txn) (op : Nat) (i : _) (h : _),
      let here := txnDst x = s.part.toNat
      gHead s g.val vc.val op = some x ∧
      [(0, Instr.gaconWrite g vc), (1, .gaconRead g vc), (2, .gaconReturn g vc), (3, .gaconMsg g vc), (4, .gaconBarcmd g vc), (5, .gaconNotice g vc)].find? (fun e => e.1 == op) = some i ∧
      ¬ here ∧
      txnHops x ≠ 0 ∧
      (s.gport g.val).features.getLsbD 0 = true ∧
      s.routeTo (txnDst x) = some h ∧
      (op = 1 → x.arrived = none ∨ (s.gport g.val).features.getLsbD 1 = true) ∧
      (op = 5 → (s.gport h).features.getLsbD 3 = true)) ∧
    (∃ (g : GPort) (vc : Vc) (s : State) (x : Txn) (op : Nat) (n : _),
      let here := txnDst x = s.part.toNat
      let a := txnAddr x % 2 ^ 48
      let s1 := s.waitSlot (stackOf a) n
      gHead s g.val vc.val op = some x ∧
      here ∧
      op = 0 ∧
      isHbm a = true ∧
      a % 64 = 0 ∧
      txnLen x = 64 ∧
      hbmOpen s x a 64 = true ∧
      s.remoteSlotOf (stackOf a) g.val = some n ∧
      (txnPoison x).getLsbD 0 = false ∧
      displaced (s1.port (stackOf a)) n = [] ∧
      Memory.wf (s1.port (stackOf a)).data = true) ∧
    (∃ (g : GPort) (vc : Vc) (s : State) (x : Txn) (op : Nat),
      let here := txnDst x = s.part.toNat
      let a := txnAddr x % 2 ^ 48
      gHead s g.val vc.val op = some x ∧
      here ∧
      op = 0 ∧
      isHbm a = true ∧
      hbmOpen s x a (txnLen x) = false) ∧
    (∃ (g : GPort) (vc : Vc) (s : State) (x : Txn) (op : Nat) (c : _) (o : _),
      let here := txnDst x = s.part.toNat
      let a := txnAddr x % 2 ^ 48
      gHead s g.val vc.val op = some x ∧
      here ∧
      op = 0 ∧
      isHbm a = false ∧
      spadOf a = some (c, o) ∧
      spadOpen s x c = true ∧
      o % 128 = 0 ∧
      txnLen x % 128 = 0 ∧
      txnLen x ≠ 0 ∧
      o % 4096 + txnLen x ≤ 4096 ∧
      s.spineSlotOf (cellDie c) g.val = none) ∧
    (∃ (g : GPort) (vc : Vc) (s : State) (x : Txn) (op : Nat) (c : _) (o : _) (n : _) (p : _),
      let here := txnDst x = s.part.toNat
      let a := txnAddr x % 2 ^ 48
      let s1 := s.waitSlot p n
      gHead s g.val vc.val op = some x ∧
      here ∧
      op = 0 ∧
      isHbm a = false ∧
      spadOf a = some (c, o) ∧
      spadOpen s x c = true ∧
      o % 128 = 0 ∧
      txnLen x % 128 = 0 ∧
      txnLen x ≠ 0 ∧
      o % 4096 + txnLen x ≤ 4096 ∧
      s.spineSlotOf (cellDie c) g.val = some (n, p) ∧
      (cellSuite (s1.cell c)).map (fun i => (s1.suite i).state) = some .running ∧
      (s1.bay (cellBay (injection c))).owner.map (fun o => o.val) = cellSuite (s1.cell c)) ∧
    (∃ (g : GPort) (vc : Vc) (s : State) (x : Txn) (op : Nat) (h : _) (n : _),
      let here := txnDst x = s.part.toNat
      let a := txnAddr x % 2 ^ 48
      let may := (x.arrived.isNone || (s.gport g.val).features.getLsbD 1) && a % 4096 == 0
      let s1 := s.waitSlot (stackOf a) n
      gHead s g.val vc.val op = some x ∧
      here ∧
      op = 1 ∧
      txnSrc x ≠ s.part.toNat ∧
      may = true ∧
      isHbm a = true ∧
      hbmOpen s x a 4096 = true ∧
      s.remoteSlotOf (stackOf a) g.val = some n ∧
      txnSrc x ≠ s1.part.toNat ∧
      s1.routeTo (txnSrc x) = some h ∧
      displaced (s1.port (stackOf a)) n = []) ∧
    (∃ (g : GPort) (vc : Vc) (s : State) (x : Txn) (op : Nat) (h : _) (c : _) (o : _) (n : _) (p : _),
      let here := txnDst x = s.part.toNat
      let a := txnAddr x % 2 ^ 48
      let may := (x.arrived.isNone || (s.gport g.val).features.getLsbD 1) && a % 4096 == 0
      let s1 := s.waitSlot p n
      gHead s g.val vc.val op = some x ∧
      here ∧
      op = 1 ∧
      txnSrc x ≠ s.part.toNat ∧
      may = true ∧
      isHbm a = false ∧
      spadOf a = some (c, o) ∧
      spadOpen s x c = true ∧
      s.spineSlotOf (cellDie c) g.val = some (n, p) ∧
      txnSrc x ≠ s1.part.toNat ∧
      s1.routeTo (txnSrc x) = some h) ∧
    (∃ (g : GPort) (vc : Vc) (s : State) (x : Txn) (op : Nat) (h : _),
      let here := txnDst x = s.part.toNat
      let a := txnAddr x % 2 ^ 48
      let may := (x.arrived.isNone || (s.gport g.val).features.getLsbD 1) && a % 4096 == 0
      gHead s g.val vc.val op = some x ∧
      here ∧
      op = 1 ∧
      txnSrc x ≠ s.part.toNat ∧
      s.routeTo (txnSrc x) = some h ∧
      (may = false ∨ (isHbm a = true ∧ hbmOpen s x a 4096 = false) ∨ (isHbm a = false ∧ ∀ c o, spadOf a = some (c, o) → spadOpen s x c = false))) ∧
    (∃ (g : GPort) (vc : Vc) (s : State) (x : Txn) (op : Nat) (id : _),
      let here := txnDst x = s.part.toNat
      let h := txnSeq x / 2 ^ 28
      gHead s g.val vc.val op = some x ∧
      here ∧
      op = 2 ∧
      (s.gport h).asked.find? (fun e => e.2.toNat == txnSeq x) = some (id, BitVec.ofNat 32 (txnSeq x)) ∧
      txnLen x ≠ 0 ∧
      txnPoison x = 0) ∧
    (∃ (g : GPort) (vc : Vc) (s : State) (x : Txn) (op : Nat) (id : _),
      let here := txnDst x = s.part.toNat
      let h := txnSeq x / 2 ^ 28
      gHead s g.val vc.val op = some x ∧
      here ∧
      op = 2 ∧
      (s.gport h).asked.find? (fun e => e.2.toNat == txnSeq x) = some (id, BitVec.ofNat 32 (txnSeq x)) ∧
      txnLen x = 0) ∧
    (∃ (g : GPort) (vc : Vc) (s : State) (x : Txn) (op : Nat),
      let here := txnDst x = s.part.toNat
      gHead s g.val vc.val op = some x ∧
      here ∧
      op = 3) ∧
    (∃ (g : GPort) (vc : Vc) (s : State) (x : Txn) (op : Nat) (n : _),
      let here := txnDst x = s.part.toNat
      let a := txnAddr x % 2 ^ 48
      gHead s g.val vc.val op = some x ∧
      here ∧
      op = 4 ∧
      barOf a = some n ∧
      ((s.barrier n).remote = true ∨ x.arrived = none) ∧
      (s.barrier n).armed = true ∧
      leAt x.body 0 8 / 2 ^ 59 % 32 = 4 ∧
      (s.barrier n).arrived + 1 ≠ (s.barrier n).latched) ∧
    (∃ (g : GPort) (vc : Vc) (s : State) (x : Txn) (op : Nat),
      let here := txnDst x = s.part.toNat
      gHead s g.val vc.val op = some x ∧
      here ∧
      op = 5 ∧
      (s.suite (mSuite (txnMsg x))).state ≠ .none) ∧
    (∃ (g : GPort) (vc : Vc) (s : State) (x : Txn) (op : Nat),
      let here := txnDst x = s.part.toNat
      gHead s g.val vc.val op = some x ∧
      here ∧
      op = 5 ∧
      (s.suite (mSuite (txnMsg x))).state = .none) :=
  ⟨⟨0, 0, (rt (rx (tx 0 7 1 (2*2^48) 64 3 (List.replicate 64 5)))), (tx 0 7 1 (2*2^48) 64 3 (List.replicate 64 5)), 0, ((0, Instr.gaconWrite 0 0)), 1, by decide +kernel⟩,
   ⟨0, 0, (win (rx (tx 0 7 1 (0x1000040) 64 3 (List.replicate 64 5)))), (tx 0 7 1 (0x1000040) 64 3 (List.replicate 64 5)), 0, 5, by decide +kernel⟩,
   ⟨0, 0, (rt (rx (tx 0 7 1 (0x1000040) 64 3 (List.replicate 64 5)))), (tx 0 7 1 (0x1000040) 64 3 (List.replicate 64 5)), 0, by decide +kernel⟩,
   ⟨0, 0, ((win (rx (tx 0 7 1 (0x010000000000+0x100) 256 3 (List.replicate 256 5)))).updPort 0 (fun q => { q with slots := [] })), (tx 0 7 1 (0x010000000000+0x100) 256 3 (List.replicate 256 5)), 0, 0, 256, by decide +kernel⟩,
   ⟨0, 0, (win (rt (rx (tx 0 7 1 (0x010000000000+0x100) 256 3 (List.replicate 256 5))))), (tx 0 7 1 (0x010000000000+0x100) 256 3 (List.replicate 256 5)), 0, 0, 256, 5, 0, by decide +kernel⟩,
   ⟨0, 0, (win (rt (rx (tx 1 7 1 (0x1001000) 4096 3 [])))), (tx 1 7 1 (0x1001000) 4096 3 []), 1, 0, 5, by decide +kernel⟩,
   ⟨0, 0, (win (rt (rx (tx 1 7 1 0x010000001000 4096 3 [])))), (tx 1 7 1 0x010000001000 4096 3 []), 1, 0, 0, 4096, 5, 0, by decide +kernel⟩,
   ⟨0, 0, ((rt (rx (tx 1 7 1 (0x1001000) 4096 3 [])))), (tx 1 7 1 (0x1001000) 4096 3 []), 1, 0, ⟨by decide +kernel, by decide +kernel, rfl, by decide +kernel, by decide +kernel, Or.inr (Or.inl (by decide +kernel))⟩⟩,
   ⟨0, 0, ((rx (tx 2 7 1 0 4096 0x12 (List.replicate 4096 6))).updGport 0 (fun q => { q with asked := [(⟨.gacon 0 0,1,false,0⟩, 0x12)] })), (tx 2 7 1 0 4096 0x12 (List.replicate 4096 6)), 2, ({ ctx := StreamCtx.gacon 0 0, serial := 1, index := false, k := 0 }), by decide +kernel⟩,
   ⟨0, 0, ((rx (tx 2 7 1 0 0 0x12 (List.replicate 4096 6))).updGport 0 (fun q => { q with asked := [(⟨.gacon 0 0,1,false,0⟩, 0x12), (⟨.gacon 0 0,1,false,1⟩, 0x13)] })), (tx 2 7 1 0 0 0x12 (List.replicate 4096 6)), 2, ({ ctx := StreamCtx.gacon 0 0, serial := 1, index := false, k := 0 }), by decide +kernel⟩,
   ⟨0, 0, (rx (tx 3 7 1 0 0 3 (leBytes 32 m1.toNat))), (tx 3 7 1 0 0 3 (leBytes 32 m1.toNat)), 3, by decide +kernel⟩,
   ⟨0, 0, ((rx (tx 4 7 1 (0x025000000000+64) 0 3 (leBytes 8 (2^61)))).setBarrier 1 { remote := true, armed := true, latched := 3 }), (tx 4 7 1 (0x025000000000+64) 0 3 (leBytes 8 (2^61))), 4, 1, by decide +kernel⟩,
   ⟨0, 0, (rx (tx 5 7 1 0 0 3 (leBytes 32 m1.toNat))), (tx 5 7 1 0 0 3 (leBytes 32 m1.toNat)), 5, by decide +kernel⟩,
   ⟨0, 0, ({ rx (tx 5 7 1 0 0 3 (leBytes 32 m1.toNat)) with suites := [] }), (tx 5 7 1 0 0 3 (leBytes 32 m1.toNat)), 5, by decide +kernel⟩⟩

/-- The hypotheses of O57 are met. -/
theorem witness_ArmAndDisarmOfABarrier :
    (∃ (s : State) (p : BitVec 6),
      (∀ g < 16, ∀ vc < 5, ∀ x, gHead s g vc 4 = some x → txnSrc x ≠ p.toNat)) ∧
    (∃ (n : BarId) (s : State) (g : GPort) (vc : Vc) (x : _),
      let b := s.barrier n.val
      gHead s g.val vc.val 4 = some x ∧
      txnDst x = s.part.toNat ∧
      barOf (txnAddr x % 2 ^ 48) = some n.val ∧
      (b.remote = true ∨ x.arrived = none) ∧
      leAt x.body 0 8 / 2 ^ 59 % 32 = 16 ∧
      b.participants ≠ 0) ∧
    (∃ (n : BarId) (s : State) (g : GPort) (vc : Vc) (x : _),
      let b := s.barrier n.val
      gHead s g.val vc.val 4 = some x ∧
      txnDst x = s.part.toNat ∧
      barOf (txnAddr x % 2 ^ 48) = some n.val ∧
      (b.remote = true ∨ x.arrived = none) ∧
      leAt x.body 0 8 / 2 ^ 59 % 32 = 8) ∧
    (∃ (n : BarId) (s : State) (src : BarSrc) (f : HostFn),
      let b := s.barrier n.val
      (src = .mgmt ∧ f = .pf ∨ ∃ k : SuiteId, src = .vf k ∧ f = .vf k ∧ s.barOwner n.val = some k.val) ∧
      b.armed = false ∧
      b.participants ≠ 0) ∧
    (∃ (n : BarId) (s : State) (src : BarSrc) (f : HostFn),
      let b := s.barrier n.val
      (src = .mgmt ∧ f = .pf ∨ ∃ k : SuiteId, src = .vf k ∧ f = .vf k ∧ s.barOwner n.val = some k.val) ∧
      b.armed = true) ∧
    (∃ (n : BarId) (s : State) (src : BarSrc) (f : HostFn),
      let b := s.barrier n.val
      (src = .mgmt ∧ f = .pf ∨ ∃ k : SuiteId, src = .vf k ∧ f = .vf k ∧ s.barOwner n.val = some k.val) ∧
      b.armed = false ∧
      b.participants = 0) ∧
    (∃ (n : BarId) (s : State) (src : BarSrc) (f : HostFn),
      (src = .mgmt ∧ f = .pf ∨ ∃ k : SuiteId, src = .vf k ∧ f = .vf k ∧ s.barOwner n.val = some k.val)) ∧
    (∃ (n : BarId) (s : State) (src : BarSrc) (f : HostFn),
      let b := s.barrier n.val
      (src = .mgmt ∧ f = .pf ∨ ∃ k : SuiteId, src = .vf k ∧ f = .vf k ∧ s.barOwner n.val = some k.val) ∧
      s.answers f = true ∧
      b.armed = true) :=
  ⟨⟨State.reset, (0x0#6), by decide +kernel⟩,
   ⟨1, ((rx (tx 4 7 1 (0x025000000000+64) 0 3 (leBytes 8 (2^63)))).setBarrier 1 { remote := true, armed := false, participants := 3, gen := 4 }), 0, 0, ({ hdr := 0x300000000000002500000004001000704#256, body := leBytes 8 0x8000000000000000, arrived := some 0, suite := none }), by decide +kernel⟩,
   ⟨1, ((rx (tx 4 7 1 (0x025000000000+64) 0 3 (leBytes 8 (2^62)))).setBarrier 1 { remote := true, armed := true, latched := 3, arrived := 2 }), 0, 0, ({ hdr := 0x300000000000002500000004001000704#256, body := leBytes 8 0x4000000000000000, arrived := some 0, suite := none }), by decide +kernel⟩,
   ⟨0, base.setBarrier 0 { participants := 2 }, .mgmt, .pf, by decide +kernel⟩,
   ⟨0, (base.setBarrier 0 { armed := true, latched := 3, arrived := 1, gen := 3 }), BarSrc.mgmt, HostFn.pf, by decide +kernel⟩,
   ⟨0, State.reset, BarSrc.mgmt, HostFn.pf, by decide +kernel⟩,
   ⟨0, State.reset, BarSrc.mgmt, HostFn.pf, by decide +kernel⟩,
   ⟨0, (base.setBarrier 0 { armed := true, latched := 3, arrived := 1, gen := 3 }), BarSrc.mgmt, HostFn.pf, by decide +kernel⟩⟩

end Links

/-! ### Mailbox commands and rings -/

namespace Mailbox

def base : State := runningPart (cellWith [word 0 0 0 0 1 0 0] [])

def ent (op : Nat) (l : List (Nat × Nat × Nat)) : List Byte := leBytes 64 (op + 7 * 2^32 + 1 * 2^48 + (l.map (fun e => (e.2.2 % 2^(8*e.2.1)) * 2^(8*e.1))).sum)

def ent0 (op : Nat) (l : List (Nat × Nat × Nat)) : List Byte := leBytes 64 (op + 7 * 2^32 + (l.map (fun e => (e.2.2 % 2^(8*e.2.1)) * 2^(8*e.1))).sum)

def tk (op : Nat) (l : List (Nat × Nat × Nat)) (sess := 1) : Taken := ⟨5, .pf, BitVec.ofNat 16 op, false, 7, BitVec.ofNat 16 sess, if sess = 0 then ent0 op l else ent op l, false, false, none⟩

def mb (s : State) (t : Taken) : State := { s with mbox := { rings := [(0, {enable := true, tail := 3}), (1, {enable := true, phase := true})], sessions := [(1, ⟨0x0302, 1⟩)], sessionGen := 1, taken := [t], nextTicket := 6 } }

def ready : State := { base with devState := .ready }

def co (op : Nat) (l : List (Nat × Nat × Nat)) (s : State := base) (sess := 1) : State := mb s (tk op l sess)

def su (f : Suite → Suite) (s : State := base) : State := s.updSuite 0 (fun u => f { u with windows := [⟨false, true,true,false,0,0,1,1⟩], seqBlocks := [0] })

def ls (l : Lease) (s : State) : State := { s with mbox := { s.mbox with leases := [(leaseIx 1 5, l)] } }

def pres (s : State := base) : State := { s with mgmt := { s.mgmt with present := true } }

def srv (s : State := base) : State := su (fun u => { u with serving := true, sb := { u.sb with rings := [(0, { enable := true })], log2pt := 4 } }) s

def subl : List (Nat × Nat × Nat) := [(8,1,0),(9,1,1),(10,2,0xFFFF),(12,4,40),(16,8,0x55),(24,4,8),(28,4,0x3F800000),(32,6,0x1000000),(38,1,5),(40,6,0x1000400),(48,4,0x3F000000),(56,8,3)]

def dl (m : Metering → Metering) (s : State := base) : State := { s with metering := m s.metering }

def logd (s : State := base) : State := { s with devLog := { next := 4, records := [(2, 22), (3, 33)] } }

def drn (m : Nat) (s : State := base) : State := { s with devState := .draining, drainMode := m }

/-- The hypotheses of O43 are met. -/
theorem witness_SessionsLeasesAndLogs :
    (∃ (x : Taken) (s : State) (v : _) (k : _),
      mayAnswer s x 1 (whole 8 4 ++ [(12, 1)]) ∧
      param x 12 1 = 0 ∧
      param x 8 2 ≤ param x 10 2 ∧
      versions.find? (fun v => decide (param x 8 2 ≤ v) && decide (v ≤ param x 10 2)) = some v ∧
      (List.range 16).find? (fun k => !s.mbox.sessions.any (fun e => e.1 == k + 1)) = some k) ∧
    (∃ (x : Taken) (s : State),
      mayAnswer s x 1 (whole 8 4 ++ [(12, 1)]) ∧
      param x 8 2 ≤ param x 10 2 ∧
      (∀ v ∈ versions, v < param x 8 2 ∨ param x 10 2 < v)) ∧
    (∃ (x : Taken) (s : State),
      mayAnswer s x 2 [] ∧
      sessionOpen s x = true ∧
      sorted s.mbox.sessions = true) ∧
    (∃ (x : Taken) (s : State),
      mayAnswer s x 3 []) ∧
    (∃ (x : Taken) (s : State),
      let l := sget {} s.mbox.leases (leaseIx (param x 8 1) (param x 12 4))
      mayAnswer s x 0x52 (whole 8 1 ++ whole 12 4) ∧
      param x 8 1 ≠ 0 ∧
      leaseOk s (param x 8 1) (param x 12 4) = true ∧
      l.held = false ∧
      l.broken = false) ∧
    (∃ (x : Taken) (s : State),
      let l := sget {} s.mbox.leases (leaseIx (param x 8 1) (param x 12 4))
      mayAnswer s x 0x53 (whole 8 1 ++ whole 12 4) ∧
      leaseOk s (param x 8 1) (param x 12 4) = true ∧
      l.held = true ∧
      l.session = x.session) ∧
    (∃ (x : Taken) (s : State),
      let l := logRecords s.devLog (param x 12 4) (param x 24 4 / 32)
      mayAnswer s x 0x60 (whole 8 2 ++ whole 12 16) ∧
      param x 8 1 = 0 ∧
      l ≠ []) ∧
    (∃ (x : Taken) (s : State),
      mayAnswer s x 0x33 (whole 8 1 ++ whole 12 4 ++ whole 16 12) ∧
      param x 8 1 = 0xFF) ∧
    (∃ (x : Taken) (s : State),
      mayAnswer s x 0x34 (whole 8 8)) :=
  ⟨⟨(ticketOf (co 1 [(8,2,0x0200),(10,2,0x0301)] base 0)), (co 1 [(8,2,0x0200),(10,2,0x0301)] base 0), 769, 1, by unfold mayAnswer; decide +kernel⟩,
   ⟨(ticketOf (co 1 [(8,2,0x0100),(10,2,0x01FF)] base 0)), (co 1 [(8,2,0x0100),(10,2,0x01FF)] base 0), by unfold mayAnswer; decide +kernel⟩,
   ⟨(ticketOf (ls { held := true, session := 1 } (co 2 []))), (ls { held := true, session := 1 } (co 2 [])), by unfold mayAnswer; decide +kernel⟩,
   ⟨(ticketOf (co 3 [])), (co 3 []), by unfold mayAnswer; decide +kernel⟩,
   ⟨(ticketOf (co 0x52 [(8,1,1),(12,4,5)])), (co 0x52 [(8,1,1),(12,4,5)]), by unfold mayAnswer; decide +kernel⟩,
   ⟨(ticketOf (ls { held := true, session := 1 } (co 0x53 [(8,1,1),(12,4,5)]))), (ls { held := true, session := 1 } (co 0x53 [(8,1,1),(12,4,5)])), by unfold mayAnswer; decide +kernel⟩,
   ⟨(ticketOf (co 0x60 [(8,1,0),(12,4,3),(16,8,0x5000),(24,4,64)] logd)), (co 0x60 [(8,1,0),(12,4,3),(16,8,0x5000),(24,4,64)] logd), by unfold mayAnswer; decide +kernel⟩,
   ⟨(ticketOf (co 0x33 [(8,1,0xFF),(12,4,0),(16,8,0x5000),(24,4,4)] (dl (fun m => { m with nextSeq := 2, ring := [(0, leBytes 256 3), (1, leBytes 256 9)] })))), (co 0x33 [(8,1,0xFF),(12,4,0),(16,8,0x5000),(24,4,4)] (dl (fun m => { m with nextSeq := 2, ring := [(0, leBytes 256 3), (1, leBytes 256 9)] }))), by unfold mayAnswer; decide +kernel⟩,
   ⟨(ticketOf (co 0x34 [(8,8,0x1234)])), (co 0x34 [(8,8,0x1234)]), by unfold mayAnswer; decide +kernel⟩⟩

/-- The hypotheses of O44 are met. -/
theorem witness_SuitesAreCreatedLoadedRunAndStopped :
    (∃ (x : Taken) (s : State),
      let i := param x 8 1
      mayAnswer s x 0x13 (whole 8 1) ∧
      0x0300 ≤ s.versionOf x ∧
      suiteGate s i [.loaded, .stopped, .faulted] = none) ∧
    (∃ (x : Taken) (s : State),
      let i := param x 8 1
      mayAnswer s x 0x11 (whole 8 1) ∧
      suiteGate s i [.empty, .loaded, .stopped, .faulted] = none) ∧
    (∃ (x : Taken) (s : State),
      let i := param x 8 1
      mayAnswer s x 0x14 (whole 8 1) ∧
      suiteGate s i [.loaded, .stopped] = none) ∧
    (∃ (x : Taken) (s : State),
      let i := param x 8 1
      mayAnswer s x 0x15 [(8, 255), (9, 1)] ∧
      forces s x = false ∧
      suiteGate s i [.running] = none ∧
      (s.suite i).stopping = false ∧
      (s.suite i).serving = false) ∧
    (∃ (x : Taken) (s : State),
      let i := param x 8 1
      mayAnswer s x 0x15 [(8, 255), (9, 1)] ∧
      forces s x = false ∧
      suiteGate s i [.running] = none ∧
      (s.suite i).stopping = false ∧
      (s.suite i).serving = true ∧
      (s.suite i).feeder.isOpen = false ∧
      (s.suite i).sb.closed = none ∧
      (s.suite i).feeder.next = (s.suite i).sb.stepFirst ∧
      (s.suite i).feeder.phase = 2 ∧
      s.mbox.taken = [x]) ∧
    (∃ (x : Taken) (s : State),
      let i := param x 8 1
      mayAnswer s x 0x15 [(8, 255), (9, 1)] ∧
      forces s x = true ∧
      suiteGate s i [.running, .stopped, .faulted] = none) :=
  ⟨⟨(ticketOf (co 0x13 [(8,1,0)] (su (fun u => { u with state := .loaded })))), (co 0x13 [(8,1,0)] (su (fun u => { u with state := .loaded }))), by unfold mayAnswer; decide +kernel⟩,
   ⟨(ticketOf (co 0x11 [(8,1,0)] (su (fun u => { u with state := .stopped })))), (co 0x11 [(8,1,0)] (su (fun u => { u with state := .stopped }))), by unfold mayAnswer; decide +kernel⟩,
   ⟨(ticketOf (co 0x14 [(8,1,0)] (su (fun u => { u with state := .loaded })))), (co 0x14 [(8,1,0)] (su (fun u => { u with state := .loaded }))), by unfold mayAnswer; decide +kernel⟩,
   ⟨(ticketOf (co 0x15 [(8,1,0)])), (co 0x15 [(8,1,0)]), by unfold mayAnswer; decide +kernel⟩,
   ⟨(ticketOf (co 0x15 [(8,1,0)])), (co 0x15 [(8,1,0)] (su (fun u => { u with serving := true, feeder := { phase := 2 } }))), by unfold mayAnswer; decide +kernel⟩,
   ⟨(ticketOf (co 0x15 [(8,1,0),(9,1,1)])), (co 0x15 [(8,1,0),(9,1,1)]), by unfold mayAnswer; decide +kernel⟩⟩

/-- The hypotheses of O45 are met. -/
theorem witness_SequencesPoliciesAndConfiguration :
    (∃ (x : Taken) (s : State) (k : _),
      let u := s.suite ((cmdSuite x).getD 0)
      let submitUsed := [(8, 255), (9, if s.versionOf x < 0x0300 then 255 else 63)] ++ whole 10 29 ++ whole 40 6 ++ whole 48 4 ++ whole 56 8
      let why := submitRefusal u (submitted s x) (param x 38 1)
      mayAnswer s x 0x20 submitUsed ∧
      suiteGate s ((cmdSuite x).getD 0) [.loaded, .running, .stopped] = none ∧
      u.sb.closed = none ∧
      (firstEntry s u .free).orElse (fun _ => firstEntry s u .done) = some k ∧
      why = 0) ∧
    (∃ (x : Taken) (s : State),
      let u := s.suite ((cmdSuite x).getD 0)
      let submitUsed := [(8, 255), (9, if s.versionOf x < 0x0300 then 255 else 63)] ++ whole 10 29 ++ whole 40 6 ++ whole 48 4 ++ whole 56 8
      let why := submitRefusal u (submitted s x) (param x 38 1)
      mayAnswer s x 0x20 submitUsed ∧
      suiteGate s ((cmdSuite x).getD 0) [.loaded, .running, .stopped] = none ∧
      u.sb.closed = none ∧
      why ≠ 0 ∧
      0x0300 ≤ s.versionOf x) ∧
    (∃ (x : Taken) (s : State),
      let u := s.suite ((cmdSuite x).getD 0)
      let submitUsed := [(8, 255), (9, if s.versionOf x < 0x0300 then 255 else 63)] ++ whole 10 29 ++ whole 40 6 ++ whole 48 4 ++ whole 56 8
      let why := submitRefusal u (submitted s x) (param x 38 1)
      mayAnswer s x 0x20 submitUsed ∧
      suiteGate s ((cmdSuite x).getD 0) [.loaded, .running, .stopped] = none ∧
      u.sb.closed = none ∧
      firstEntry s u .free = none ∧
      firstEntry s u .done = none ∧
      why = 0 ∧
      0x0300 ≤ s.versionOf x) ∧
    (∃ (x : Taken) (s : State),
      let u := s.suite ((cmdSuite x).getD 0)
      let k := param x 12 4
      mayAnswer s x 0x21 (whole 8 1 ++ whole 12 12) ∧
      suiteGate s ((cmdSuite x).getD 0) [.loaded, .running, .stopped] = none ∧
      u.sb.closed = none ∧
      u.seqBlocks.contains (k / 1024) = true ∧
      (takesToken (s.seqEntry k) = true ∨ (s.seqEntry k).state = .queued) ∧
      (s.seqEntry k).hostTag.toNat = param x 16 8 ∧
      sorted s.seqs = true) ∧
    (∃ (x : Taken) (s : State),
      mayAnswer s x 0x30 policyBytes ∧
      param x 8 1 = 0 ∧
      1500 ≤ param x 12 2 ∧
      param x 12 2 ≤ 3000) ∧
    (∃ (x : Taken) (s : State),
      let alive := [SuiteState.empty, .loaded, .running, .stopped, .faulted]
      mayAnswer s x 0x30 policyBytes ∧
      param x 8 1 = 1 ∧
      suiteGate s (param x 9 1) alive = none ∧
      param x 14 1 ≤ param x 15 1 ∧
      param x 15 1 ≤ 3) ∧
    (∃ (x : Taken) (s : State),
      mayAnswer s x 0x30 policyBytes ∧
      param x 8 1 = 2 ∧
      param x 16 1 ≤ 3) ∧
    (∃ (x : Taken) (s : State),
      let i := param x 8 1
      let alive := [SuiteState.empty, .loaded, .running, .stopped, .faulted]
      mayAnswer s x 0x31 ([(8, 255), (9, 1)] ++ whole 12 3 ++ whole 16 2) ∧
      suiteGate s i alive = none ∧
      param x 14 1 ≤ 7 ∧
      (param x 12 2 ∈ suiteCells s i) ∧
      (nbit (param x 16 2) 14 = false ∨ param x 14 1 % 2 = 1) ∧
      param x 12 2 ≠ 0xFFFF) ∧
    (∃ (x : Taken) (s : State) (w : _),
      let i := param x 8 1
      let alive := [SuiteState.empty, .loaded, .running, .stopped, .faulted]
      mayAnswer s x 0x32 ([(8, 255), (9, 1)] ++ whole 12 6 ++ whole 20 8) ∧
      suiteGate s i alive = none ∧
      (s.suite i).windows[param x 16 2]? = some w ∧
      256 ≤ param x 12 4 ∧
      param x 12 4 ≤ 16777215 ∧
      param x 24 4 % 128 = 0 ∧
      param x 20 4 * 4096 + 32 * param x 24 4 ≤ w.extents * 2 ^ 24 ∧
      hasWriteSlot s i w.stack = true) :=
  ⟨⟨(ticketOf (co 0x20 subl srv)), (co 0x20 subl srv), 0, by unfold mayAnswer; decide +kernel⟩,
   ⟨(ticketOf (mb srv { (tk 0x20 subl 0) with fn := .vf 0 })), ((mb base { (tk 0x20 subl 0) with fn := .vf 0 }).setRing (.vf 0) true {enable := true}), by unfold mayAnswer; decide +kernel⟩,
   ⟨ticketOf ((co 0x20 subl srv).updSuite 0 (fun u => { u with seqBlocks := [] })), (co 0x20 subl srv).updSuite 0 (fun u => { u with seqBlocks := [] }), by unfold mayAnswer; decide +kernel⟩,
   ⟨(ticketOf (co 0x21 [(8,1,0),(12,4,3),(16,8,0x55)] (srv.setSeqEntry 3 { state := .decode, hostTag := 0x55, position := 9 }))), (co 0x21 [(8,1,0),(12,4,3),(16,8,0x55)] (srv.setSeqEntry 3 { state := .decode, hostTag := 0x55, position := 9 })), by unfold mayAnswer; decide +kernel⟩,
   ⟨(ticketOf (co 0x30 [(8,1,0),(12,2,2000)])), (co 0x30 [(8,1,0),(12,2,2000)]), by unfold mayAnswer; decide +kernel⟩,
   ⟨(ticketOf (co 0x30 [(8,1,1),(9,1,0),(14,1,1),(15,1,2)])), (co 0x30 [(8,1,1),(9,1,0),(14,1,1),(15,1,2)]), by unfold mayAnswer; decide +kernel⟩,
   ⟨(ticketOf (co 0x30 [(8,1,2),(16,1,2)])), (co 0x30 [(8,1,2),(16,1,2)]), by unfold mayAnswer; decide +kernel⟩,
   ⟨(ticketOf (co 0x31 [(8,1,0),(9,1,1),(12,2,1),(14,1,1),(16,2,0xC005)])), (co 0x31 [(8,1,0),(9,1,1),(12,2,1),(14,1,1),(16,2,0xC005)]), by unfold mayAnswer; decide +kernel⟩,
   ⟨(ticketOf (co 0x32 [(8,1,0),(9,1,1),(12,4,300),(16,2,0),(20,4,1),(24,4,128)] ((su id).updPort 0 (fun q => putSlot q 2 0x8000)))), (co 0x32 [(8,1,0),(9,1,1),(12,4,300),(16,2,0),(20,4,1),(24,4,128)] ((su id).updPort 0 (fun q => putSlot q 2 0x8000))), ({ host := false, remoteRd := true, remoteWr := true, stepRing := false, vport := 0, stack := 0, base := 1, extents := 1 }), by unfold mayAnswer; decide +kernel⟩⟩

/-- The hypotheses of O46 are met. -/
theorem witness_KeysAndDebugUnlock :
    (∃ (x : Taken) (s : State) (b : List Byte),
      let n := param x 9 1
      let op := param x 8 1
      let ready := mayAnswer s x 0x50 keyBytes ∧ s.mgmt.present = true
      ready ∧
      op = 0 ∧
      n < 4 ∧
      param x 24 4 = 32 ∧
      32 ≤ b.length ∧
      s.keys.fk.any (fun e => e.1 == n) = false ∧
      s.keys.fkRevoked.getLsbD n = false) ∧
    (∃ (x : Taken) (s : State),
      let n := param x 9 1
      let op := param x 8 1
      mayAnswer s x 0x50 keyBytes ∧
      s.mgmt.present = false ∧
      op = 0 ∧
      n < 4) ∧
    (∃ (x : Taken) (s : State) (b : List Byte),
      let n := param x 9 1
      let op := param x 8 1
      let ready := mayAnswer s x 0x50 keyBytes ∧ s.mgmt.present = true
      ready ∧
      op = 1 ∧
      n < 2 ∧
      param x 24 4 = 32 ∧
      32 ≤ b.length ∧
      s.power.vbatGood = true ∧
      s.mgmt.loopOpen = false) ∧
    (∃ (x : Taken) (s : State),
      let n := param x 9 1
      let op := param x 8 1
      mayAnswer s x 0x50 keyBytes ∧
      op = 2 ∧
      n < 2 ∧
      param x 24 4 = 0) ∧
    (∃ (x : Taken) (s : State) (b : List Byte),
      let n := param x 9 1
      let op := param x 8 1
      let ready := mayAnswer s x 0x50 keyBytes ∧ s.mgmt.present = true
      ready ∧
      op = 3 ∧
      n < 4 ∧
      param x 24 4 = 49 ∧
      49 ≤ b.length ∧
      (signerOf s n).valid = false ∧
      (signerOf s n).revoked = false) ∧
    (∃ (x : Taken) (s : State),
      let n := param x 9 1
      let op := param x 8 1
      let ready := mayAnswer s x 0x50 keyBytes ∧ s.mgmt.present = true
      ready ∧
      op = 4 ∧
      n < 4 ∧
      param x 24 4 = 0 ∧
      (signerOf s n).revoked = false) ∧
    (∃ (x : Taken) (s : State),
      let n := param x 9 1
      let op := param x 8 1
      let ready := mayAnswer s x 0x50 keyBytes ∧ s.mgmt.present = true
      ready ∧
      op = 5 ∧
      n < 4 ∧
      param x 24 4 = 0 ∧
      s.keys.fkRevoked.getLsbD n = false) ∧
    (∃ (x : Taken) (s : State) (b : List Byte),
      let n := param x 9 1
      let op := param x 8 1
      let ready := mayAnswer s x 0x50 keyBytes ∧ s.mgmt.present = true
      ready ∧
      op = 6 ∧
      n < 4 ∧
      param x 24 4 = 1 ∧
      1 ≤ b.length ∧
      (signerOf s n).svnFloor < b.getD 0 0) ∧
    (∃ (x : Taken) (s : State) (b : List Byte),
      let n := param x 9 1
      let op := param x 8 1
      let ready := mayAnswer s x 0x50 keyBytes ∧ s.mgmt.present = true
      ready ∧
      op = 7 ∧
      n = 0 ∧
      param x 24 4 = 1 ∧
      1 ≤ b.length ∧
      s.fw.svnMin < b.getD 0 0 ∧
      b.getD 0 0 ≤ s.fw.svnCur) ∧
    (∃ (x : Taken) (s : State) (b : List Byte),
      let op := param x 8 1
      mayAnswer s x 0x51 (whole 8 1 ++ whole 16 8) ∧
      s.mgmt.present = true ∧
      op ≤ 1 ∧
      200 ≤ b.length ∧
      tokenGood s op (b.take 200) = false) :=
  ⟨⟨(ticketOf (co 0x50 [(8,1,0),(9,1,1),(24,4,32)] pres)), (co 0x50 [(8,1,0),(9,1,1),(24,4,32)] pres), (leBytes 64 0x9), by unfold mayAnswer; decide +kernel⟩,
   ⟨(ticketOf (co 0x50 [(8,1,0),(9,1,1),(24,4,32)] pres)), (co 0x50 [(8,1,0),(9,1,1),(24,4,32)]), by unfold mayAnswer; decide +kernel⟩,
   ⟨(ticketOf (co 0x50 [(8,1,1),(9,1,1),(24,4,32)] { pres with power := { pres.power with vbatGood := true } })), (co 0x50 [(8,1,1),(9,1,1),(24,4,32)] { pres with power := { pres.power with vbatGood := true } }), (leBytes 64 0x9), by unfold mayAnswer; decide +kernel⟩,
   ⟨(ticketOf (co 0x50 [(8,1,2),(9,1,1)] { base with keys := { base.keys with bbk1 := some [3] } })), (co 0x50 [(8,1,2),(9,1,1)] { base with keys := { base.keys with bbk1 := some [3] } }), by unfold mayAnswer; decide +kernel⟩,
   ⟨(ticketOf (co 0x50 [(8,1,3),(9,1,1),(24,4,49)] pres)), (co 0x50 [(8,1,3),(9,1,1),(24,4,49)] pres), (leBytes 64 0x9), by unfold mayAnswer; decide +kernel⟩,
   ⟨(ticketOf (co 0x50 [(8,1,4),(9,1,1)] pres)), (co 0x50 [(8,1,4),(9,1,1)] pres), by unfold mayAnswer; decide +kernel⟩,
   ⟨(ticketOf (co 0x50 [(8,1,5),(9,1,1)] pres)), (co 0x50 [(8,1,5),(9,1,1)] pres), by unfold mayAnswer; decide +kernel⟩,
   ⟨(ticketOf (co 0x50 [(8,1,6),(9,1,1),(24,4,1)] pres)), (co 0x50 [(8,1,6),(9,1,1),(24,4,1)] pres), (leBytes 64 0x9), by unfold mayAnswer; decide +kernel⟩,
   ⟨(ticketOf (co 0x50 [(8,1,7),(9,1,0),(24,4,1)] { pres with fw := { pres.fw with svnCur := 200 } })), (co 0x50 [(8,1,7),(9,1,0),(24,4,1)] { pres with fw := { pres.fw with svnCur := 200 } }), (leBytes 64 0x9), by unfold mayAnswer; decide +kernel⟩,
   ⟨(ticketOf (co 0x51 [(8,1,1)] pres)), (co 0x51 [(8,1,1)] pres), (List.replicate 200 7), by unfold mayAnswer; decide +kernel⟩⟩

/-- The hypotheses of O47 are met. -/
theorem witness_FirmwareMovesThroughItsSlots :
    (∃ (x : Taken) (s : State) (d : List Byte),
      let f := s.fw
      let p := bootPtr f
      let b := slotB f
      mayAnswer s x 0x40 (whole 8 16) ∧
      s.devState ≠ .safe ∧
      p.trial = false ∧
      param x 20 4 + param x 16 4 ≤ 2 ^ 26 ∧
      param x 16 4 ≤ d.length ∧
      Memory.wf (slotBytes f b) = true ∧
      f.shipped ≠ some b) ∧
    (∃ (x : Taken) (s : State),
      let f := s.fw
      let p := bootPtr f
      let b := slotB f
      mayAnswer s x 0x41 [] ∧
      p.trial = false ∧
      f.bState ≠ 0 ∧
      slotGood f b = true ∧
      f.svnMin ≤ slotSvn f b) ∧
    (∃ (x : Taken) (s : State),
      let f := s.fw
      let p := bootPtr f
      let b := slotB f
      mayAnswer s x 0x41 [] ∧
      p.trial = false ∧
      f.bState ≠ 0 ∧
      slotGood f b = false) ∧
    (∃ (x : Taken) (s : State),
      let f := s.fw
      let p := bootPtr f
      mayAnswer s x 0x42 [] ∧
      s.devState ≠ .safe ∧
      p.trial = false ∧
      anyRunning s = false ∧
      f.bState = 2 ∧
      f.svnCur ≤ f.svnB ∧
      p.seqNo ≠ 0xFFFFFFFF) ∧
    (∃ (x : Taken) (s : State),
      let f := s.fw
      let p := bootPtr f
      mayAnswer s x 0x43 [] ∧
      p.trial = true ∧
      p.seqNo ≠ 0xFFFFFFFF) :=
  ⟨⟨(ticketOf (co 0x40 [(8,8,0),(16,4,3),(20,4,5)])), (co 0x40 [(8,8,0),(16,4,3),(20,4,5)]), (leBytes 64 0x9), by unfold mayAnswer; decide +kernel⟩,
   ⟨(ticketOf (co 0x41 [] { base with fw := { base.fw with bState := 1, shipped := some true, svnB := 5 } })), (co 0x41 [] { base with fw := { base.fw with bState := 1, shipped := some true, svnB := 5 } }), by unfold mayAnswer; decide +kernel⟩,
   ⟨(ticketOf (co 0x41 [] { base with fw := { base.fw with bState := 1, shipped := some true, svnB := 5 } })), (co 0x41 [] { base with fw := { base.fw with bState := 1 } }), by unfold mayAnswer; decide +kernel⟩,
   ⟨(ticketOf (co 0x42 [] { ready with suites := [], fw := { base.fw with bState := 2, svnB := 3 } })), (co 0x42 [] { ready with suites := [], fw := { base.fw with bState := 2, svnB := 3 } }), by unfold mayAnswer; decide +kernel⟩,
   ⟨(ticketOf (co 0x43 [] { base with fw := { base.fw with ptr0 := { ok := true, trial := true, trialsLeft := 2, seqNo := 4 }, svnB := 7 } })), (co 0x43 [] { base with fw := { base.fw with ptr0 := { ok := true, trial := true, trialsLeft := 2, seqNo := 4 }, svnB := 7 } }), by unfold mayAnswer; decide +kernel⟩⟩

/-- The hypotheses of O48 are met. -/
theorem witness_ResetsAndDrainsEndSuites :
    (∃ (x : Taken) (s : State),
      let bytes := whole 8 1
      mayAnswer s x 0x70 bytes ∧
      resetMode x = 0) ∧
    (∃ (x : Taken) (s : State),
      let bytes := whole 8 1
      mayAnswer s x 0x70 bytes ∧
      resetMode x = 4 ∧
      0x0300 ≤ s.versionOf x) ∧
    (∃ (x : Taken) (s : State),
      let bytes := whole 8 1
      mayAnswer s x 0x70 bytes ∧
      resetMode x = 3 ∧
      s.mgmt.present = true) ∧
    (∃ (s : State),
      s.devState ≠ .off ∧
      s.devState ≠ .maceration) ∧
    (∃ (x : Taken) (s : State),
      let bytes := whole 8 1
      let alone := ∀ e ∈ s.mbox.taken, e.ticket = x.ticket → e = x
      mayAnswer s x 0x70 bytes ∧
      resetMode x = 1 ∧
      alone) ∧
    (∃ (x : Taken) (s : State),
      let bytes := whole 8 1
      let alone := ∀ e ∈ s.mbox.taken, e.ticket = x.ticket → e = x
      mayAnswer s x 0x70 bytes ∧
      resetMode x = 2 ∧
      s.quiesced = false ∧
      alone) ∧
    (∃ (s : State) (i : SuiteId),
      s.devState = .draining ∧
      s.quiesced = false ∧
      (s.suite i.val).state = .running) ∧
    (∃ (s : State),
      s.devState = .draining ∧
      s.quiesced = false ∧
      anyRunning s = false ∧
      gaconDrained s = true ∧
      writesDrained s = true ∧
      s.drainMode = 1) ∧
    (∃ (x : Taken) (s : State),
      s.devState = .draining ∧
      s.quiesced = false ∧
      anyRunning s = false ∧
      gaconDrained s = true ∧
      writesDrained s = true ∧
      s.drainMode = 2 ∧
      s.mbox.taken = [x] ∧
      x.running = true ∧
      x.opcode = 0x70 ∧
      x.lost = false ∧
      (s.ring x.fn true).enable = true) ∧
    (∃ (s : State),
      (s.devState = .ready ∨ s.devState = .active ∨ s.devState = .draining)) :=
  ⟨⟨(ticketOf (co 0x70 [(8,1,0)])), (co 0x70 [(8,1,0)]), by unfold mayAnswer; decide +kernel⟩,
   ⟨(ticketOf (co 0x70 [(8,1,4)])), (co 0x70 [(8,1,4)]), by unfold mayAnswer; decide +kernel⟩,
   ⟨(ticketOf (co 0x70 [(8,1,3)] pres)), (co 0x70 [(8,1,3)] pres), by unfold mayAnswer; decide +kernel⟩,
   ⟨base, by decide +kernel⟩,
   ⟨(ticketOf (co 0x70 [(8,1,1)])), (co 0x70 [(8,1,1)]), by unfold mayAnswer; decide +kernel⟩,
   ⟨(ticketOf (co 0x70 [(8,1,2)])), (co 0x70 [(8,1,2)]), by unfold mayAnswer; decide +kernel⟩,
   ⟨(drn 1), 0, by decide +kernel⟩,
   ⟨({ drn 1 with suites := [] }), by decide +kernel⟩,
   ⟨({ ticket := 5, fn := HostFn.pf, opcode := 0x70#16, noint := false, cmdId := 0x7#16, session := 0x1#16, params := leBytes 64 0x20001000700000070, running := true, lost := false, version := none }), ({ mb (drn 2) { tk 0x70 [(8,1,2)] with running := true } with suites := [] }), by decide +kernel⟩,
   ⟨base, by decide +kernel⟩⟩

/-- The hypotheses of O49 are met. -/
theorem witness_RingsFetchAndFunctionResets :
    (∃ (f : HostFn) (s : State),
      s.answers f = false) ∧
    (∃ (f : HostFn) (s : State),
      s.answers f = true) ∧
    (∃ (f : HostFn) (s : State),
      s.answers f = true) ∧
    (∃ (f : HostFn) (s : State) (cpl : Bool) (v : W64),
      s.answers f = true ∧
      (s.ring f cpl).enable = false ∧
      v.getLsbD 4 = true ∧
      4 ≤ (fld v 0 4).toNat ∧
      (fld v 0 4).toNat ≤ 12) ∧
    (∃ (f : HostFn) (s : State) (v : W64),
      s.answers f = true ∧
      v.getLsbD 4 = false) ∧
    (∃ (f : HostFn) (s : State) (b : List Byte),
      let q := s.ring f false
      let c := s.ring f true
      s.answers f = true ∧
      mailboxOpen s = true ∧
      q.enable = true ∧
      q.head ≠ q.tail ∧
      c.enable = true ∧
      ringUsed s f + 1 < ringSize c ∧
      (cmdSince (leAt (slice b 0 64) 0 2)).isSome = true) ∧
    (∃ (f : HostFn) (s : State) (b : List Byte),
      let q := s.ring f false
      let c := s.ring f true
      s.answers f = true ∧
      mailboxOpen s = true ∧
      q.enable = true ∧
      q.head ≠ q.tail ∧
      c.enable = true ∧
      ringUsed s f + 1 < ringSize c ∧
      (cmdSince (leAt (slice b 0 64) 0 2)).isNone = true ∧
      (∀ e ∈ s.mbox.taken, e.ticket < s.mbox.nextTicket) ∧
      (∃ e ∈ s.mbox.taken, e.fn = f ∧ e.running = false)) ∧
    (∃ (f : HostFn) (s : State) (b : List Byte),
      let q := s.ring f false
      let c := s.ring f true
      s.answers f = true ∧
      mailboxOpen s = true ∧
      q.enable = true ∧
      q.head ≠ q.tail ∧
      c.enable = true ∧
      ringUsed s f + 1 < ringSize c ∧
      (cmdSince (leAt (slice b 0 64) 0 2)).isNone = true ∧
      (∀ e ∈ s.mbox.taken, e.ticket < s.mbox.nextTicket) ∧
      (∀ e ∈ s.mbox.taken, e.fn = f → e.running = true)) ∧
    (∃ (f : HostFn) (s : State),
      let q := s.ring f false
      q.head = q.tail) :=
  ⟨⟨HostFn.pf, State.reset, by decide +kernel⟩,
   ⟨HostFn.pf, base, by decide +kernel⟩,
   ⟨HostFn.pf, base, by decide +kernel⟩,
   ⟨HostFn.pf, base, true, (0x5015#64), by decide +kernel⟩,
   ⟨HostFn.pf, base, (0x0#64), by decide +kernel⟩,
   ⟨HostFn.pf, (co 1 [(8,2,0x0200),(10,2,0x0301)] base 0), (leBytes 64 0x1000700000014), by decide +kernel⟩,
   ⟨HostFn.pf, (co 1 [(8,2,0x0200),(10,2,0x0301)] base 0), [], by decide +kernel⟩,
   ⟨HostFn.pf, (mb srv { (tk 0x20 subl 0) with fn := .vf 0 }), [], by decide +kernel⟩,
   ⟨HostFn.pf, State.reset, by decide +kernel⟩⟩

/-- The hypotheses of O50 are met. -/
theorem witness_TargetStateAlreadyHoldsIsOk :
    (∃ (x : Taken) (s : State),
      let i := param x 8 1
      mayAnswer s x 0x14 (whole 8 1) ∧
      i < 32 ∧
      (s.suite i).state = .running) ∧
    (∃ (x : Taken) (s : State),
      let i := param x 8 1
      mayAnswer s x 0x15 [(8, 255), (9, 1)] ∧
      forces s x = false ∧
      i < 32 ∧
      ((s.suite i).state = .stopped ∨ (s.suite i).state = .running ∧ (s.suite i).stopping = true)) ∧
    (∃ (x : Taken) (s : State),
      let i := param x 8 1
      mayAnswer s x 0x13 (whole 8 1) ∧
      0x0300 ≤ s.versionOf x ∧
      i < 32 ∧
      (s.suite i).state = .empty) ∧
    (∃ (x : Taken) (s : State),
      mayAnswer s x 0x02 [] ∧
      sessionOpen s x = false) ∧
    (∃ (x : Taken) (s : State),
      mayAnswer s x 0x70 (whole 8 1) ∧
      resetMode x = 2 ∧
      s.quiesced = true) ∧
    (∃ (x : Taken) (s : State),
      let k := param x 12 4
      mayAnswer s x 0x21 (whole 8 1 ++ whole 12 12) ∧
      suiteGate s ((cmdSuite x).getD 0) [.loaded, .running, .stopped] = none ∧
      (s.suite ((cmdSuite x).getD 0)).sb.closed = none ∧
      (s.suite ((cmdSuite x).getD 0)).seqBlocks.contains (k / 1024) = true ∧
      (s.seqEntry k).hostTag.toNat = param x 16 8 ∧
      ((s.seqEntry k).state = .retiring ∨ (s.seqEntry k).state = .done)) :=
  ⟨⟨(ticketOf (co 0x14 [(8,1,0)] (su (fun u => { u with state := .loaded })))), (co 0x14 [(8,1,0)]), by unfold mayAnswer; decide +kernel⟩,
   ⟨(ticketOf (co 0x15 [(8,1,0)])), (co 0x15 [(8,1,0)] (su (fun u => { u with stopping := true }))), by unfold mayAnswer; decide +kernel⟩,
   ⟨(ticketOf (co 0x13 [(8,1,0)] (su (fun u => { u with state := .loaded })))), (co 0x13 [(8,1,0)] (su (fun u => { u with state := .empty }))), by unfold mayAnswer; decide +kernel⟩,
   ⟨(ticketOf (co 2 [] base 9)), (co 2 [] base 9), by unfold mayAnswer; decide +kernel⟩,
   ⟨(ticketOf (co 0x70 [(8,1,2)])), (co 0x70 [(8,1,2)] { drn 2 with quiesced := true, suites := [] }), by unfold mayAnswer; decide +kernel⟩,
   ⟨(ticketOf (co 0x21 [(8,1,0),(12,4,3),(16,8,0x55)] (srv.setSeqEntry 3 { state := .decode, hostTag := 0x55, position := 9 }))), (co 0x21 [(8,1,0),(12,4,3),(16,8,0x55)] (srv.setSeqEntry 3 { state := .done, hostTag := 0x55, position := 9 })), by unfold mayAnswer; decide +kernel⟩⟩

end Mailbox

/-! ### Supplies, power, recovery, observation and management -/

namespace Device

def base : State := runningPart (cellWith [word 0 0 0 0 1 0 0] [])

def su (f : Suite → Suite) (s : State := base) : State := s.updSuite 0 (fun u => f { u with windows := [⟨false, true,true,false,0,0,1,1⟩], seqBlocks := [0] })

def pw (f : Power → Power) (s : State := base) : State := { s with power := f s.power }

def off : State := { base with devState := .off, suites := [], power := {} }

def mac (st : BitVec 4) : State := { State.reset with macer := { step := st, started := true } }

def rec (f : Recovery → Recovery) (s : State := base) : State := su (fun u => { u with recov := f u.recov }) s

def cell0 (f : Cell → Cell) (s : State := base) : State := s.updCell 0 f

def mirr (t : Tag) (s : State := base) : State := cell0 (fun x => { x with tags := [(1, t)] }) (su (fun u => { u with restores := [⟨0,0,1,1,0,0,0,9⟩] }) s)

def slots (s : State) : State := s.updPort 0 (fun q => ([0,1,2,3,4,5].foldl (fun q k => putSlot q k 0x8000) q))

/-- The hypotheses of O51 are met. -/
theorem witness_SuppliesStartAndStopTheDevice :
    (∃ (s : State),
      s.devState = .off) ∧
    (∃ (s : State),
      let p := s.power
      s.devState ≠ .off ∧
      p.vin12Good = false ∧
      p.vin48Good = false) ∧
    (∃ (s : State),
      let p := s.power
      s.devState ≠ .off ∧
      p.vaonGood = true ∧
      p.vin12Good = true ∧
      p.vin48Good = false ∧
      p.lost12 = false ∧
      p.lost48 = false ∧
      p.thermtrip = false ∧
      s.macer.started = false) ∧
    (∃ (s : State),
      let p := s.power
      s.devState ≠ .off ∧
      p.vin12Good = true) ∧
    (∃ (s : State),
      let p := s.power
      s.devState ≠ .off ∧
      p.vin48Good = true) ∧
    (∃ (s : State),
      let p := s.power
      s.devState ≠ .off ∧
      p.vaonGood = true ∧
      p.vin12Good = true ∧
      p.vin48Good = false ∧
      p.lost48 = true ∧
      p.lost12 = false ∧
      p.thermtrip = false ∧
      s.macer.started = false) ∧
    (∃ (s : State),
      let p := s.power
      s.devState ≠ .off ∧
      p.backup = false) ∧
    (∃ (s : State),
      let p := s.power
      p.holdover = true) ∧
    (∃ (s : State) (b : BayId),
      (s.bay b.val).power = .on) ∧
    (∃ (s : State) (b : BayId),
      (s.bay b.val).power ≠ .asleep) ∧
    (∃ (s : State) (b : BayId),
      (s.bay b.val).power = .asleep) ∧
    (∃ (s : State) (q : PortId),
      (s.devState = .ready ∨ s.devState = .active ∨ s.devState = .draining) ∧
      stackUsed s q.val = false) ∧
    (∃ (s : State) (q : PortId),
      stackUsed s q.val = true) :=
  ⟨⟨off, by decide +kernel⟩,
   ⟨State.reset, by decide +kernel⟩,
   ⟨({ pw (fun p => { p with vin12Good := true, vin12At := 5 }) State.reset with now := 0 }), by decide +kernel⟩,
   ⟨base, by decide +kernel⟩,
   ⟨base, by decide +kernel⟩,
   ⟨(pw (fun p => { p with vin48Good := false, lost48 := true })), by decide +kernel⟩,
   ⟨State.reset, by decide +kernel⟩,
   ⟨(pw (fun p => { p with holdover := true, backup := true, holdAt := 7 })), by decide +kernel⟩,
   ⟨base, 0, by decide +kernel⟩,
   ⟨State.reset, 0, by decide +kernel⟩,
   ⟨(base.updBay 0 (fun y => { y with power := .asleep })), 0, by decide +kernel⟩,
   ⟨base, 0, by decide +kernel⟩,
   ⟨(rec (fun r => { r with active := true, phase := 1, tests := [⟨.datapath 0, some (0, 0)⟩, ⟨.sramMacro 0, none⟩] }) (su (fun u => { u with hold := {u.hold with held := true} }))), 0, by decide +kernel⟩⟩

/-- The hypotheses of O52 are met. -/
theorem witness_PowerPolicyAndMacerationAct :
    (∃ (s : State) (c : ProtCause),
      let p := s.power
      p.protects = [c]) ∧
    (∃ (s : State) (c : ProtCause),
      let p := s.power
      c ∉ p.protects) ∧
    (∃ (s : State) (tj : Byte),
      let p := s.power
      s.devState ≠ .off ∧
      115 ≤ tj.toNat ∧
      p.thermtrip = false) ∧
    (∃ (tj : Byte),
      tj.toNat < 115) ∧
    (∃ (s : State) (tj : Byte),
      let p := s.power
      p.thermtrip = true ∧
      tj.toNat < 95 ∧
      p.vin12Good = true ∧
      p.vin48Good = true ∧
      p.lost12 = false ∧
      p.lost48 = false) ∧
    (∃ (s : State),
      s.devState = .maceration ∧
      s.macer.started = true ∧
      s.macer.step = 1) ∧
    (∃ (s : State) (r : MacReport),
      s.devState = .maceration ∧
      s.macer.started = true ∧
      s.macer.step = 2 ∧
      r.ok = true) ∧
    (∃ (s : State),
      s.devState = .maceration ∧
      s.macer.started = true ∧
      (s.macer.step = 3 ∨ s.macer.step = 4)) ∧
    (∃ (s : State) (r : MacReport),
      s.devState = .maceration ∧
      s.macer.started = true ∧
      s.macer.step = 5 ∧
      r.ok = false) ∧
    (∃ (s : State),
      s.devState = .maceration ∧
      s.macer.started = true ∧
      s.macer.step = 7) ∧
    (∃ (s : State),
      s.devState ≠ .maceration) :=
  ⟨⟨(pw (fun p => { p with protects := [.power] }) (su (fun u => { u with freq := { u.freq with protect := true } }))), ProtCause.power, by decide +kernel⟩,
   ⟨State.reset, (ProtCause.temperature none), by decide +kernel⟩,
   ⟨State.reset, (0x78#8), by decide +kernel⟩,
   ⟨(0x0#8), by decide +kernel⟩,
   ⟨(pw (fun p => { p with thermtrip := true })), (0x0#8), by decide +kernel⟩,
   ⟨(mac 1), by decide +kernel⟩,
   ⟨(mac 2), ({ ok := true, code := 0x0#8, badCells := [], badBays := [], badStacks := [], retested := [], retestedBays := [], refclk := false, badRows := [] }), by decide +kernel⟩,
   ⟨(mac 3), by decide +kernel⟩,
   ⟨(mac 5), ({ ok := false, code := 0x3#8, badCells := [], badBays := [], badStacks := [], retested := [], retestedBays := [], refclk := true, badRows := [] }), by decide +kernel⟩,
   ⟨(mac 7), by decide +kernel⟩,
   ⟨base, by decide +kernel⟩⟩

set_option maxRecDepth 100000 in
/-- The hypotheses of O53 are met. -/
theorem witness_RecoveryPassesItsPhases :
    (∃ (s : State) (k : UnitCheck),
      let o := (s.bay (checkBay k)).owner
      o = none) ∧
    (∃ (s : State) (k : UnitCheck) (i : _),
      let o := (s.bay (checkBay k)).owner
      o = some i) ∧
    (∃ (s : State) (sid : SuiteId),
      let i := sid.val
      let u := s.suite i
      let r := u.recov
      r.requested = true ∧
      r.active = false ∧
      r.fatal = false ∧
      u.state = .running) ∧
    (∃ (s : State) (sid : SuiteId),
      let i := sid.val
      let u := s.suite i
      let r := u.recov
      r.requested = false) ∧
    (∃ (s : State) (sid : SuiteId),
      let i := sid.val
      let u := s.suite i
      let r := u.recov
      u.state = .running ∧
      r.active = true ∧
      r.phase = 1 ∧
      r.fatal = false ∧
      (u.feeder.isOpen = true → u.hold.held = true)) ∧
    (∃ (s : State) (sid : SuiteId),
      let i := sid.val
      let u := s.suite i
      u.state ≠ .running) ∧
    (∃ (s : State) (sid : SuiteId),
      let i := sid.val
      let u := s.suite i
      let r := u.recov
      r.active = true ∧
      r.phase = 2 ∧
      r.fatal = false) ∧
    (∃ (s : State) (sid : SuiteId),
      let i := sid.val
      let u := s.suite i
      let r := u.recov
      r.active = true ∧
      r.phase = 3 ∧
      r.fatal = false ∧
      (∀ c ∈ suiteCells s i, (s.cell c).state = .waitingStart)) ∧
    (∃ (s : State) (sid : SuiteId),
      let i := sid.val
      let u := s.suite i
      let r := u.recov
      r.fatal = true ∧
      u.state = .running) ∧
    (∃ (s : State) (sid : SuiteId),
      let i := sid.val
      let u := s.suite i
      let r := u.recov
      r.fatal = false) ∧
    (∃ (s : State) (c : CellId) (o : Fin 8) (pane : Fin 128) (i : _) (a : _) (s1 : _) (bs : _),
      let g := 128 * o.val + pane.val
      let u := s.suite i
      cellSuite (s.cell c) = some i ∧
      u.feeder.isOpen = true ∧
      (s.cell c).tag g = .poisoned ∧
      g ∈ (s.cell c).scrubbed ∧
      (∀ x ∈ (s.cell c).accesses, x.restored ≠ some g) ∧
      u.recov.active = false ∧
      mirrorOf u c g u.feeder.current = some a ∧
      s.repairSlot i (stackOf a) 0 = some s1 ∧
      tileBytes (s1.port (stackOf a)) (stackOff a) = some bs ∧
      (s1.runningSuite (s1.cell c)).isSome = true) ∧
    (∃ (s : State) (c : CellId) (o : Fin 8) (pane : Fin 128) (i : _),
      let g := 128 * o.val + pane.val
      let u := s.suite i
      cellSuite (s.cell c) = some i ∧
      u.feeder.isOpen = true ∧
      (s.cell c).tag g = .poisoned) ∧
    (∃ (s : State) (c : CellId) (o : Fin 8) (pane : Fin 128) (i : _),
      let g := 128 * o.val + pane.val
      let u := s.suite i
      cellSuite (s.cell c) = some i ∧
      u.feeder.isOpen = true ∧
      mirrorOf u c g u.feeder.current = none) ∧
    (∃ (s : State) (c : CellId) (o : Fin 8) (pane : Fin 128) (i : _) (a : _) (s1 : _),
      let g := 128 * o.val + pane.val
      let u := s.suite i
      cellSuite (s.cell c) = some i ∧
      u.feeder.isOpen = true ∧
      (s.cell c).tag g = .full ∧
      mirrorOf u c g u.feeder.current = some a ∧
      tilePoisoned (s.port (stackOf a)) (stackOff a) = true ∧
      s.repairSlot i (stackOf a) 1 = some s1) ∧
    (∃ (s : State) (p : PortId),
      (s.port p.val).retired = false) ∧
    (∃ (s : State) (p : PortId),
      (s.port p.val).retired = true) ∧
    (∃ (s : State) (r : UnitRef),
      s.repair.suspects = [(r, 2)]) ∧
    (∃ (s : State),
      s.repair.suspects = []) :=
  ⟨⟨State.reset, (UnitCheck.datapath 0), by decide +kernel⟩,
   ⟨base, (UnitCheck.datapath 0), 0, by decide +kernel⟩,
   ⟨(rec (fun r => { r with requested := true })), 0, by decide +kernel⟩,
   ⟨State.reset, 0, by decide +kernel⟩,
   ⟨(rec (fun r => { r with active := true, phase := 1, tests := [⟨.datapath 0, some (0, 0)⟩, ⟨.sramMacro 0, none⟩] }) (su (fun u => { u with hold := {u.hold with held := true} }))), 0, by decide +kernel⟩,
   ⟨State.reset, 0, by decide +kernel⟩,
   ⟨(rec (fun r => { r with active := true, phase := 2 })), 0, by decide +kernel⟩,
   ⟨((bayCells 0).foldl (fun s c => s.updCell c (fun x => { x with state := .waitingStart })) (rec (fun r => { r with active := true, phase := 3 }) (su (fun u => { u with feeder := {u.feeder with isOpen := false} })))), 0, by decide +kernel⟩,
   ⟨(rec (fun r => { r with fatal := true })), 0, by decide +kernel⟩,
   ⟨State.reset, 0, by decide +kernel⟩,
   ⟨((slots (mirr .poisoned)).updCell 0 (fun x => { x with scrubbed := [1] })), 0, 0, 1, 0, 16777216, ((((slots (mirr .poisoned)).updCell 0 (fun x => { x with scrubbed := [1] }))).repairSlot 0 0 0).getD State.reset, (List.replicate 4096 0), by decide +kernel⟩,
   ⟨((slots (mirr .poisoned)).updCell 0 (fun x => { x with scrubbed := [1] })), 0, 0, 1, 0, by decide +kernel⟩,
   ⟨base, 0, 0, 0, 0, by decide +kernel⟩,
   ⟨((slots (mirr .full)).updPort 0 (fun q => { q.putPoison 262144 with scrubbed := [262144] })), 0, 0, 1, 0, 16777216, ((((slots (mirr .full)).updPort 0 (fun q => { q.putPoison 262144 with scrubbed := [262144] }))).repairSlot 0 0 1).getD State.reset, by decide +kernel⟩,
   ⟨State.reset, 0, by decide +kernel⟩,
   ⟨(base.updPort 0 (fun q => { q with retired := true })), 0, by decide +kernel⟩,
   ⟨({ base with repair := { base.repair with suspects := [(.memPort 0 (some 0), 2)] } }), (UnitRef.memPort 0 (some 0)), by decide +kernel⟩,
   ⟨State.reset, by decide +kernel⟩⟩

/-- The hypotheses of O54 are met. -/
theorem witness_ObservationAndMeteringCount :
    (∃ (s : State) (c : CellId) (i : Fin 8),
      let x := s.cell c
      i.val ∈ x.ctrs.wrapped) ∧
    (∃ (s : State) (c : CellId) (i : Fin 8),
      let x := s.cell c
      i.val ∉ x.ctrs.wrapped) ∧
    (∃ (s : State) (c : CellId) (s1 : _),
      let x := s.cell c
      x.obs.wdRunning = true ∧
      s.waitCycle c (16 * x.obs.wdLimit.toNat) = some s1 ∧
      (s1.cell c).obs.wdRunning = true) ∧
    (∃ (s : State) (c : CellId),
      let x := s.cell c
      x.obs.wdRunning = false) ∧
    (∃ (s : State) (b : BayId) (i : Fin 8),
      i.val ∈ (s.bay b.val).ctrs.wrapped) ∧
    (∃ (s : State) (i : Fin 16),
      i.val ∈ s.devCtrs.wrapped) ∧
    (∃ (s : State) (sid : SuiteId) (a : _) (b : _) (rest : _) (n : _),
      let o := (s.suite sid.val).obs
      let p := stackOf (o.ringAddr.toNat + 32 * (o.written.toNat % o.records.toNat))
      o.pendingRecs = a :: b :: rest ∧
      o.records ≠ 0 ∧
      s.idleSlot p sid.val (fun k => k == 1) = some n) ∧
    (∃ (s : State),
      s.power.vaonGood = true) ∧
    (∃ (s : State),
      s.power.vaonGood = true) ∧
    (∃ (s : State) (f : HostFn),
      s.answers f = false) ∧
    (∃ (s : State),
      s.answers .pf = true) ∧
    (∃ (s : State) (i : SuiteId),
      s.answers (.vf i) = true) :=
  ⟨⟨(cell0 (fun x => { x with ctrs := { x.ctrs with wrapped := [3, 1] } })), 0, 1, by decide +kernel⟩,
   ⟨State.reset, 0, 0, by decide +kernel⟩,
   ⟨(cell0 (fun x => { x with obs := { x.obs with wdRunning := true, wdLimit := 3 } })), 0, (((cell0 (fun x => { x with obs := { x.obs with wdRunning := true, wdLimit := 3 } }))).waitCycle 0 48).getD State.reset, by decide +kernel⟩,
   ⟨State.reset, 0, by decide +kernel⟩,
   ⟨({ base.updBay 0 (fun y => { y with ctrs := { y.ctrs with wrapped := [2] } }) with devCtrs := { wrapped := [1,2] } }), 0, 2, by decide +kernel⟩,
   ⟨({ base.updBay 0 (fun y => { y with ctrs := { y.ctrs with wrapped := [2] } }) with devCtrs := { wrapped := [1,2] } }), 1, by decide +kernel⟩,
   ⟨({ su (fun u => { u with obs := { u.obs with pendingRecs := [1,2,3], records := 128, ringAddr := 0x1000000 } }) with ports := [(0, putSlot {} 2 0x8000)] }), 0, (0x1#256), (0x2#256), ([0x3#256]), 2, by decide +kernel⟩,
   ⟨State.reset, by decide +kernel⟩,
   ⟨State.reset, by decide +kernel⟩,
   ⟨State.reset, HostFn.pf, by decide +kernel⟩,
   ⟨base, by decide +kernel⟩,
   ⟨base, 0, by decide +kernel⟩⟩

/-- The hypotheses of O55 are met. -/
theorem witness_ManagementCoresSidebandAndSeal :
    (∃ (s : State),
      s.devState ≠ .off) :=
  ⟨State.reset, by decide +kernel⟩

/-- The hypotheses of O58 are met. -/
theorem witness_EdgeSidesStayClosed :
    (∃ (s : State) (t : State),
      EdgesClosed s ∧
      step s = .next t) ∧
    (∃ (s : State) (b : BayId) (d : Fin 4),
      EdgesClosed s ∧
      onEdge b.val d.val = true) :=
  ⟨⟨State.reset, State.reset.advance 1, ⟨nofun, rfl⟩⟩,
   ⟨State.reset, 0, 0, ⟨nofun, by decide⟩⟩⟩

/-- The hypotheses of O59 are met. -/
theorem witness_FusesAreNeverUndone :
    (∃ (base : State) (s : State) (t : State),
      FusesFrom base s ∧
      step s = .next t) :=
  ⟨State.reset, State.reset, State.reset.advance 1, ⟨⟨rfl, rfl, rfl, rfl, rfl, BitVec.le_refl _, fun _ h => ⟨h, rfl⟩, fun _ h => h, fun _ h => h, fun _ h => ⟨h, rfl, BitVec.le_refl _⟩⟩, rfl⟩⟩

end Device

/-! ### Host accesses -/

namespace Access

def base : State := runningPart (cellWith [word 0 0 0 0 1 0 0] [])

def su (f : Suite → Suite) (s : State := base) : State := s.updSuite 0 (fun u => f { u with windows := [⟨false, true,true,false,0,0,1,1⟩] })

def vap : State := { base with mbox := { base.mbox with vfApertures := [(0, (1, 0, 5))], apertures := [(0, 1)] } }

def wsl : State := (su id).updPort 0 (fun q => putSlot q 2 0x8000)

/-- The hypotheses of O56 are met. -/
theorem witness_HostAccessesReadAndWriteRegisters :
    (∃ (f : HostFn) (off : Nat) (s : State),
      off < barSize f ∧
      s.answers f = false) ∧
    (∃ (f : HostFn) (off : Nat) (s : State) (v : _),
      let s1 := s.freshCycle (barPlace s f off)
      off < barSize f ∧
      s.answers f = true ∧
      readReg s1 f (barPlace s f off) = some v) ∧
    (∃ (f : HostFn) (off : Nat) (s : State),
      off < barSize f ∧
      s.answers .pf = true) ∧
    (∃ (f : HostFn) (off : Nat) (s : State),
      off < barSize f ∧
      s.answers f = true ∧
      barPlace s f off = .nowhere) ∧
    (∃ (f : HostFn) (off : Nat) (s : State),
      off < barSize f ∧
      s.answers f = true ∧
      barPlace s f off = .nowhere) ∧
    (∃ (f : HostFn) (off : Nat) (s : State),
      off < barSize f ∧
      s.answers .pf = true) ∧
    (∃ (f : HostFn) (off : Nat) (s : State),
      off < barSize f ∧
      s.answers .pf = true) ∧
    (∃ (f : HostFn) (off : Nat) (s : State) (i : SuiteId) (o : _) (w : _),
      let hub := fun (o : Nat) => s.freshCycle (.hub o)
      off < barSize f ∧
      s.answers (.vf i) = true ∧
      barPlace s (.vf i) 0x1000 = .hub o ∧
      hubReg (hub o) o = some w) ∧
    (∃ (f : HostFn) (off : Nat) (s : State) (c : CellId),
      off < barSize f ∧
      s.answers .pf = true ∧
      (s.cell c).held = false ∧
      ((s.cell c).state = .idle ∨ (s.cell c).state = .halted ∨ (s.cell c).state = .faulted)) ∧
    (∃ (f : HostFn) (off : Nat) (s : State) (c : CellId),
      off < barSize f ∧
      s.answers .pf = true ∧
      (s.cell c).state = .running) ∧
    (∃ (f : HostFn) (off : Nat) (s : State) (i : _),
      off < barSize f ∧
      s.answers (.vf i) = true) ∧
    (∃ (f : HostFn) (off : Nat) (s : State) (a : _),
      off < barSize f ∧
      s.answers f = true ∧
      barPlace s f off = .hbm a ∧
      windowSuite s a = none) ∧
    (∃ (f : HostFn) (off : Nat) (s : State) (a : _) (i : _) (v : W64),
      let w := s.updPort (stackOf a) (fun q => { q with selfRefresh := false })
      let s0 := { w with mbox := { s.mbox with waits := s.mbox.waits ++ [(⟨f, off, a, some v⟩ : HostWait)] } }
      off < barSize f ∧
      s.answers f = true ∧
      barPlace s f off = .hbm a ∧
      windowSuite s a = some i ∧
      a % 8 = 0 ∧
      (∀ h ∈ s.mbox.waits, stackOf h.addr ≠ stackOf a) ∧
      s0.idleSlot (stackOf a) i (fun k => decide (k < 2)) = none) ∧
    (∃ (f : HostFn) (off : Nat) (s : State) (a : _) (i : _) (n : _) (v : W64),
      let w := s.updPort (stackOf a) (fun q => { q with selfRefresh := false })
      let s0 := { w with mbox := { s.mbox with waits := s.mbox.waits ++ [(⟨f, off, a, some v⟩ : HostWait)] } }
      off < barSize f ∧
      s.answers f = true ∧
      barPlace s f off = .hbm a ∧
      windowSuite s a = some i ∧
      a % 8 = 0 ∧
      (∀ h ∈ s.mbox.waits, stackOf h.addr ≠ stackOf a) ∧
      s0.idleSlot (stackOf a) i (fun k => decide (k < 2)) = some n ∧
      Memory.wf ((s0.waitSlot (stackOf a) n).port (stackOf a)).data = true) :=
  ⟨⟨HostFn.pf, 0, ({ base with power := { base.power with linkUp := false } }), by decide +kernel⟩,
   ⟨HostFn.pf, 0, ({ su id with mbox := { base.mbox with apertures := [(0, 2),(1,1)] } }), 2116896, by decide +kernel⟩,
   ⟨HostFn.pf, 0, ({ su id with mbox := { base.mbox with apertures := [(0, 2),(1,1)] } }), by decide +kernel⟩,
   ⟨(HostFn.vf 0), 20480, ({ su id with mbox := { base.mbox with apertures := [(0, 2),(1,1)] } }), by decide +kernel⟩,
   ⟨(HostFn.vf 0), 20480, ({ su id with mbox := { base.mbox with apertures := [(0, 2),(1,1)] } }), by decide +kernel⟩,
   ⟨HostFn.pf, 0, ({ su id with mbox := { base.mbox with apertures := [(0, 2),(1,1)] } }), by decide +kernel⟩,
   ⟨HostFn.pf, 0, ({ su id with mbox := { base.mbox with apertures := [(0, 2),(1,1)] } }), by decide +kernel⟩,
   ⟨HostFn.pf, 0, ({ su id with mbox := { base.mbox with apertures := [(0, 2),(1,1)] } }), 0, 2097152, 65536, by decide +kernel⟩,
   ⟨HostFn.pf, 0, ({ su id with mbox := { base.mbox with apertures := [(0, 2),(1,1)] } }), 1, by decide +kernel⟩,
   ⟨HostFn.pf, 0, ({ su id with mbox := { base.mbox with apertures := [(0, 2),(1,1)] } }), 0, by decide +kernel⟩,
   ⟨HostFn.pf, 0, ({ su id with mbox := { base.mbox with apertures := [(0, 2),(1,1)] } }), 0, by decide +kernel⟩,
   ⟨HostFn.pf, 33554432, vap, 8388608, by decide +kernel⟩,
   ⟨HostFn.pf, 33554432, ({ su id with mbox := { base.mbox with apertures := [(0, 2),(1,1)] } }), 16777216, 0, (0x8000000000000007#64), by decide +kernel⟩,
   ⟨HostFn.pf, 33554432, ({ wsl with mbox := { base.mbox with apertures := [(0, 2),(1,1)] } }), 16777216, 0, 2, (0x8000000000000007#64), by decide +kernel⟩⟩

end Access

/-! ### Images and tokens -/

namespace Images

/-- Bytes with little-endian values at some offsets, 0 elsewhere. -/
def fields (n : Nat) (l : List (Nat × Nat)) : List Byte := leBytes n ((l.map (fun e => e.2 * 2 ^ (8 * e.1))).sum)

/-- The header of an image of one section for a 1 × 1 suite: one window, one write request at each virtual port, no serving, a body of
2,117,680 bytes with its three tags. -/
def header : List Byte :=
  fields 1024 [(0, 0x56455254), (5, 1), (6, 1024), (8, 0x4D20), (10, 24), (50, 0xFFFF), (52, 1), (54, 1), (55, 3), (60, 64), (144, 2117680)]

/-- Its manifest. -/
def manifest : List Byte := fields 64 [(4, 1), (16, 1), (22, 1), (32, 1), (34, 1), (38, 1), (48, 1), (50, 2), (54, 1)]

/-- A command of session 1 taken under ticket 5. -/
def taken (op : Nat) (l : List (Nat × Nat)) : Taken := ⟨5, .pf, BitVec.ofNat 16 op, false, 7, 1, fields 64 ([(0, op), (4, 7), (6, 1)] ++ l), false, false, none⟩

/-- A command that may be answered. -/
def asked (x : Taken) (s : State) : State :=
  { s with devState := .ready
           mbox := { rings := [(0, { enable := true, tail := 3 }), (1, { enable := true, phase := true })], sessions := [(1, ⟨0x0302, 1⟩)]
                     sessionGen := 1, taken := [x], nextTicket := 6 } }

/-- A part of grade 24 whose bays are all good, with a fleet key and the signer of the header's key field. -/
def part24 : State :=
  { State.reset with
    grade := 24, repair := { State.reset.repair with good := BitVec.allOnes 32 }
    keys := { State.reset.keys with fk := [(0, [])], signers := [(0, { valid := true, digest := Config.sha384 (slice header 832 96) })] } }

/-- The header's checks pass where its signature verifies. -/
theorem checkImage_header (s : State) (create : Bool) (hk : s.keys = part24.keys) (hg : s.grade = 24)
    (hs : Config.ecdsaP384 (slice header 832 96) (slice header 928 96) (slice header 0 768 ++ manifest) = true)
    (hp : create = true → (place s 1 1).isSome = true) (hc : create = false → (contentKey part24.keys header).isSome = true) :
    checkImage s header manifest create = 0 := by
  have e : (headerChecks s header manifest create).find? (fun c => c.1) = none := by
    rw [List.find?_eq_none]
    intro c h
    simp only [headerChecks, List.mem_cons, List.not_mem_nil, or_false, hk, hg, hs] at h
    have z : hSigner header = 0 := by decide +kernel
    have d : (sget ({} : Signer) part24.keys.signers 0) = { valid := true, digest := Config.sha384 (slice header 832 96) } := rfl
    rw [z, d] at h
    have w : 2 ^ hLog2w header = 1 := by decide +kernel
    have v : 2 ^ hLog2h header = 1 := by decide +kernel
    have f : (keyOf part24.keys (leAt header 768 1)).isNone = false := by decide +kernel
    rw [w, v, f] at h
    rcases h with rfl | rfl | rfl | rfl | rfl | rfl | rfl | rfl | rfl | rfl | rfl | rfl | rfl
    · decide +kernel
    · decide +kernel
    · decide +kernel
    · decide +kernel
    · decide +kernel
    · have : nbit (leAt header 13 1) 0 = false := by decide +kernel
      simp [this]
    · simp
    · simp
    · decide +kernel
    · simp
    · cases create
      · have := hc rfl
        rw [Option.isSome_iff_ne_none] at this
        simp [this]
      · simp
    · have : tablesOk header manifest = true := by decide +kernel
      simp [this]
    · cases create
      · simp
      · have := hp rfl
        rw [Option.isSome_iff_ne_none] at this
        simp [this]
  rw [checkImage, e]
  rfl

/-- SUITE_CREATE's hypotheses in O44 are met where that signature verifies (what verifies is uninterpreted: Config.ecdsaP384). -/
theorem witness_SuiteCreate
    (hs : Config.ecdsaP384 (slice header 832 96) (slice header 928 96) (slice header 0 768 ++ manifest) = true) :
    ∃ (x : Taken) (s : State) (b h m : List Byte) (r : Reserved), mayAnswer s x 0x10 (whole 8 12) ∧
      imageParts (b.take (param x 16 4)) = some (h, m) ∧ checkImage s h m true = 0 ∧ reserve s h m = .inr r := by
  let x := taken 0x10 [(16, 2048)]
  have r : (reserve (asked x part24) header manifest).isRight = true := by decide +kernel
  obtain ⟨r, hr⟩ := Sum.isRight_iff.mp r
  exact ⟨x, asked x part24, header ++ manifest, header, manifest, r, by unfold mayAnswer; decide +kernel, by decide +kernel,
    checkImage_header _ _ rfl rfl hs (fun _ => by decide +kernel) nofun, hr⟩


/-- n bytes of 0. -/
def zeros (n : Nat) : List Byte := List.replicate n 0

@[simp] theorem zeros_length (n : Nat) : (zeros n).length = n := List.length_replicate

/-- The first 32 bytes of a body: counts of 0 and one FINAL section. -/
def front : List Byte := leBytes 16 0 ++ leBytes 16 0x10000

/-- The body's plaintext: front, then cell blocks of zeros; and its ciphertext with three tags where a cipher changes nothing. -/
def plain : List Byte := front ++ zeros 2117600
def cipher : List Byte := front ++ zeros 2117648

/-- The image. -/
def image : List Byte := header ++ manifest ++ cipher

/-- One chunk opens where the cipher changes nothing. -/
theorem openChunks_step (cek h : List Byte) (hg : ∀ k n a c t, Config.gcmOpen k n a c t = some c) (n j : Nat) (c r : List Byte) (hc : c ≠ [])
    (hr : openChunks cek h n (j + 1) (c.drop (min c.length (2 ^ 20 + 16))) = some r) :
    openChunks cek h (n + 1) j c = some (c.take (min c.length (2 ^ 20 + 16) - 16) ++ r) := by
  rw [openChunks, if_neg (by simpa using hc)]
  simp only [hg, Option.bind_some, hr, Option.map_some]

/-- The chunks of the ciphertext open to the plaintext. -/
theorem openChunks_cipher (cek h : List Byte) (hg : ∀ k n a c t, Config.gcmOpen k n a c t = some c) (n : Nat) :
    openChunks cek h (n + 4) 0 cipher = some plain := by
  have f : front.length = 32 := by decide
  have e0 : ∀ k, zeros k = List.replicate k 0 := fun _ => rfl
  have l : cipher.length = 2117680 := by rw [cipher, List.length_append, f, zeros_length]
  have d1 : cipher.drop 1048592 = zeros 1069088 := by
    rw [cipher, List.drop_append, f, List.drop_eq_nil_of_le (by rw [f]; decide), e0, List.drop_replicate]; rfl
  have t1 : cipher.take 1048576 = front ++ zeros 1048544 := by
    rw [cipher, List.take_append, f, List.take_of_length_le (by rw [f]; decide), e0, List.take_replicate]; rfl
  have d2 : (zeros 1069088).drop 1048592 = zeros 20496 := by rw [e0, List.drop_replicate]; rfl
  have t2 : (zeros 1069088).take 1048576 = zeros 1048576 := by rw [e0, List.take_replicate]; rfl
  have d3 : (zeros 20496).drop 20496 = [] := by rw [e0, List.drop_replicate]; rfl
  have t3 : (zeros 20496).take 20480 = zeros 20480 := by rw [e0, List.take_replicate]; rfl
  have ne : ∀ k, zeros (k + 1) ≠ [] := fun k h => by simpa using congrArg List.length h
  have h3 : openChunks cek h (n + 1 + 1) 2 (zeros 20496) = some (zeros 20480 ++ []) := by
    have := openChunks_step cek h hg (n + 1) 2 (zeros 20496) [] (ne 20495) (by rw [zeros_length]; simp only [show min 20496 (2 ^ 20 + 16) = 20496 from rfl, d3]; rfl)
    rw [zeros_length] at this
    simpa only [show min 20496 (2 ^ 20 + 16) - 16 = 20480 from rfl, t3] using this
  have h2 : openChunks cek h (n + 1 + 1 + 1) 1 (zeros 1069088) = some (zeros 1048576 ++ (zeros 20480 ++ [])) := by
    have := openChunks_step cek h hg (n + 1 + 1) 1 (zeros 1069088) _ (ne 1069087) (by rw [zeros_length]; simp only [show min 1069088 (2 ^ 20 + 16) = 1048592 from rfl, d2]; exact h3)
    rw [zeros_length] at this
    simpa only [show min 1069088 (2 ^ 20 + 16) - 16 = 1048576 from rfl, t2] using this
  have h1 := openChunks_step cek h hg (n + 1 + 1 + 1) 0 cipher _ (fun z => by rw [z] at l; cases l)
    (by rw [l]; simp only [show min 2117680 (2 ^ 20 + 16) = 1048592 from rfl, d1]; exact h2)
  rw [l] at h1
  simp only [show min 2117680 (2 ^ 20 + 16) - 16 = 1048576 from rfl, t1] at h1
  refine h1.trans (congrArg some ?_)
  rw [plain, List.append_nil, List.append_assoc]
  refine congrArg (front ++ ·) ?_
  simp only [e0, List.replicate_append_replicate]

/-- The suite of that header, EMPTY, before a load. -/
def emptyOne : Suite :=
  { state := .empty, header := header, manifest := manifest, windows := [⟨true, true, true, false, 0, 0, 0, 1⟩]
    protExts := [(0, 1, 1), (1, 0, 1), (2, 0, 1)], contexts := [(0, 0, .se 0 0), (1, 0, .se 8 0), (2, 0, .se 16 0)] }

/-- The part that holds it. -/
def part0 : State := { part24 with suites := [(0, emptyOne)], bays := [(0, { owner := some 0 })] }

/-- The load command. -/
def loads : Taken := taken 0x12 [(24, 2118768)]

/-- That command under way, and its load. -/
def going : Taken := { loads with running := true }
def run0 : LoadRun := ⟨5, 0, false, header, manifest, []⟩

/-- The state in which the body is read. -/
def cleared : State :=
  let s := (asked loads part0).clearForLoad 0 header manifest
  { s with mbox := { s.mbox with load := some run0, taken := [going] } }

/-- The body loads where a cipher changes nothing and the digest is the header's. -/
theorem loadBody_isSome (cek : List Byte) (hg : ∀ k n a c t, Config.gcmOpen k n a c t = some c) (hh : Config.sha384 cipher = slice header 96 48) :
    ∃ t, cleared.loadBody 0 header manifest cek cipher [] = some t := by
  have l : cipher.length = 2117680 := by rw [cipher, List.length_append, zeros_length]; rfl
  have n : leAt header 144 8 = 2117680 := by decide +kernel
  have k : cipher.take 2117680 = cipher := List.take_of_length_le (Nat.le_of_eq l)
  have p : plain.length = 2117632 := by rw [plain, List.length_append, zeros_length]; rfl
  rw [← Option.isSome_iff_exists, State.loadBody]
  simp only [n, k, l]
  rw [if_neg (fun h => h.elim (Nat.lt_irrefl _) (fun k => k hh)), show 2117680 / 16 + 1 = 132352 + 4 from rfl, openChunks_cipher cek header hg, Option.bind_some, p]
  have z : (bodyMap (cleared.suite 0) header manifest plain).size = 2117632 := by decide +kernel
  have y : leAt plain 12 4 = 0 := by decide +kernel
  rw [z, y, if_neg (by decide)]
  decide +kernel

theorem header_length : header.length = 1024 := by decide +kernel
theorem manifest_length : manifest.length = 64 := by decide +kernel
theorem image_length : image.length = 2118768 := by
  rw [image, cipher, List.length_append, List.length_append, List.length_append, header_length, manifest_length, zeros_length]; rfl

theorem image_parts : imageParts image = some (header, manifest) := by
  have h1 : image.take 1024 = header := by rw [image, List.append_assoc, List.take_left' header_length]
  have h2 : image.drop 1024 = manifest ++ cipher := by rw [image, List.append_assoc, List.drop_left' header_length]
  have h3 : leAt image 60 4 = 64 := by decide +kernel
  rw [imageParts, if_neg (by rw [image_length]; decide)]
  simp only [h1, h2, h3, image_length, List.take_left' manifest_length]
  exact if_neg (fun h => absurd h.2 (by decide))

theorem image_rest : image.drop (1024 + 64) = cipher := by
  rw [image]; exact List.drop_left' (by rw [List.length_append, header_length, manifest_length])

/-- The hypotheses in O44 of an IMAGE_LOAD that starts are met where the signature verifies and a cipher changes nothing (the functions are
uninterpreted: Config). -/
theorem witness_ImageLoad (hs : Config.ecdsaP384 (slice header 832 96) (slice header 928 96) (slice header 0 768 ++ manifest) = true)
    (hg : ∀ k n a c t, Config.gcmOpen k n a c t = some c) :
    ∃ (x : Taken) (s : State) (b h m : List Byte),
      mayAnswer s x 0x12 ([(8, 255), (9, 255), (10, 1)] ++ whole 12 28) ∧ param x 9 1 = 0 ∧ asksCreate s x = false ∧
      suiteGate s (param x 8 1) [.empty, .loaded, .stopped, .faulted] = none ∧ imageParts (b.take (param x 24 8)) = some (h, m) ∧
      checkImage s h m false = 0 ∧ compatible (s.suite (param x 8 1)) h m = true ∧
      ∀ k ∈ suiteBays s (param x 8 1), s.repair.good.getLsbD k = true := by
  have w : param loads 24 8 = 2118768 := by decide +kernel
  refine ⟨loads, asked loads part0, image, header, manifest, by unfold mayAnswer; decide +kernel, by decide +kernel, by decide +kernel,
    by decide +kernel, ?_, checkImage_header _ _ rfl rfl hs nofun (fun _ => by simp only [contentKey, hg]; decide +kernel), by decide +kernel,
    by decide +kernel⟩
  rw [w, List.take_of_length_le (Nat.le_of_eq image_length)]
  exact image_parts

/-- And those of one that goes on, where the body's digest is the header's. -/
theorem witness_ImageBody (hg : ∀ k n a c t, Config.gcmOpen k n a c t = some c) (hh : Config.sha384 cipher = slice header 96 48) :
    ∃ (x : Taken) (s : State) (b : List Byte) (peers : HostRead) (r : LoadRun) (ix : Option Nat) (s' : State),
      startable s x.ticket 0x12 (fun _ => true) = some x ∧ x.running = true ∧ x.lost = false ∧ s.mbox.load = some r ∧ r.ticket = x.ticket ∧
      param x 9 1 = 0 ∧ loadInto s r (b.take (param x 24 8)) (param x 24 8) peers (nbit (param x 10 1) 0) = (0, ix, s') ∧
      (s'.ring x.fn true).enable = true := by
  obtain ⟨t, ht⟩ := loadBody_isSome [] hg hh
  refine ⟨going, cleared, image, none, run0, none, t, by decide +kernel, rfl, rfl, rfl, rfl, by decide +kernel, ?_, ?_⟩
  · have w : param going 24 8 = 2118768 := by decide +kernel
    have kp : nbit (param going 10 1) 0 = false := by decide +kernel
    have n : leAt header 144 8 = 2117680 := by decide +kernel
    rw [w, kp, List.take_of_length_le (Nat.le_of_eq image_length)]
    have hm : run0.manifest = manifest := rfl
    have hh : run0.header = header := rfl
    refine loadInto_loads (by decide +kernel) ?_ ?_
    · rw [hm, hh, manifest_length, n, image_length] <;> decide
    · rw [hm, hh, manifest_length, image_rest]
      exact ht
  · have k := State.loadBody_mbox ht
    rw [State.ring, k]
    decide +kernel

end Images

namespace Tokens

/-- A token of scope 0 for signer slot 0, with a key and a signature of zeros. -/
def token : List Byte := List.replicate 200 0

/-- A part with presence asserted, that key's signer, DEVICE_UID 0 and DEBUG_CHAL 0. -/
def partOf : State :=
  { State.reset with
    uid := 0, mgmt := { State.reset.mgmt with present := true, challenge := 0 }
    keys := { State.reset.keys with signers := [(0, { valid := true, digest := Config.sha384 (slice token 8 96) })] } }

/-- The good token of O46 exists where its signature verifies (Config.ecdsaP384 is uninterpreted). -/
theorem witness_DebugUnlock (hs : Config.ecdsaP384 (slice token 8 96) (slice token 104 96) (leBytes 16 0 ++ leBytes 1 0 ++ leBytes 8 0) = true) :
    ∃ (x : Taken) (s : State) (b : List Byte), mayAnswer s x 0x51 (whole 8 1 ++ whole 16 8) ∧ s.mgmt.present = true ∧ param x 8 1 ≤ 1 ∧
      200 ≤ b.length ∧ tokenGood s (param x 8 1) (b.take 200) = true := by
  let x := Images.taken 0x51 []
  refine ⟨x, Images.asked x partOf, token, by unfold mayAnswer; decide +kernel, rfl, by decide +kernel, by decide +kernel, ?_⟩
  have p : param x 8 1 = 0 := by decide +kernel
  have t : token.take 200 = token := by decide +kernel
  have g : signerOf (Images.asked x partOf) 0 = { valid := true, digest := Config.sha384 (slice token 8 96) } := rfl
  have z : leAt token 1 1 = 0 := by decide
  have y : leAt token 0 1 = 0 := by decide
  have w : leAt token 2 6 = 0 := by decide
  have u : (Images.asked x partOf).uid.toNat = 0 := rfl
  have c : (Images.asked x partOf).mgmt.challenge.toNat = 0 := rfl
  rw [p, t, tokenGood]
  simp only [z, y, w, g, u, c, hs]
  simp

end Tokens

/-! ### Ill-formed commands -/

namespace Shape

/-- WellFormed refuses a flit on a track the cell lacks, an access outside its BAR, a command entry that is not whole, a capability block
without its five credit counts, a GC_CTL write without its bit, and a junction temperature that calls for no such event. -/
theorem test_ill_formed :
    (Instr.flitReceive 1 4 2 .none).wf = false ∧ (Instr.registerWrite (.vf 0) (barSize (.vf 0)) 0).wf = false ∧
    (Instr.rcFieldRead .pf (barSize .pf)).wf = false ∧ (Instr.unmappedAccess .pf (barSize .pf) true).wf = false ∧
    (Instr.apertureHbmAccess .pf (barSize .pf) none).wf = false ∧ (Instr.commandFetch .pf (some [1])).wf = false ∧
    (Instr.negotiate 0 ⟨0x10, 0x20, false, false, 0x1F, 2, 3, true, [8, 8, 8, 8]⟩).wf = false ∧
    (Instr.gcCtlTrain .pf 0 (BitVec.ofNat 64 (2 ^ 62))).wf = false ∧ (Instr.gcCtlDown .pf 0 (BitVec.ofNat 64 (2 ^ 63))).wf = false ∧
    (Instr.thermtrip 114).wf = false ∧ (Instr.thermtripRearm 95).wf = false := by decide +kernel

/-- The same commands with operands in range are well formed. -/
theorem test_well_formed :
    (Instr.flitReceive 0 4 0 .none).wf = true ∧ (Instr.registerWrite (.vf 0) 0 0).wf = true ∧ (Instr.rcFieldRead .pf 8).wf = true ∧
    (Instr.commandFetch .pf (some (leBytes 64 1))).wf = true ∧ (Instr.gcCtlTrain .pf 0 (BitVec.ofNat 64 (2 ^ 63))).wf = true ∧
    (Instr.thermtrip 115).wf = true ∧ (Instr.thermtripRearm 94).wf = true := by decide +kernel

end Shape

/-! ### Worked examples of the spec -/

namespace Examples

/-- The worked example of R177–R181: digits of a0, a1 and b0, and the accumulation of the six passes. -/
theorem test_split_precision :
    groupExp [decodeVal 0 0x3FAAAAAB, decodeVal 0 0xBE4CCCCD] = 0 ∧ groupExp [decodeVal 0 0x402DF854, decodeVal 0 0x3F000000] = 1 ∧
    ((List.range 3).map (fun j => sliceDigit false j 0 (decodeVal 0 0x3FAAAAAB))) = [43, -85, -85] ∧
    ((List.range 3).map (fun j => sliceDigit false j 0 (decodeVal 0 0xBE4CCCCD))) = [-6, -102, -102] ∧
    ((List.range 3).map (fun j => sliceDigit false j 1 (decodeVal 0 0x402DF854))) = [43, 126, 21] := by decide +kernel

/-- The same example: A after each pass at F = −30, and the FP32 that moves out. -/
theorem test_ext_accumulation :
    let terms : List Term := [⟨1801, -9, false⟩, ⟨5418, -17, false⟩, ⟨-4471, -17, false⟩, ⟨903, -25, false⟩, ⟨-10710, -25, false⟩, ⟨-4471, -25, false⟩]
    let p := terms.foldl (fun p t => accTerm p 0 0 t) { ext := true }
    (accTerm { ext := true } 0 0 ⟨1801, -9, false⟩).elems = [(0, ⟨3776970752, false, false⟩)] ∧
    p.elems = [(0, ⟨3784271680, false, false⟩)] ∧ p.frames = [(0, -30)] ∧ extOut 0 0 0 p 0 0 = 0x40618F67 := by decide +kernel

/-- Good bays, owners and resources of Table 13.17. -/
def placing : State :=
  let s := { State.reset with repair := { State.reset.repair with good := BitVec.ofNat 32 (0xFFFFFFFF - 2 ^ 3 - 2 ^ 12 - 2 ^ 22 - 2 ^ 29) } }
  [0, 1, 4, 5].foldl (fun s b => s.updBay b (fun y => { y with owner := some 0 })) s

/-- Table 13.17: a 2 × 2 shape finds bay 10. -/
theorem test_placement : place placing 2 2 = some 10 := by decide +kernel

/-- Suite 1 of Table 13.18. -/
def patching : State :=
  State.reset.setSuite 1 { state := .empty, origin := 10, log2w := 1, log2h := 1, barBlocks := [6, 7]
                           windows := List.replicate 4 ⟨false, false, false, false, 1, 4, 4 * 4096 + 96, 256⟩ }

/-- An image header of shape 2 × 2. -/
def header22 : List Byte := List.replicate 11 0 ++ [5] ++ List.replicate 1012 0

/-- Table 13.18: CELL, QUEUE, HBM, SE and BARRIER. -/
theorem test_patches :
    patchValue patching 1 header22 [] 3 773 0 = some 1829 ∧ patchValue patching 1 header22 [] 4 773 17 = some 0x72511 ∧
    patchValue patching 1 header22 [] 1 3 0x1234000 = some 0x004061234000 ∧ patchValue patching 1 header22 [] 8 13 0 = some 37 ∧
    patchValue patching 1 header22 [] 6 300 0 = some 1836 := by decide +kernel

/-- The sides that O58 calls edge sides are those with no bay beyond (R286). -/
theorem test_edge_sides : ∀ b < 32, ∀ d < 4, onEdge b d = (bayNext b d).isNone := by decide +kernel

end Examples

end Sys2Proof.Tests
end

section
/-!
PROOF. O59: no step undoes a fuse. Six KEY_PROVISION operations set fuses; every other part of a step leaves the fuses as they were, which is
said once for each function that answers a state.
-/

namespace Sys2Proof.Machine
open Sys2Proof

/-! ### The fuses of a state -/

/-- What the device's fuses hold (R25, R473, R526, R541, R604, R605, R608): the parts of the state that `FusesFrom` compares. -/
structure Fuses where
  uid : BitVec 128
  grade : Byte
  duk : List Byte
  fk : SMap (List Byte)
  fkRevoked : BitVec 4
  signers : SMap Signer
  goodBays : BitVec 32
  rowShifts : SMap (BitVec 5)
  svnMin : Byte

def State.fuses (s : State) : Fuses :=
  ⟨s.uid, s.grade, s.keys.duk, s.keys.fk, s.keys.fkRevoked, s.keys.signers, s.repair.fuseGood, s.repair.fuseShift, s.fw.svnMin⟩

/-- An update that leaves the identity, the repair state, the keys and the firmware state alone keeps the fuses. -/
@[simp] theorem State.fuses_update (s : State) (now : Nat) (tick : W64) (free : Nat) (pending : List Instr) (devState : DeviceState)
    (quiesced : Bool) (drainMode drainAt : Nat) (pcie : Pcie) (domainValid : Bool) (part : BitVec 6) (routes : SMap (Bool × BitVec 4))
    (power : Power) (macer : Macer) (mgmt : Mgmt) (metering : Metering) (store : Store) (mbox : Mailbox) (devLog errLog : RecordRing)
    (devCtrs : Counters) (cells : SMap Cell) (bays : SMap Bay) (suites : SMap Suite) (ports : SMap MemPort) (streams : SMap StreamState)
    (gacon : SMap GaconPort) (barriers : SMap Barrier) (seqs : SMap SeqEntry) (out : Output) :
    State.fuses ⟨now, tick, free, pending, devState, quiesced, drainMode, drainAt, pcie, s.grade, s.uid, domainValid, part, routes, power, macer,
      s.repair, s.keys, s.fw, mgmt, metering, store, mbox, devLog, errLog, devCtrs, cells, bays, suites, ports, streams, gacon, barriers, seqs,
      out⟩ = s.fuses := by rfl

/-- So does an update of the other parts of the repair state, the keys and the firmware state. -/
@[simp] theorem State.fuses_update_kept (s : State) (now : Nat) (tick : W64) (free : Nat) (pending : List Instr) (devState : DeviceState)
    (quiesced : Bool) (drainMode drainAt : Nat) (pcie : Pcie) (domainValid : Bool) (part : BitVec 6) (routes : SMap (Bool × BitVec 4))
    (power : Power) (macer : Macer) (repair : Repair) (keys : Keys) (fw : Firmware) (mgmt : Mgmt) (metering : Metering) (store : Store)
    (mbox : Mailbox) (devLog errLog : RecordRing) (devCtrs : Counters) (cells : SMap Cell) (bays : SMap Bay) (suites : SMap Suite)
    (ports : SMap MemPort) (streams : SMap StreamState) (gacon : SMap GaconPort) (barriers : SMap Barrier) (seqs : SMap SeqEntry) (out : Output)
    (good : repair.fuseGood = s.repair.fuseGood) (shift : repair.fuseShift = s.repair.fuseShift) (duk : keys.duk = s.keys.duk)
    (fk : keys.fk = s.keys.fk) (revoked : keys.fkRevoked = s.keys.fkRevoked) (signers : keys.signers = s.keys.signers)
    (svn : fw.svnMin = s.fw.svnMin) :
    State.fuses ⟨now, tick, free, pending, devState, quiesced, drainMode, drainAt, pcie, s.grade, s.uid, domainValid, part, routes, power, macer,
      repair, keys, fw, mgmt, metering, store, mbox, devLog, errLog, devCtrs, cells, bays, suites, ports, streams, gacon, barriers, seqs, out⟩ =
      s.fuses := by
  simp only [State.fuses, good, shift, duk, fk, revoked, signers, svn]

@[simp] theorem writePtr_svnMin (f : Firmware) (p : BootPtr) : (writePtr f p).svnMin = f.svnMin := by
  unfold writePtr
  dsimp only
  split <;> rfl

@[simp] theorem putSlotB_svnMin (f : Firmware) (off : Nat) (bs : List Byte) : (putSlotB f off bs).svnMin = f.svnMin := by
  unfold putSlotB
  dsimp only
  split <;> rfl

@[simp] theorem State.fuses_ite (c : Prop) {_ : Decidable c} (a b : State) : (if c then a else b).fuses = if c then a.fuses else b.fuses :=
  apply_ite State.fuses c a b

@[simp] theorem nextOf_next_fuses (s t : State) : (nextOf s (.next t)).fuses = t.fuses := by rfl

@[simp] theorem nextOf_fault_fuses (s : State) (f : Fault) : (nextOf s (.fault f)).fuses = s.fuses := by rfl

@[simp] theorem nextOf_ite_fuses (s : State) (c : Prop) {_ : Decidable c} (a b : Host.Outcome State Fault Refusal) :
    (nextOf s (if c then a else b)).fuses = if c then (nextOf s a).fuses else (nextOf s b).fuses :=
  apply_ite (fun o => (nextOf s o).fuses) c a b

/-- A fold of steps that keep the fuses keeps them. -/
@[simp] theorem State.foldl_fuses {B : Type} (op : State → B → State) (h : ∀ s b, (op s b).fuses = s.fuses) (l : List B) (s : State) :
    (l.foldl op s).fuses = s.fuses := foldl_keeps State.fuses op h l s

/-- The state of a pair, where the pair is known and its state keeps the fuses. -/
theorem snd_fuses_of_eq {A : Type} {p : A × State} {a : A} {s t : State} (h : p = (a, t)) (k : p.2.fuses = s.fuses) : t.fuses = s.fuses := by
  subst h
  exact k

/-- So for a triple. -/
theorem third_fuses_of_eq {A B : Type} {p : A × B × State} {a : A} {b : B} {s t : State} (h : p = (a, b, t)) (k : p.2.2.fuses = s.fuses) :
    t.fuses = s.fuses := by
  subst h
  exact k

/-- Where an operation that may fail keeps the fuses, so does the state that stands if it failed. -/
theorem State.getD_fuses {o : Option State} {s : State} (h : ∀ t, o = some t → t.fuses = s.fuses) : (o.getD s).fuses = s.fuses := by
  cases o with
  | none => rfl
  | some t => exact h t rfl

/-! ### The shared operations of the state -/

@[simp] theorem State.setCell_fuses (s : State) (c : Nat) (x : Cell) : (s.setCell c x).fuses = s.fuses := by rfl

@[simp] theorem State.updCell_fuses (s : State) (c : Nat) (f : Cell → Cell) : (s.updCell c f).fuses = s.fuses := by rfl

@[simp] theorem State.setBay_fuses (s : State) (b : Nat) (x : Bay) : (s.setBay b x).fuses = s.fuses := by rfl

@[simp] theorem State.updBay_fuses (s : State) (b : Nat) (f : Bay → Bay) : (s.updBay b f).fuses = s.fuses := by rfl

@[simp] theorem State.setSuite_fuses (s : State) (i : Nat) (x : Suite) : (s.setSuite i x).fuses = s.fuses := by rfl

@[simp] theorem State.updSuite_fuses (s : State) (i : Nat) (f : Suite → Suite) : (s.updSuite i f).fuses = s.fuses := by rfl

@[simp] theorem State.setPort_fuses (s : State) (p : Nat) (x : MemPort) : (s.setPort p x).fuses = s.fuses := by rfl

@[simp] theorem State.updPort_fuses (s : State) (p : Nat) (f : MemPort → MemPort) : (s.updPort p f).fuses = s.fuses := by rfl

@[simp] theorem State.setGport_fuses (s : State) (g : Nat) (x : GaconPort) : (s.setGport g x).fuses = s.fuses := by rfl

@[simp] theorem State.updGport_fuses (s : State) (g : Nat) (f : GaconPort → GaconPort) : (s.updGport g f).fuses = s.fuses := by rfl

@[simp] theorem State.setBarrier_fuses (s : State) (n : Nat) (x : Barrier) : (s.setBarrier n x).fuses = s.fuses := by rfl

@[simp] theorem State.setSeqEntry_fuses (s : State) (n : Nat) (x : SeqEntry) : (s.setSeqEntry n x).fuses = s.fuses := by rfl

@[simp] theorem State.setStream_fuses (s : State) (x : StreamCtx) (v : StreamState) : (s.setStream x v).fuses = s.fuses := by rfl

@[simp] theorem State.updStream_fuses (s : State) (x : StreamCtx) (f : StreamState → StreamState) : (s.updStream x f).fuses = s.fuses := by rfl

@[simp] theorem State.fresh_fuses (s : State) : (s.fresh).2.fuses = s.fuses := by rfl

@[simp] theorem State.msix_fuses (s : State) (f : HostFn) (v : Nat) : (s.msix f v).fuses = s.fuses := by rfl

@[simp] theorem State.giveRead_fuses (s : State) (v : W64) : (s.giveRead v).fuses = s.fuses := by rfl

@[simp] theorem State.addRecord_fuses (s : State) (ty : Nat) (suite : Option Nat) (r : W256) : (s.addRecord ty suite r).fuses = s.fuses := by
  unfold State.addRecord; split <;> simp

@[simp] theorem State.report_fuses (s : State) (ty code cls addr info : Nat) (unit : UnitRef) (suite : Option Nat) :
    (s.report ty code cls addr info unit suite).fuses = s.fuses := by simp [State.report]

@[simp] theorem State.suiteError_fuses (s : State) (code addr info : Nat) (unit : UnitRef) (suite : Option Nat) :
    (s.suiteError code addr info unit suite).fuses = s.fuses := by simp [State.suiteError]

@[simp] theorem State.logEvent_fuses (s : State) (code addr info : Nat) (suite : Option Nat) :
    (s.logEvent code addr info suite).fuses = s.fuses := by rfl

@[simp] theorem State.logDiscard_fuses (s : State) (f : Option HostFn) (addr : Nat) : (s.logDiscard f addr).fuses = s.fuses := by rfl

@[simp] theorem State.corrected_fuses (s : State) (code addr : Nat) (unit : UnitRef) (suite : Option Nat) :
    (s.corrected code addr unit suite).fuses = s.fuses := by simp [State.corrected]

@[simp] theorem State.countBay_fuses (s : State) (b ev v : Nat) : (s.countBay b ev v).fuses = s.fuses := by simp [State.countBay]

@[simp] theorem State.countDev_fuses (s : State) (ev unit v : Nat) : (s.countDev ev unit v).fuses = s.fuses := by rfl

@[simp] theorem State.suiteFault_fuses (s : State) (i cls : Nat) (job : Bool) (fault : Option (Nat × Nat × Nat × Nat)) (check : Option UnitTest) :
    (s.suiteFault i cls job fault check).fuses = s.fuses := by rfl

@[simp] theorem State.takeFault_fuses (s : State) (c cause detail addr : Nat) (exec : Bool) (f : FaultAt) :
    (s.takeFault c cause detail addr exec f).fuses = s.fuses := by
  fun_cases State.takeFault s c cause detail addr exec f <;> simp +zetaDelta

@[simp] theorem State.poisonPane_fuses (s : State) (c g code : Nat) : (s.poisonPane c g code).fuses = s.fuses := by
  fun_cases State.poisonPane s c g code <;> simp

@[simp] theorem State.fixWords_fuses (s : State) (c : Nat) (fixed : List (Nat × W32)) : (s.fixWords c fixed).fuses = s.fuses := by
  simp [State.fixWords]

@[simp] theorem State.noteBad_fuses (s : State) (c : Nat) (bad : List Nat) : (s.noteBad c bad).fuses = s.fuses := by simp [State.noteBad]

@[simp] theorem State.zoneNotice_fuses (s : State) (c z : Nat) (commit : Bool) : (s.zoneNotice c z commit).fuses = s.fuses := by
  simp [State.zoneNotice]

@[simp] theorem State.requestNotice_fuses (s : State) (c z : Nat) (commit : Bool) (beat : Option Nat) :
    (s.requestNotice c z commit beat).fuses = s.fuses := by rfl

@[simp] theorem State.applyNotices_fuses (s : State) (c z : Nat) (due : ZoneNotice → Bool) : (s.applyNotices c z due).fuses = s.fuses := by
  simp [State.applyNotices]

@[simp] theorem State.requestMode_fuses (s : State) (c z : Nat) (credit : Bool) : (s.requestMode c z credit).fuses = s.fuses := by rfl

@[simp] theorem State.toHub_fuses (s : State) (c : Nat) (i : HubItem) : (s.toHub c i).fuses = s.fuses := by rfl

@[simp] theorem State.sendCredit_fuses (s : State) (c z n part queue : Nat) : (s.sendCredit c z n part queue).fuses = s.fuses := by rfl

@[simp] theorem State.seedCountdown_fuses (s : State) (b n : Nat) : (s.seedCountdown b n).fuses = s.fuses := by rfl

@[simp] theorem State.eligible_fuses (s : State) (c : Nat) (i : Issued) : (s.eligible c i).fuses = s.fuses := by
  unfold State.eligible; split <;> simp

@[simp] theorem State.pushSend_fuses (s : State) (c ch : Nat) (f : Flit) : (s.pushSend c ch f).fuses = s.fuses := by simp [State.pushSend]

@[simp] theorem State.voidFlit_fuses (s : State) : (s.voidFlit).2.fuses = s.fuses := by rfl

@[simp] theorem State.voidFlits_fuses (s : State) (n : Nat) : (s.voidFlits n).2.fuses = s.fuses := by
  induction n generalizing s with
  | zero => rfl
  | succ n ih => exact (ih _).trans s.voidFlit_fuses

@[simp] theorem State.takeStrip_fuses (s : State) (c ch : Nat) : (s.takeStrip c ch).2.2.fuses = s.fuses := by simp [State.takeStrip]

@[simp] theorem State.spoil_fuses (s : State) (i : Nat) : (s.spoil i).fuses = s.fuses := by rfl

/-! ### Effects of the move unit and the hub -/

@[simp] theorem State.hubEffect_fuses (s : State) (c : Nat) (i : Issued) (bs : List Byte) : (s.hubEffect c i bs).fuses = s.fuses := by
  simp [State.hubEffect]

@[simp] theorem State.zctlEffect_fuses (s : State) (c : Nat) (i : Issued) : (s.zctlEffect c i).fuses = s.fuses := by simp [State.zctlEffect]

/-! ### Fetch -/

@[simp] theorem State.takeNext_fuses (s : State) (c : Nat) : (s.takeNext c).fuses = s.fuses := by
  fun_cases State.takeNext s c <;> simp

/-! ### HBM -/

@[simp] theorem State.hbmRunW_fuses (s : State) (a : Nat) (bs : List Byte) (n : Nat) : (s.hbmRunW a bs n).fuses = s.fuses :=
  (congrArg State.fuses (s.hbmRunW_others a bs n) :)

@[simp] theorem State.hbmWrite_fuses (s : State) (a : Nat) (bs : List Byte) : (s.hbmWrite a bs).fuses = s.fuses := by simp [State.hbmWrite]

@[simp] theorem State.hbmClear_fuses (s : State) (lo hi : Nat) : (s.hbmClear lo hi).fuses = s.fuses := by rfl

@[simp] theorem State.meterHbm_fuses (s : State) (i : Nat) : (s.meterHbm i).fuses = s.fuses := by rfl

/-! ### Messages, notices, transactions and barriers -/

@[simp] theorem State.toCell_fuses (s : State) (m : W256) (vc : Option Nat) : (s.toCell m vc).fuses = s.fuses := by rfl

@[simp] theorem State.freeTxn_fuses (s : State) (g vc : Nat) (t : Txn) : (s.freeTxn g vc t).fuses = s.fuses := by simp [State.freeTxn]

@[simp] theorem State.placeNotice_fuses (s : State) (m : W256) : (s.placeNotice m).fuses = s.fuses := by simp [State.placeNotice]

@[simp] theorem State.queueTxn_fuses (s : State) (g vc : Nat) (t : Txn) : (s.queueTxn g vc t).fuses = s.fuses := by rfl

@[simp] theorem State.sendNotice_fuses (s : State) (vc suite reason addr len src wseq : Nat) :
    (s.sendNotice vc suite reason addr len src wseq).fuses = s.fuses := by
  fun_cases State.sendNotice s vc suite reason addr len src wseq <;> simp

@[simp] theorem State.barErr_fuses (s : State) (n : Nat) (genchk : Bool) (gen : W16) : (s.barErr n genchk gen).fuses = s.fuses := by
  simp [State.barErr]

@[simp] theorem State.txnLost_fuses (s : State) (vc : Nat) (t : Txn) (reason addr len : Nat) : (s.txnLost vc t reason addr len).fuses = s.fuses := by
  unfold State.txnLost; split <;> simp

@[simp] theorem State.voidReturn_fuses (s : State) (tag : W32) : (s.voidReturn tag).fuses = s.fuses := by
  unfold State.voidReturn
  dsimp only
  split <;> rfl

@[simp] theorem State.noRoute_fuses (s : State) (vc : Nat) (t : Txn) (reason : Nat) : (s.noRoute vc t reason).fuses = s.fuses := by
  fun_cases State.noRoute s vc t reason <;> simp

@[simp] theorem State.sendTxn_fuses (s : State) (g vc : Nat) (t : Txn) : (s.sendTxn g vc t).fuses = s.fuses := by
  fun_cases State.sendTxn s g vc t <;> simp

@[simp] theorem State.sendMessage_fuses (s : State) (suite : Nat) (m : W256) : (s.sendMessage suite m).fuses = s.fuses := by simp [State.sendMessage]

@[simp] theorem State.barComplete_fuses (s : State) (n : Nat) : (s.barComplete n).fuses = s.fuses := by simp [State.barComplete]

@[simp] theorem State.barCommand_fuses (s : State) (n : Nat) (arrive err genchk : Bool) (gen : W16) :
    (s.barCommand n arrive err genchk gen).fuses = s.fuses := by simp [State.barCommand]

@[simp] theorem State.popTxn_fuses (s : State) (g vc : Nat) : (s.popTxn g vc).fuses = s.fuses := by rfl

@[simp] theorem State.endTxn_fuses (s : State) (g vc : Nat) (t : Txn) : (s.endTxn g vc t).fuses = s.fuses := by simp [State.endTxn]

@[simp] theorem State.decideItem_fuses (s : State) (i : WriteItem) (lost : Option (Nat × Nat)) : (s.decideItem i lost).fuses = s.fuses := by
  unfold State.decideItem
  dsimp only
  split
  · rfl
  · split <;> cases lost <;> simp

@[simp] theorem State.openWrite_fuses (s : State) (g vc : Nat) (t : Txn) (items : List Nat) : (s.openWrite g vc t items).fuses = s.fuses := by rfl

@[simp] theorem State.refuseTxn_fuses (s : State) (g vc : Nat) (t : Txn) (reason : Nat) : (s.refuseTxn g vc t reason).fuses = s.fuses := by
  simp [State.refuseTxn]

/-! ### Landing strips -/

@[simp] theorem State.decideStrip_fuses (s : State) (item : Option WriteItem) (reason : Option Nat) :
    (s.decideStrip item reason).fuses = s.fuses := by
  unfold State.decideStrip; split <;> simp

@[simp] theorem State.refusalReport_fuses (s : State) (c z a : Nat) : (s.refusalReport c z a).fuses = s.fuses := by
  fun_cases State.refusalReport s c z a <;> simp

@[simp] theorem landBytes_fuses (s : State) (l : Landing) : (landBytes s l).2.fuses = s.fuses :=
  foldl_keeps (fun a : List Byte × State => a.2.fuses) _ (fun a f => by
    cases f with
    | none => exact a.2.voidFlit_fuses
    | some f => rfl) l.data ([], s)

@[simp] theorem State.landStrip_fuses (s : State) (c : Nat) (l : Landing) : (s.landStrip c l).1.fuses = s.fuses := by
  fun_cases State.landStrip s c l
  case case7 => simp +zetaDelta [snd_fuses_of_eq ‹_› (landBytes_fuses _ _)]
  all_goals simp +zetaDelta

/-! ### A clock cycle, and time -/

@[simp] theorem State.sendDue_fuses (s : State) (c t : Nat) (f : InFlight) : (s.sendDue c t f).fuses = s.fuses := by simp [State.sendDue]

@[simp] theorem State.serveAccess_fuses (s : State) (c : Nat) (a : SpadAccess) : (s.serveAccess c a).fuses = s.fuses := by
  fun_cases State.serveAccess s c a <;> simp +zetaDelta

@[simp] theorem State.serveFree_fuses (s : State) (c : Nat) (free next : Nat → Bool) : (s.serveFree c free next).fuses = s.fuses := by
  unfold State.serveFree
  split
  · rfl
  · refine State.foldl_fuses _ (fun s o => ?_) _ s
    dsimp only
    split
    · rfl
    · split <;> simp

@[simp] theorem State.zoneEvents_fuses (s : State) (c t : Nat) : (s.zoneEvents c t).fuses = s.fuses := by
  refine State.foldl_fuses _ (fun s e => ?_) _ s
  dsimp only
  split <;> simp

@[simp] theorem Found.fault_fuses (d : Found) (c t : Nat) (f : InFlight) (cause detail addr : Nat) :
    (d.fault c t f cause detail addr).s.fuses = d.s.fuses := by rfl

@[simp] theorem Found.badWord_fuses (d : Found) (c t : Nat) (f : InFlight) (bad : List Nat) : (d.badWord c t f bad).s.fuses = d.s.fuses := by
  cases bad with
  | nil => rfl
  | cons a r => exact d.s.noteBad_fuses c (a :: r)

/-- A fold over what a cycle finds keeps the fuses when each of its steps does. -/
@[simp] theorem Found.foldl_fuses {B : Type} (op : Found → B → Found) (h : ∀ d b, (op d b).s.fuses = d.s.fuses) (l : List B) (d : Found) :
    (l.foldl op d).s.fuses = d.s.fuses := foldl_keeps (fun d : Found => d.s.fuses) op h l d

@[simp] theorem Found.collide_fuses (d : Found) (c t : Nat) (as : List Access) : (d.collide c t as).s.fuses = d.s.fuses := by
  refine Found.foldl_fuses _ (fun d o => ?_) _ d
  dsimp only
  split <;> simp

@[simp] theorem Found.reads_fuses (d : Found) (c t : Nat) (f : InFlight) : (d.reads c t f).s.fuses = d.s.fuses := by
  refine Found.foldl_fuses _ (fun d r => ?_) _ d
  dsimp only
  split <;> split <;> simp

@[simp] theorem Found.ite_fuses (c : Prop) {_ : Decidable c} (a b : Found) : (if c then a else b).s.fuses = if c then a.s.fuses else b.s.fuses :=
  apply_ite (fun d : Found => d.s.fuses) c a b

@[simp] theorem Found.writes_fuses (d : Found) (c t : Nat) (f0 : InFlight) : (d.writes c t f0).s.fuses = d.s.fuses := by
  unfold Found.writes
  extract_lets begun d1 x
  have kept : d1.s.fuses = d.s.fuses := by
    unfold d1
    split
    · rfl
    · refine Found.foldl_fuses _ (fun d w => ?_) begun d
      dsimp only
      split <;> simp
  clear_value d1
  split
  · exact kept
  · dsimp only
    split
    · exact kept
    · exact kept

@[simp] theorem Found.engines_fuses (d : Found) (c : Nat) (run : Bool) (lands : List Landing) : (d.engines c run lands).s.fuses = d.s.fuses := by
  simp [Found.engines]

@[simp] theorem State.cellCycle_fuses (s : State) (c : Nat) : (s.cellCycle c).fuses = s.fuses := by
  simp [State.cellCycle, ↓State.fuses_ite]
  split <;> simp

@[simp] theorem State.takeDue_fuses (s : State) (c : Nat) : (s.takeDue c).fuses = s.fuses := by simp [State.takeDue]

@[simp] theorem State.retire_fuses (s : State) (c : Nat) : (s.retire c).fuses = s.fuses := by simp [State.retire]

@[simp] theorem State.clockTo_fuses (s : State) (t : Nat) : (s.clockTo t).fuses = s.fuses := by rfl

@[simp] theorem State.passCell_fuses (c len fuel n : Nat) (s : State) : (State.passCell c len fuel n s).fuses = s.fuses := by
  induction fuel generalizing n s with
  | zero => rfl
  | succ fuel ih =>
    unfold State.passCell
    split
    · rfl
    · simp [ih]

@[simp] theorem State.passCells_fuses (s : State) (k : Nat) : (s.passCells k).fuses = s.fuses := by
  refine State.foldl_fuses _ (fun s' e => ?_) _ s
  dsimp only
  split <;> simp

@[simp] theorem State.passBays_fuses (s : State) (k : Nat) : (s.passBays k).fuses = s.fuses := by
  refine State.foldl_fuses _ (fun s e => ?_) _ s
  split <;> simp

@[simp] theorem State.passMeters_fuses (s : State) (k : Nat) : (s.passMeters k).fuses = s.fuses := by
  refine State.foldl_fuses _ (fun s e => ?_) _ s
  split <;> simp

@[simp] theorem State.passHolds_fuses (s : State) (k : Nat) : (s.passHolds k).fuses = s.fuses := by simp [State.passHolds]

@[simp] theorem State.passLevels_fuses (s : State) (k : Nat) : (s.passLevels k).fuses = s.fuses := by simp [State.passLevels]

@[simp] theorem State.advance_fuses (s : State) (k : Nat) : (s.advance k).fuses = s.fuses := by simp [State.advance]

@[simp] theorem State.waitUntil_fuses (s : State) (t : Nat) : (s.waitUntil t).fuses = s.fuses := by simp [State.waitUntil]

@[simp] theorem State.freshIn_fuses (s : State) (len : Nat) : (s.freshIn len).fuses = s.fuses := by simp [State.freshIn]

/-- A wait for a cell's cycle keeps the fuses. -/
theorem State.waitCycle_fuses {s s1 : State} {c t : Nat} (h : s.waitCycle c t = some s1) : s1.fuses = s.fuses := by
  unfold State.waitCycle at h
  dsimp only at h
  split at h
  · cases h
  · simp only [Option.ite_none_left_eq_some] at h
    obtain ⟨-, h⟩ := h
    split at h <;> cases h <;> simp

/-! ### Issue of an instruction -/

@[simp] theorem State.driedOne_fuses (s : State) (x : Cell) : (s.driedOne x).fuses = s.fuses := by
  unfold State.driedOne; split <;> simp

@[simp] theorem seqEffect_fuses (s : State) (c : Nat) (w : BitVec 128) (n : Nat) : (seqEffect s c w n).fuses = s.fuses := by
  fun_cases seqEffect s c w n <;> simp +zetaDelta

@[simp] theorem State.issuedDone_fuses (s : State) (c : Nat) (i : Issued) : (s.issuedDone c i).fuses = s.fuses := by simp [State.issuedDone]

@[simp] theorem issueMain_fuses (op c : Nat) (s : State) : (issueMain op c s).fuses = s.fuses := by
  fun_cases issueMain op c s
  case case1 => rfl
  all_goals simp +zetaDelta [State.waitCycle_fuses ‹_ = some _›]

@[simp] theorem issueEndloop_fuses (c : Nat) (s : State) : (issueEndloop c s).fuses = s.fuses := by
  fun_cases issueEndloop c s
  case case1 => rfl
  all_goals simp [State.waitCycle_fuses ‹_ = some _›]

@[simp] theorem issueHandler_fuses (op c : Nat) (s : State) : (issueHandler op c s).fuses = s.fuses := by
  fun_cases issueHandler op c s
  case case1 => rfl
  all_goals
    obtain ⟨h, -, waited⟩ := Option.bind_eq_some_iff.mp ‹Option.bind _ _ = some _›
    simp +zetaDelta [State.waitCycle_fuses waited]

@[simp] theorem issue_fuses (op : Nat) (c : CellId) (x : Ctx) (s : State) : (nextOf s (issue op c x s)).fuses = s.fuses := by
  cases x <;> unfold issue <;> simp

/-! ### Message queues -/

@[simp] theorem State.parityFault_fuses (s : State) (c detail addr : Nat) : (s.parityFault c detail addr).fuses = s.fuses := by rfl

@[simp] theorem State.dropMessage_fuses (s : State) (c q : Nat) : (s.dropMessage c q).fuses = s.fuses := by simp [State.dropMessage]

@[simp] theorem State.enqueue_fuses (s : State) (c : Nat) (a : Arrival) : (s.enqueue c a).fuses = s.fuses := by
  fun_cases State.enqueue s c a <;> simp

@[simp] theorem State.popHead_fuses (s : State) (c q : Nat) : (s.popHead c q).2.fuses = s.fuses := by
  fun_cases State.popHead s c q <;> simp +zetaDelta

@[simp] theorem State.qpop_fuses (s : State) (c q : Nat) : (s.qpop c q).2.fuses = s.fuses := by
  simp only [State.qpop]
  split
  · simp
  · simp [apply_ite Prod.snd]

/-! ### Events of a cell -/

theorem State.waitPhase_fuses {s s1 : State} {c ph : Nat} (h : s.waitPhase c ph = some s1) : s1.fuses = s.fuses := by
  unfold State.waitPhase at h
  dsimp only at h
  split at h
  · cases h
  · split at h <;> cases h <;> simp

@[simp] theorem execIssueCheckPoint_fuses (c : CellId) (s : State) : (nextOf s (execIssueCheckPoint c s)).fuses = s.fuses := by
  fun_cases execIssueCheckPoint c s
  case case2 => simp [State.waitPhase_fuses ‹_ = some _›]
  case case4 => simp [State.waitCycle_fuses ‹_ = some _›]
  case case5 => simp [State.waitCycle_fuses ‹_ = some _›]
  all_goals rfl

@[simp] theorem execLateCheckPass_fuses (c : CellId) (s : State) : (nextOf s (execLateCheckPass c s)).fuses = s.fuses := by simp [execLateCheckPass]

theorem State.startAt_fuses {s s1 : State} {c : Nat} {e : Engine} {i : Issued} {free : Nat} (h : s.startAt c e i free = some s1) :
    s1.fuses = s.fuses := by
  unfold State.startAt at h
  dsimp only at h
  split at h
  · cases h
  · exact State.waitCycle_fuses h

@[simp] theorem State.begin_fuses (s : State) (c : Nat) (f : InFlight) : (s.begin c f).fuses = s.fuses := by simp [State.begin]

@[simp] theorem startMatrix_fuses (c : Nat) (s : State) : (startMatrix c s).fuses = s.fuses := by
  fun_cases startMatrix c s
  case case1 => rfl
  case case2 => rfl
  all_goals simp [State.waitCycle_fuses ‹_ = some _›]

@[simp] theorem startVector_fuses (c : Nat) (s : State) : (startVector c s).fuses = s.fuses := by
  fun_cases startVector c s
  case case1 => rfl
  case case2 => rfl
  all_goals simp [State.startAt_fuses ‹_ = some _›]

@[simp] theorem startReduction_fuses (c : Nat) (s : State) : (startReduction c s).fuses = s.fuses := by
  fun_cases startReduction c s
  case case1 => rfl
  case case2 => rfl
  all_goals simp [State.startAt_fuses ‹_ = some _›]

@[simp] theorem startMove_fuses (c : Nat) (s : State) : (startMove c s).fuses = s.fuses := by
  fun_cases startMove c s
  case case4 got =>
    have started := State.startAt_fuses ‹_ = some _›
    have popped := snd_fuses_of_eq (s := s) got (by simp +zetaDelta [apply_ite Prod.snd, apply_ite State.fuses, started])
    simp [popped]
  all_goals rfl

@[simp] theorem startCounter_fuses (c : Nat) (s : State) : (startCounter c s).fuses = s.fuses := by
  fun_cases startCounter c s
  case case1 => rfl
  case case2 => rfl
  all_goals simp [State.startAt_fuses ‹_ = some _›]

@[simp] theorem execMatrixStart_fuses (c : CellId) (s : State) : (nextOf s (execMatrixStart c s)).fuses = s.fuses := by simp [execMatrixStart]

@[simp] theorem execVectorStart_fuses (c : CellId) (s : State) : (nextOf s (execVectorStart c s)).fuses = s.fuses := by simp [execVectorStart]

@[simp] theorem execReductionStart_fuses (c : CellId) (s : State) : (nextOf s (execReductionStart c s)).fuses = s.fuses := by
  simp [execReductionStart]

@[simp] theorem execMoveSendStart_fuses (c : CellId) (s : State) : (nextOf s (execMoveSendStart c s)).fuses = s.fuses := by simp [execMoveSendStart]

@[simp] theorem execCounterUnitStart_fuses (c : CellId) (s : State) : (nextOf s (execCounterUnitStart c s)).fuses = s.fuses := by
  simp [execCounterUnitStart]

@[simp] theorem execInstructionComplete_fuses (c : CellId) (e : Engine) (s : State) : (nextOf s (execInstructionComplete c e s)).fuses = s.fuses := by
  fun_cases execInstructionComplete c e s
  case case1 => rfl
  case case2 => exact State.getD_fuses fun _ => State.waitCycle_fuses

@[simp] theorem execLandingStrip_fuses (c : CellId) (octant : Fin 8) (s : State) : (nextOf s (execLandingStrip c octant s)).fuses = s.fuses := by
  fun_cases execLandingStrip c octant s <;> simp

@[simp] theorem State.dispatch_fuses (s : State) (c queue ready : Nat) : (s.dispatch c queue ready).fuses = s.fuses := by
  fun_cases State.dispatch s c queue ready
  case case1 => simp
  case case2 => simp
  all_goals simp +zetaDelta [snd_fuses_of_eq ‹_ = (_, _)› (s.popHead_fuses c queue)]

@[simp] theorem execHandlerDispatch_fuses (c : CellId) (s : State) : (nextOf s (execHandlerDispatch c s)).fuses = s.fuses := by
  fun_cases execHandlerDispatch c s
  case case1 => rfl
  case case2 => rfl
  all_goals
    have kept := State.waitCycle_fuses (Option.ite_none_right_eq_some.mp ‹_ = some _›).2
    simp +zetaDelta [kept]

/-! ### Commands that issue an instruction not named by its opcode alone -/

@[simp] theorem issueZctl_fuses (k : Nat) (c : CellId) (x : Ctx) (s : State) : (nextOf s (issueZctl k c x s)).fuses = s.fuses := by
  unfold issueZctl; simp

@[simp] theorem issueEnd_fuses (c : CellId) (x : Ctx) (s : State) : (nextOf s (issueEnd c x s)).fuses = s.fuses := by
  cases x <;> unfold issueEnd <;> simp

@[simp] theorem execEndloop_fuses (c : CellId) (x : Ctx) (s : State) : (nextOf s (execEndloop c x s)).fuses = s.fuses := by simp [execEndloop]

@[simp] theorem execZctlGrant_fuses (c : CellId) (x : Ctx) (s : State) : (nextOf s (execZctlGrant c x s)).fuses = s.fuses := by simp [execZctlGrant]

@[simp] theorem execZctlCommit_fuses (c : CellId) (x : Ctx) (s : State) : (nextOf s (execZctlCommit c x s)).fuses = s.fuses := by
  simp [execZctlCommit]

@[simp] theorem execZctlVoid_fuses (c : CellId) (x : Ctx) (s : State) : (nextOf s (execZctlVoid c x s)).fuses = s.fuses := by simp [execZctlVoid]

@[simp] theorem execZctlNormalMode_fuses (c : CellId) (x : Ctx) (s : State) : (nextOf s (execZctlNormalMode c x s)).fuses = s.fuses := by
  simp [execZctlNormalMode]

@[simp] theorem execZctlCreditMode_fuses (c : CellId) (x : Ctx) (s : State) : (nextOf s (execZctlCreditMode c x s)).fuses = s.fuses := by
  simp [execZctlCreditMode]

/-! ### The hub and barrier commands -/

@[simp] theorem State.takeUp_fuses (s : State) (i b : Nat) : (s.takeUp i b).fuses = s.fuses := by
  unfold State.takeUp; split <;> simp

@[simp] theorem State.takeHub_fuses (s : State) (i b : Nat) (released : Bool) : (s.takeHub i b released).fuses = s.fuses := by simp [State.takeHub]

@[simp] theorem State.routeMessage_fuses (s : State) (i : Nat) (c : CellId) (m : W256) : (s.routeMessage i c m).fuses = s.fuses := by
  simp [State.routeMessage]

@[simp] theorem execHubPathTransfer_fuses (c : CellId) (up : Bool) (s : State) : (nextOf s (execHubPathTransfer c up s)).fuses = s.fuses := by
  fun_cases execHubPathTransfer c up s <;> simp +zetaDelta

@[simp] theorem execHubMessageRoute_fuses (b : BayId) (s : State) : (nextOf s (execHubMessageRoute b s)).fuses = s.fuses := by
  fun_cases execHubMessageRoute b s <;> simp

@[simp] theorem execMessageEnqueue_fuses (c : CellId) (s : State) : (nextOf s (execMessageEnqueue c s)).fuses = s.fuses := by
  fun_cases execMessageEnqueue c s <;> simp +zetaDelta

@[simp] theorem State.refuseBar_fuses (s : State) (n : Nat) (src : BarSrc) : (s.refuseBar n src).fuses = s.fuses := by
  unfold State.refuseBar; split <;> simp

@[simp] theorem State.armBarrier_fuses (s : State) (n : Nat) : (s.armBarrier n).fuses = s.fuses := by simp [State.armBarrier]

@[simp] theorem State.disarmBarrier_fuses (s : State) (n : Nat) : (s.disarmBarrier n).fuses = s.fuses := by simp [State.disarmBarrier]

@[simp] theorem State.barTxn_fuses (s : State) (g vc : Nat) (t : Txn) : (s.barTxn g vc t).fuses = s.fuses := by
  unfold State.barTxn; split <;> simp

@[simp] theorem State.remoteBar_fuses (s : State) (part i n : Nat) (ok : W64 → Bool) : (s.remoteBar part i n ok).fuses = s.fuses := by
  unfold State.remoteBar; split <;> simp

@[simp] theorem execBarCmdArm_fuses (src : BarSrc) (n : BarId) (s : State) : (nextOf s (execBarCmdArm src n s)).fuses = s.fuses := by
  unfold execBarCmdArm; split <;> simp

@[simp] theorem execBarCmdDisarm_fuses (src : BarSrc) (n : BarId) (s : State) : (nextOf s (execBarCmdDisarm src n s)).fuses = s.fuses := by
  unfold execBarCmdDisarm; split <;> simp

@[simp] theorem execBarCmdArrive_fuses (src : BarSrc) (n : BarId) (err genchk : Bool) (gen : W16) (s : State) :
    (nextOf s (execBarCmdArrive src n err genchk gen s)).fuses = s.fuses := by
  fun_cases execBarCmdArrive src n err genchk gen s <;> simp +zetaDelta

@[simp] theorem execBarCmdErr_fuses (src : BarSrc) (n : BarId) (genchk : Bool) (gen : W16) (s : State) :
    (nextOf s (execBarCmdErr src n genchk gen s)).fuses = s.fuses := by
  unfold execBarCmdErr; split <;> simp

@[simp] theorem execBarCfgWrite_fuses (f : HostFn) (n : BarId) (reg : Fin 5) (v : W64) (s : State) :
    (nextOf s (execBarCfgWrite f n reg v s)).fuses = s.fuses := by simp [execBarCfgWrite]

/-! ### Scratchpads and zones -/

@[simp] theorem State.access_fuses (s : State) (c : Nat) (a : SpadAccess) : (s.access c a).fuses = s.fuses := by simp [State.access]

@[simp] theorem execScrubRead_fuses (c : CellId) (o : Fin 8) (s : State) : (nextOf s (execScrubRead c o s)).fuses = s.fuses := by simp [execScrubRead]

@[simp] theorem State.boundedCause_fuses (s : State) (i origin : Nat) : (s.boundedCause i origin).fuses = s.fuses := by simp [State.boundedCause]

@[simp] theorem execScrubIntervalEnd_fuses (c : CellId) (s : State) : (nextOf s (execScrubIntervalEnd c s)).fuses = s.fuses := by
  unfold execScrubIntervalEnd
  dsimp only
  rw [nextOf_next_fuses]
  split <;> simp

@[simp] theorem execCorrectionWriteBack_fuses (c : CellId) (o : Fin 8) (s : State) : (nextOf s (execCorrectionWriteBack c o s)).fuses = s.fuses := by
  simp [execCorrectionWriteBack]

@[simp] theorem execMgmtScratchpadRead_fuses (c : CellId) (word : BitVec 20) (s : State) :
    (nextOf s (execMgmtScratchpadRead c word s)).fuses = s.fuses := by simp [execMgmtScratchpadRead]

@[simp] theorem execMgmtScratchpadWrite_fuses (c : CellId) (word : BitVec 20) (v : W32) (be : BitVec 4) (s : State) :
    (nextOf s (execMgmtScratchpadWrite c word v be s)).fuses = s.fuses := by simp [execMgmtScratchpadWrite]

@[simp] theorem State.passNotice_fuses (s : State) (c z : Nat) (commit : Bool) : (s.passNotice c z commit).fuses = s.fuses := by
  fun_cases State.passNotice s c z commit
  case case1 => rfl
  case case2 => simp
  case case3 => exact State.getD_fuses fun _ => State.waitCycle_fuses

@[simp] theorem execZoneCommit_fuses (c : CellId) (z : ZoneId) (s : State) : (nextOf s (execZoneCommit c z s)).fuses = s.fuses := by
  simp [execZoneCommit]

@[simp] theorem execZoneVoid_fuses (c : CellId) (z : ZoneId) (s : State) : (nextOf s (execZoneVoid c z s)).fuses = s.fuses := by simp [execZoneVoid]

@[simp] theorem execZoneModeChange_fuses (c : CellId) (z : ZoneId) (s : State) : (nextOf s (execZoneModeChange c z s)).fuses = s.fuses := by
  rw [execZoneModeChange, nextOf_next_fuses]
  split
  · rfl
  · exact State.getD_fuses fun _ => State.waitCycle_fuses

@[simp] theorem State.writeLz_fuses (s : State) (f : HostFn) (c z : Nat) (v : W64) : (s.writeLz f c z v).fuses = s.fuses := by simp [State.writeLz]

@[simp] theorem execLzCfgCommit_fuses (f : HostFn) (c : CellId) (z : ZoneId) (rest : W64) (s : State) :
    (nextOf s (execLzCfgCommit f c z rest s)).fuses = s.fuses := by simp [execLzCfgCommit]

@[simp] theorem execLzCfgVoid_fuses (f : HostFn) (c : CellId) (z : ZoneId) (rest : W64) (s : State) :
    (nextOf s (execLzCfgVoid f c z rest s)).fuses = s.fuses := by simp [execLzCfgVoid]

@[simp] theorem execLzCfgGrant_fuses (f : HostFn) (c : CellId) (z : ZoneId) (g : W16) (s : State) :
    (nextOf s (execLzCfgGrant f c z g s)).fuses = s.fuses := by simp [execLzCfgGrant]

@[simp] theorem execLzCfgWrite_fuses (f : HostFn) (c : CellId) (z : ZoneId) (v : W64) (s : State) :
    (nextOf s (execLzCfgWrite f c z v s)).fuses = s.fuses := by simp [execLzCfgWrite]

/-! ### Holds and isolation -/

theorem State.waitBeat_fuses {s s1 : State} {i ph : Nat} (h : s.waitBeat i ph = some s1) : s1.fuses = s.fuses := by
  unfold State.waitBeat at h
  dsimp only at h
  split at h
  · cases h
  · split at h <;> cases h <;> simp

theorem State.waitBoundary_fuses {s s1 : State} {i : Nat} (h : s.waitBoundary i = some s1) : s1.fuses = s.fuses := by
  unfold State.waitBoundary at h
  dsimp only at h
  split at h
  · cases h
  · split at h <;> cases h <;> simp

@[simp] theorem State.rootSample_fuses (s : State) (i : Nat) : (s.rootSample i).fuses = s.fuses := by rfl

@[simp] theorem execHoldRootSample_fuses (sid : SuiteId) (s : State) : (nextOf s (execHoldRootSample sid s)).fuses = s.fuses := by
  fun_cases execHoldRootSample sid s
  case case1 => rfl
  case case2 waited =>
    obtain ⟨s1, first, second⟩ := Option.bind_eq_some_iff.mp waited
    have kept : s1.fuses = s.fuses := by
      split at first
      · exact State.waitBoundary_fuses first
      · cases first; rfl
    simp [State.waitBeat_fuses second, kept]

@[simp] theorem execHoldBegin_fuses (sid : SuiteId) (s : State) : (nextOf s (execHoldBegin sid s)).fuses = s.fuses := by
  fun_cases execHoldBegin sid s
  case case3 => simp +zetaDelta [State.waitBoundary_fuses ‹_ = some _›]
  all_goals rfl

@[simp] theorem State.releaseHold_fuses (s : State) (i : Nat) : (s.releaseHold i).fuses = s.fuses := by simp [State.releaseHold]

@[simp] theorem execHoldEnd_fuses (sid : SuiteId) (s : State) : (nextOf s (execHoldEnd sid s)).fuses = s.fuses := by
  fun_cases execHoldEnd sid s
  case case1 => rfl
  case case2 => rfl
  all_goals simp +zetaDelta [State.waitBoundary_fuses ‹_ = some _›]

@[simp] theorem execHoldTimeout_fuses (sid : SuiteId) (s : State) : (nextOf s (execHoldTimeout sid s)).fuses = s.fuses := by simp [execHoldTimeout]

@[simp] theorem State.writeIso_fuses (s : State) (b : BayId) (v : W64) : (s.writeIso b v).fuses = s.fuses := by simp [State.writeIso]

@[simp] theorem execBayIsoWrite_fuses (f : HostFn) (b : BayId) (v : W64) (s : State) : (nextOf s (execBayIsoWrite f b v s)).fuses = s.fuses := by
  simp [execBayIsoWrite]

@[simp] theorem State.violation_fuses (s : State) (b side origin : Nat) : (s.violation b side origin).fuses = s.fuses := by
  unfold State.violation; dsimp only; split <;> simp

/-! ### The mailbox and the states of device and suite -/

@[simp] theorem State.setRing_fuses (s : State) (f : HostFn) (cpl : Bool) (r : Ring) : (s.setRing f cpl r).fuses = s.fuses := by rfl

@[simp] theorem State.dmaWrite_fuses (s : State) (f : HostFn) (addr : Nat) (bytes : List Byte) : (s.dmaWrite f addr bytes).fuses = s.fuses := by rfl

@[simp] theorem State.dmaRead_fuses (s : State) (f : HostFn) (addr n : Nat) : (s.dmaRead f addr n).fuses = s.fuses := by rfl

@[simp] theorem State.keepVersions_fuses (s : State) (ends : Taken → Bool) : (s.keepVersions ends).fuses = s.fuses := by rfl

@[simp] theorem State.finish_fuses (s : State) (t : Taken) (r : Reply) : (s.finish t r).fuses = s.fuses := by simp [State.finish]

@[simp] theorem State.setDevState_fuses (s : State) (d : DeviceState) : (s.setDevState d).fuses = s.fuses := by simp [State.setDevState]

@[simp] theorem State.settleActive_fuses (s : State) : (s.settleActive).fuses = s.fuses := by simp [State.settleActive]

@[simp] theorem State.setSuiteState_fuses (s : State) (i : Nat) (st : SuiteState) : (s.setSuiteState i st).fuses = s.fuses := by
  unfold State.setSuiteState
  split
  · rfl
  · dsimp only
    rw [State.settleActive_fuses, State.msix_fuses, State.msix_fuses]
    split <;> simp

@[simp] theorem State.suitePower_fuses (s : State) (i : Nat) (p : BayState) : (s.suitePower i p).fuses = s.fuses := by simp [State.suitePower]

@[simp] theorem State.answerStops_fuses (s : State) (i : Nat) (r : Reply) : (s.answerStops i r).fuses = s.fuses := by simp [State.answerStops]

@[simp] theorem State.stopSuite_fuses (s : State) (i : Nat) : (s.stopSuite i).fuses = s.fuses := by simp [State.stopSuite]

/-- A mailbox command keeps the fuses when its own effect does. -/
@[simp] theorem runCommand_fuses (s : State) (ticket op : Nat) (sel : Taken → Bool) (used : Taken → List (Nat × Nat))
    (run : Taken → State → State) (h : ∀ t s, (run t s).fuses = s.fuses) : (runCommand s ticket op sel used run).fuses = s.fuses := by
  obtain ⟨-, e⟩ | ⟨t, r, -, -, -, e⟩ | ⟨t, -, -, e⟩ := runCommand_cases s ticket op sel used run
  · rw [e]
  · rw [e, State.finish_fuses]
  · rw [e, h]

@[simp] theorem State.keepRunning_fuses (s : State) (t : Taken) : (s.keepRunning t).fuses = s.fuses := by rfl

/-! ### Tracks and routers -/

@[simp] theorem State.trackError_fuses (s : State) (c code j : Nat) : (s.trackError c code j).fuses = s.fuses := by simp [State.trackError]

@[simp] theorem State.loseFlits_fuses (s : State) (reason : Nat) (fs : List Flit) : (s.loseFlits reason fs).fuses = s.fuses := by
  simp [State.loseFlits]

@[simp] theorem State.loseCell_fuses (s : State) (c : Nat) : (s.loseCell c).fuses = s.fuses := by simp [State.loseCell]

@[simp] theorem State.sendFlit_fuses (s : State) (c j : Nat) (f : Flit) : (s.sendFlit c j f).fuses = s.fuses := by
  fun_cases State.sendFlit s c j f <;> simp +zetaDelta

@[simp] theorem execFlitReceive_fuses (c : CellId) (port : Fin 5) (track : Fin 4) (err : FlitErr) (s : State) :
    (nextOf s (execFlitReceive c port track err s)).fuses = s.fuses := by
  fun_cases execFlitReceive c port track err s
  case case1 => rfl
  case case2 => simp +zetaDelta
  all_goals
    have kept := snd_fuses_of_eq (s := s) ‹_ = (_, _)› (by cases err <;> simp +zetaDelta)
    simp +zetaDelta [kept]

@[simp] theorem State.endFrame_fuses (s : State) (c j octant : Nat) (fs : List (Option Flit)) : (s.endFrame c j octant fs).fuses = s.fuses := by
  unfold State.endFrame; split <;> simp

@[simp] theorem State.landEntry_fuses (s : State) (c j e : Nat) (f : Option Flit) : (s.landEntry c j e f).fuses = s.fuses := by simp [State.landEntry]

@[simp] theorem State.pushRecv_fuses (s : State) (c ch : Nat) (f : Flit) : (s.pushRecv c ch f).fuses = s.fuses := by
  fun_cases State.pushRecv s c ch f <;> simp +zetaDelta

@[simp] theorem State.popSend_fuses (s : State) (c ch : Nat) : (s.popSend c ch).2.fuses = s.fuses := by
  fun_cases State.popSend s c ch <;> simp

@[simp] theorem State.actOutput_fuses (s : State) (c : Nat) (heads : SMap Flit) (je : Nat × Nat) : (s.actOutput c heads je).fuses = s.fuses := by
  unfold State.actOutput
  dsimp only
  split
  · split <;> simp
  · split <;> split <;> simp

@[simp] theorem State.actInput_fuses (s : State) (c : Nat) (heads : SMap Flit) (je : Nat × Nat) : (s.actInput c heads je).fuses = s.fuses := by
  unfold State.actInput
  dsimp only
  split
  · simp
  · split <;> split <;> simp

@[simp] theorem State.runPhase_fuses (s : State) (c : Nat) (u : Suite) : (s.runPhase c u).fuses = s.fuses := by
  unfold State.runPhase; dsimp only; split <;> simp

@[simp] theorem execRouteTablePhase_fuses (c : CellId) (s : State) : (nextOf s (execRouteTablePhase c s)).fuses = s.fuses := by
  fun_cases execRouteTablePhase c s <;> simp +zetaDelta

@[simp] theorem execRouterForward_fuses (c : CellId) (input : Fin 5) (s : State) : (nextOf s (execRouterForward c input s)).fuses = s.fuses := by
  fun_cases execRouterForward c input s
  case case3 => simp +zetaDelta
  case case5 => simp [State.waitCycle_fuses ‹_ = some _›]
  case case6 => simp +zetaDelta [State.waitCycle_fuses ‹_ = some _›]
  all_goals rfl

/-! ### Streams -/

@[simp] theorem State.waitSlot_fuses (s : State) (port n : Nat) : (s.waitSlot port n).fuses = s.fuses := by simp [State.waitSlot]

@[simp] theorem State.ctxError_fuses (s : State) (x : StreamCtx) (err : Nat) (suite : Option Nat) : (s.ctxError x err suite).fuses = s.fuses := by
  unfold State.ctxError
  dsimp only
  split
  · simp
  · cases suite <;> simp

@[simp] theorem execDescriptorStart_fuses (x : StreamCtx) (s : State) : (nextOf s (execDescriptorStart x s)).fuses = s.fuses := by
  fun_cases execDescriptorStart x s <;> simp +zetaDelta

@[simp] theorem State.retireStack_fuses (s : State) (p : PortId) (pc : Fin 64) : (s.retireStack p pc).fuses = s.fuses := by
  unfold State.retireStack
  dsimp only
  rw [State.foldl_fuses] <;> simp

@[simp] theorem State.noteUncorr_fuses (s : State) (p n : Nat) : (s.noteUncorr p n).fuses = s.fuses := by simp [State.noteUncorr]

@[simp] theorem State.finalUncorr_fuses (s : State) (p n suite : Nat) : (s.finalUncorr p n suite).fuses = s.fuses := by rfl

@[simp] theorem State.fixGranule_fuses (s : State) (p n : Nat) (d : List Byte) (suite : Option Nat) : (s.fixGranule p n d suite).fuses = s.fuses := by
  simp [State.fixGranule]

@[simp] theorem State.poisonRead_fuses (s : State) (p n suite : Nat) : (s.poisonRead p n suite).fuses = s.fuses := by rfl

@[simp] theorem State.firstRead_fuses (s : State) (p n suite : Nat) (again : MaintItem) : (s.firstRead p n suite again).2.fuses = s.fuses := by
  fun_cases State.firstRead s p n suite again <;> simp +zetaDelta

@[simp] theorem State.secondRead_fuses (s : State) (p n suite : Nat) : (s.secondRead p n suite).2.fuses = s.fuses := by
  unfold State.secondRead; split <;> simp

@[simp] theorem State.stackReports_fuses (s : State) (p : Nat) : (s.stackReports p).fuses = s.fuses := by rfl

@[simp] theorem readGranule_fuses (p suite : Nat) (id : ReadId) (base : Nat) (acc : TileAcc) (g : Nat) :
    (readGranule p suite id base acc g).st.fuses = acc.st.fuses := by
  have kept := acc.st.firstRead_fuses p (base + g) suite (.reread (base + g) id)
  unfold readGranule
  split <;> (rename_i h; rw [h] at kept; exact kept)

@[simp] theorem State.readTile_fuses (s : State) (p suite n : Nat) (id : ReadId) (a : Nat) : (s.readTile p suite n id a).fuses = s.fuses := by
  unfold State.readTile
  dsimp only
  simp only [State.meterHbm_fuses, State.stackReports_fuses, State.updPort_fuses]
  refine foldl_keeps (fun a : TileAcc => a.st.fuses) _ (fun acc g => ?_) _ _
  split
  · rfl
  · simp

@[simp] theorem State.faultAsker_fuses (s : State) (x : StreamCtx) (i : Nat) (a : Int) : (s.faultAsker x i a).fuses = s.fuses := by
  fun_cases State.faultAsker s x i a <;> simp

@[simp] theorem State.stopContext_fuses (s : State) (x : StreamCtx) (i : Nat) (a : Int) : (s.stopContext x i a).fuses = s.fuses := by
  simp [State.stopContext]

@[simp] theorem State.readSlot_fuses (s : State) (p : PortId) : (s.readSlot p).fuses = s.fuses := by
  fun_cases State.readSlot s p <;> simp +zetaDelta

@[simp] theorem indexWords_fuses (s : State) (r : TileRead) : (indexWords s r).2.fuses = s.fuses := by
  refine foldl_keeps (fun a : List W32 × State => a.2.fuses) _ (fun a g => ?_) _ ([], s)
  refine foldl_keeps (fun a : List W32 × State => a.2.fuses) _ (fun a j => ?_) _ a
  dsimp only
  split <;> rfl

@[simp] theorem State.settleIndex_fuses (s : State) (p : Nat) : (s.settleIndex p).fuses = s.fuses := by simp [State.settleIndex]

@[simp] theorem execTileReadReturn_fuses (p : PortId) (s : State) : (nextOf s (execTileReadReturn p s)).fuses = s.fuses := by
  unfold execTileReadReturn; split <;> simp

@[simp] theorem frameFlits_fuses (s : State) (hdr : W256) (prov : Bool) (strip : List Byte) (void : List Nat) :
    (frameFlits s hdr prov strip void).2.fuses = s.fuses := by
  unfold frameFlits
  dsimp only
  refine foldl_keeps (fun a : List Flit × State => a.2.fuses) _ (fun a j => ?_) _ ([], s)
  split <;> rfl

@[simp] theorem State.toInlet_fuses (s : State) (cell track suite : Nat) (fs : List Flit) : (s.toInlet cell track suite fs).fuses = s.fuses := by
  simp [State.toInlet]

@[simp] theorem State.dropRead_fuses (s : State) (id : ReadId) : (s.dropRead id).fuses = s.fuses := by
  unfold State.dropRead; split <;> simp

@[simp] theorem State.endRead_fuses (s : State) (id : ReadId) (t : Nat) : (s.endRead id t).fuses = s.fuses := by
  unfold State.endRead; split <;> simp

@[simp] theorem execSpineFrameSend_fuses (x : StreamCtx) (s : State) : (nextOf s (execSpineFrameSend x s)).fuses = s.fuses := by
  fun_cases execSpineFrameSend x s
  case case5 =>
    have framed := snd_fuses_of_eq (s := s) ‹frameFlits _ _ _ _ _ = (_, _)› (by simp +zetaDelta)
    simp +zetaDelta [framed]
  all_goals rfl

@[simp] theorem execIndexFrameReceive_fuses (x : StreamCtx) (s : State) : (nextOf s (execIndexFrameReceive x s)).fuses = s.fuses := by
  fun_cases execIndexFrameReceive x s
  case case3 => simp +zetaDelta [State.waitCycle_fuses ‹_ = some _›]
  case case4 =>
    have waited := State.waitCycle_fuses ‹State.waitCycle _ _ _ = some _›
    have folded := snd_fuses_of_eq (s := s) ‹List.foldl _ _ _ = (_, _)› (by
      refine (foldl_keeps (fun a : List W32 × State => a.2.fuses) _ (fun a f => ?_) _ _).trans (by simp +zetaDelta [waited])
      cases f with
      | none => simp
      | some f => simp [apply_ite Prod.snd])
    simp +zetaDelta [folded]
  all_goals rfl

@[simp] theorem execWriteStripTake_fuses (x : StreamCtx) (s : State) : (nextOf s (execWriteStripTake x s)).fuses = s.fuses := by
  fun_cases execWriteStripTake x s
  case case1 => rfl
  case case2 => rfl
  case case6 => rfl
  all_goals simp +zetaDelta [State.waitCycle_fuses ‹_ = some _›]

@[simp] theorem State.writeSlot_fuses (s : State) (p : PortId) : (s.writeSlot p).fuses = s.fuses := by
  fun_cases State.writeSlot s p <;> simp +zetaDelta

@[simp] theorem State.hostSlot_fuses (s : State) (p n : Nat) (h : HostWait) : (s.hostSlot p n h).fuses = s.fuses := by
  unfold State.hostSlot; split <;> simp

@[simp] theorem State.serveHost_fuses (s : State) (p : Nat) : (s.serveHost p).fuses = s.fuses := by
  fun_cases State.serveHost s p <;> simp +zetaDelta

@[simp] theorem execReadSlot_fuses (p : PortId) (s : State) : (nextOf s (execReadSlot p s)).fuses = s.fuses := by simp [execReadSlot]

@[simp] theorem execWriteSlot_fuses (p : PortId) (s : State) : (nextOf s (execWriteSlot p s)).fuses = s.fuses := by simp [execWriteSlot]

@[simp] theorem State.resolve_fuses (s : State) (p : Nat) (id : ReadId) (g : Nat) (d : Option (List Byte)) :
    (s.resolve p id g d).fuses = s.fuses := by rfl

@[simp] theorem State.scrubGranule_fuses (s : State) (p n : Nat) : (s.scrubGranule p n).fuses = s.fuses := by
  unfold State.scrubGranule; split <;> simp

@[simp] theorem State.serveFetch_fuses (s : State) (p n serial : Nat) : (s.serveFetch p n serial).fuses = s.fuses := by
  fun_cases State.serveFetch s p n serial <;> simp

@[simp] theorem State.serveMaint_fuses (s : State) (p : Nat) (i : MaintItem) : (s.serveMaint p i).fuses = s.fuses := by
  cases i with
  | displacedRead n id =>
    have kept := s.firstRead_fuses p n ((s.ctxSuite id.ctx).getD 0) (.reread n id)
    unfold State.serveMaint
    dsimp only
    split <;> (rename_i h; rw [h] at kept; simpa using kept)
  | displacedWrite n d item => cases item <;> simp [State.serveMaint]
  | _ => simp [State.serveMaint]

@[simp] theorem execMaintenanceSlot_fuses (p : PortId) (s : State) : (nextOf s (execMaintenanceSlot p s)).fuses = s.fuses := by
  fun_cases execMaintenanceSlot p s
  case case1 => rfl
  case case2 => rfl
  case case3 =>
    simp +zetaDelta
    rw [State.foldl_fuses]
    · simp
    · intro s g
      split <;> simp

@[simp] theorem execRfmRequest_fuses (p : PortId) (pc : Fin 64) (absorb defer_ : Bool) (s : State) :
    (nextOf s (execRfmRequest p pc absorb defer_ s)).fuses = s.fuses := by
  fun_cases execRfmRequest p pc absorb defer_ s <;> simp

@[simp] theorem execMpSlotWrite_fuses (f : HostFn) (p : PortId) (i : Fin 1024) (v : W16) (s : State) :
    (nextOf s (execMpSlotWrite f p i v s)).fuses = s.fuses := by simp [execMpSlotWrite]

/-! ### Serving -/

@[simp] theorem State.sendNotices_fuses (s : State) (i n : Nat) : (s.sendNotices i n).fuses = s.fuses := by
  fun_cases State.sendNotices s i n <;> simp

@[simp] theorem execStepBuild_fuses (sid : SuiteId) (s : State) : (nextOf s (execStepBuild sid s)).fuses = s.fuses := by simp [execStepBuild]

@[simp] theorem execTokenRecordReceive_fuses (b : BayId) (s : State) : (nextOf s (execTokenRecordReceive b s)).fuses = s.fuses := by
  fun_cases execTokenRecordReceive b s <;> simp +zetaDelta

@[simp] theorem State.ringEvent_fuses (s : State) (i ring : Nat) : (s.ringEvent i ring).fuses = s.fuses := by rfl

@[simp] theorem State.putOutput_fuses (s : State) (i ring : Nat) (r : W256) : (s.putOutput i ring r).fuses = s.fuses := by simp [State.putOutput]

@[simp] theorem State.endSeq_fuses (s : State) (i k : Nat) (st : SeqState) (reason : Nat) (slot : Bool) :
    (s.endSeq i k st reason slot).fuses = s.fuses := by simp [State.endSeq]

@[simp] theorem State.faultSeqs_fuses (s : State) (i : Nat) : (s.faultSeqs i).fuses = s.fuses := by simp [State.faultSeqs]

@[simp] theorem State.commitToken_fuses (s : State) (i n : Nat) (k : Slot) (token : Nat) : (s.commitToken i n k token).fuses = s.fuses := by
  simp [State.commitToken]

@[simp] theorem State.commitRest_fuses (s : State) (i : Nat) (l : List Slot) (served : List Nat) : (s.commitRest i l served).fuses = s.fuses := by
  simp [State.commitRest]

@[simp] theorem State.settleRetiring_fuses (s : State) (i : Nat) : (s.settleRetiring i).fuses = s.fuses := by simp [State.settleRetiring]

theorem commitRecord_fuses (i n : Nat) (l : List Slot) (acc : State × List Nat) (m : W256) :
    (commitRecord i n l acc m).1.fuses = acc.1.fuses := by
  unfold commitRecord
  dsimp only
  split <;> simp

@[simp] theorem execStepCommit_fuses (sid : SuiteId) (s : State) : (nextOf s (execStepCommit sid s)).fuses = s.fuses := by
  unfold execStepCommit
  dsimp only
  split
  · rfl
  · simp [foldl_keeps (fun a : State × List Nat => a.1.fuses) _ (commitRecord_fuses _ _ _)]

@[simp] theorem State.latency_fuses (s : State) (i : Nat) (r : W256) : (s.latency i r).fuses = s.fuses := by rfl

@[simp] theorem execOutputRecordWrite_fuses (sid : SuiteId) (ring : Fin 16) (dmaOk : Bool) (s : State) :
    (nextOf s (execOutputRecordWrite sid ring dmaOk s)).fuses = s.fuses := by
  unfold execOutputRecordWrite; dsimp only; split <;> simp

@[simp] theorem execOutRingCtlWrite_fuses (f : HostFn) (sid : SuiteId) (ring : Fin 16) (v : W64) (s : State) :
    (nextOf s (execOutRingCtlWrite f sid ring v s)).fuses = s.fuses := by simp [execOutRingCtlWrite]

@[simp] theorem State.discardNotice_fuses (s : State) (addr zone : Nat) (suite : Option Nat) :
    (s.discardNotice addr zone suite).fuses = s.fuses := by rfl

@[simp] theorem execNoticeArrival_fuses (t : NoticeTarget) (commit : Bool) (beat : Option W32) (step : W32) (sect : W16) (s : State) :
    (nextOf s (execNoticeArrival t commit beat step sect s)).fuses = s.fuses := by
  unfold execNoticeArrival
  split
  · dsimp only
    split <;> split <;> rw [nextOf_next_fuses] <;> simp
  · rfl

/-! ### Suites and resets -/

@[simp] theorem State.emptyContext_fuses (s : State) (x : StreamCtx) : (s.emptyContext x).fuses = s.fuses := by simp [State.emptyContext]

@[simp] theorem State.endContext_fuses (s : State) (x : StreamCtx) : (s.endContext x).fuses = s.fuses := by simp [State.endContext]

@[simp] theorem State.endContexts_fuses (s : State) (i : Nat) (voided : Bool) : (s.endContexts i voided).fuses = s.fuses := by
  simp [State.endContexts]

@[simp] theorem State.dropUnsent_fuses (s : State) (i : Nat) : (s.dropUnsent i).fuses = s.fuses := by rfl

@[simp] theorem State.dropStaged_fuses (s : State) (i : Nat) : (s.dropStaged i).fuses = s.fuses := by simp [State.dropStaged]

@[simp] theorem State.dropItems_fuses (s : State) (i : Nat) : (s.dropItems i).fuses = s.fuses := by simp [State.dropItems]

@[simp] theorem State.flushOutput_fuses (s : State) (i : Nat) : (s.flushOutput i).fuses = s.fuses := by
  refine State.foldl_fuses _ (fun s r => State.foldl_fuses _ (fun s _ => ?_) _ s) _ s
  exact execOutputRecordWrite_fuses (Fin.ofNat 32 i) (Fin.ofNat 16 r) true s

@[simp] theorem State.cancelSeqs_fuses (s : State) (i : Nat) : (s.cancelSeqs i).fuses = s.fuses := by simp [State.cancelSeqs]

@[simp] theorem State.freeSeqs_fuses (s : State) (i : Nat) : (s.freeSeqs i).fuses = s.fuses := by rfl

@[simp] theorem State.clearCells_fuses (s : State) (i : Nat) (reset : Bool) : (s.clearCells i reset).fuses = s.fuses := by simp [State.clearCells]

@[simp] theorem State.resetBarriers_fuses (s : State) (i : Nat) : (s.resetBarriers i).fuses = s.fuses := by rfl

@[simp] theorem State.suiteReset_fuses (s : State) (i : Nat) : (s.suiteReset i).fuses = s.fuses := by simp [State.suiteReset]

@[simp] theorem State.closeSides_fuses (s : State) (i : Nat) : (s.closeSides i).fuses = s.fuses := by simp [State.closeSides]

@[simp] theorem State.openSides_fuses (s : State) (i : Nat) : (s.openSides i).fuses = s.fuses := by simp [State.openSides]

@[simp] theorem State.wakeStacks_fuses (s : State) (i : Nat) : (s.wakeStacks i).fuses = s.fuses := by simp [State.wakeStacks]

@[simp] theorem State.zeroSuite_fuses (s : State) (i : Nat) : (s.zeroSuite i).fuses = s.fuses := by simp [State.zeroSuite]

@[simp] theorem State.unloadSuite_fuses (s : State) (i : Nat) : (s.unloadSuite i).fuses = s.fuses := by simp [State.unloadSuite]

@[simp] theorem State.freeSlots_fuses (s : State) (i : Nat) : (s.freeSlots i).fuses = s.fuses := by rfl

@[simp] theorem State.freeBays_fuses (s : State) (i : Nat) : (s.freeBays i).fuses = s.fuses := by
  refine (State.foldl_fuses _ (fun s b => State.updBay_fuses _ _ _) _ _).trans (State.foldl_fuses _ (fun s c => ?_) _ s)
  dsimp only
  split <;> simp

@[simp] theorem State.freePositions_fuses (s : State) (i : Nat) : (s.freePositions i).fuses = s.fuses := by simp [State.freePositions]

@[simp] theorem State.freeBarriers_fuses (s : State) (i : Nat) : (s.freeBarriers i).fuses = s.fuses := by rfl

@[simp] theorem State.freeSuite_fuses (s : State) (i : Nat) : (s.freeSuite i).fuses = s.fuses := by simp [State.freeSuite]

@[simp] theorem State.faultSuite_fuses (s : State) (i : Nat) : (s.faultSuite i).fuses = s.fuses := by simp [State.faultSuite]

@[simp] theorem State.dropSuites_fuses (s : State) : (s.dropSuites).fuses = s.fuses := by simp [State.dropSuites]

@[simp] theorem State.clearDevice_fuses (s : State) (asleep : Bool) : (s.clearDevice asleep).fuses = s.fuses := by rfl

@[simp] theorem State.breakLeases_fuses (s : State) : (s.breakLeases).fuses = s.fuses := by rfl

@[simp] theorem State.endMailbox_fuses (s : State) : (s.endMailbox).fuses = s.fuses := by rfl

@[simp] theorem State.resetRegisters_fuses (s : State) (cause : Nat) (cold retest : Bool) :
    (s.resetRegisters cause cold retest).fuses = s.fuses := by rfl

@[simp] theorem State.trainLink_fuses (s : State) : (s.trainLink).fuses = s.fuses := by simp [State.trainLink]

@[simp] theorem State.resetPcie_fuses (s : State) (cause : Nat) : (s.resetPcie cause).fuses = s.fuses := by simp [State.resetPcie]

@[simp] theorem State.warmReset_fuses (s : State) (cause : Nat) (retest : Bool) : (s.warmReset cause retest).fuses = s.fuses := by
  simp [State.warmReset]

@[simp] theorem State.loseCommands_fuses (s : State) : (s.loseCommands).fuses = s.fuses := by simp [State.loseCommands]

@[simp] theorem State.deviceFatal_fuses (s : State) : (s.deviceFatal).fuses = s.fuses := by simp [State.deviceFatal]

/-! ### Repair -/

@[simp] theorem State.retireBay_fuses (s : State) (b : Nat) : (s.retireBay b).fuses = s.fuses := by rfl

@[simp] theorem State.markUnit_fuses (s : State) (k : UnitCheck) (g : Nat) : (s.markUnit k g).fuses = s.fuses := by
  unfold State.markUnit
  split <;> rfl

theorem State.shiftRow_fuses {s s1 : State} {c : Nat} (h : s.shiftRow c = some s1) : s1.fuses = s.fuses := by
  unfold State.shiftRow at h
  split at h <;> cases h
  rfl

@[simp] theorem State.fillPane_fuses (s : State) (c g a : Nat) : (s.fillPane c g a).fuses = s.fuses := by rfl

@[simp] theorem State.refillCell_fuses (s : State) (i c k : Nat) : (s.refillCell i c k).fuses = s.fuses := by
  refine State.foldl_fuses _ (fun s g => ?_) _ s
  split <;> simp

/-! ### Reconfiguration -/

@[simp] theorem State.voidGroup_fuses (s : State) : (s.voidGroup).2.fuses = s.fuses := by rfl

@[simp] theorem State.rowGranule_fuses (s : State) (i p n : Nat) : (s.rowGranule i p n).2.fuses = s.fuses := by
  have first := s.firstRead_fuses p n i (.rowReread n i)
  fun_cases State.rowGranule s i p n
  case case4 h => simpa using snd_fuses_of_eq h first
  case case5 => exact first
  all_goals rfl

@[simp] theorem State.storedGroup_fuses (s : State) (i a : Nat) : (s.storedGroup i a).2.fuses = s.fuses := by
  unfold State.storedGroup; dsimp only; split <;> simp

@[simp] theorem execReadyRaise_fuses (c : CellId) (s : State) : (nextOf s (execReadyRaise c s)).fuses = s.fuses := by simp [execReadyRaise]

@[simp] theorem State.spineGroup_fuses (s : State) (i c : Nat) : (s.spineGroup i c).2.fuses = s.fuses := by
  unfold State.spineGroup
  dsimp only
  split
  · simp [apply_ite Prod.snd]
  · split
    · rfl
    · split
      · split <;> simp [snd_fuses_of_eq ‹State.storedGroup _ _ _ = _› (State.storedGroup_fuses _ _ _)]
      · rfl

@[simp] theorem State.discardRow_fuses (s : State) (i c : Nat) : (s.discardRow i c).fuses = s.fuses := by
  unfold State.discardRow; split <;> simp

@[simp] theorem execConfigGroupSend_fuses (c : CellId) (spine : Bool) (s : State) : (nextOf s (execConfigGroupSend c spine s)).fuses = s.fuses := by
  fun_cases execConfigGroupSend c spine s
  case case2 h => simp [snd_fuses_of_eq h (s.spineGroup_fuses _ _)]
  case case3 h => simp [snd_fuses_of_eq h (s.spineGroup_fuses _ _)]
  all_goals simp

@[simp] theorem State.configError_fuses (s : State) (c : Nat) : (s.configError c).fuses = s.fuses := by
  unfold State.configError; split <;> simp

@[simp] theorem State.flitOfGroup_fuses (s : State) (c track : Nat) (err : FlitErr) (g : Group) :
    (s.flitOfGroup c track err g).2.fuses = s.fuses := by
  unfold State.flitOfGroup; split <;> simp

@[simp] theorem execConfigGroupReceive_fuses (c : CellId) (track : Fin 4) (err : FlitErr) (s : State) :
    (nextOf s (execConfigGroupReceive c track err s)).fuses = s.fuses := by
  unfold execConfigGroupReceive; split <;> simp

theorem State.nextCycle_fuses {s s1 : State} {c : Nat} (h : s.nextCycle c = some s1) : s1.fuses = s.fuses := by
  unfold State.nextCycle at h
  obtain ⟨u, -, rfl⟩ := Option.map_eq_some_iff.mp h
  simp

@[simp] theorem execPaneClearing_fuses (c : CellId) (s : State) : (nextOf s (execPaneClearing c s)).fuses = s.fuses := by
  fun_cases execPaneClearing c s
  case case3 => simp +zetaDelta [State.nextCycle_fuses ‹_ = some _›]
  all_goals rfl

@[simp] theorem State.cellErrors_fuses (s : State) (c code : Nat) (infos : List Nat) : (s.cellErrors c code infos).fuses = s.fuses := by
  simp [State.cellErrors]

@[simp] theorem execConfigCommit_fuses (c : CellId) (s : State) : (nextOf s (execConfigCommit c s)).fuses = s.fuses := by
  fun_cases execConfigCommit c s <;> simp +zetaDelta

/-! ### Sections -/

@[simp] theorem State.closeContext_fuses (s : State) (i : Nat) (x : StreamCtx) : (s.closeContext i x).fuses = s.fuses := by simp [State.closeContext]

@[simp] theorem State.passSamples_fuses (s : State) (i : Nat) : (s.passSamples i).fuses = s.fuses := by simp [State.passSamples]

@[simp] theorem State.override_fuses (s : State) (i code : Nat) : (s.override i code).fuses = s.fuses := by rfl

@[simp] theorem State.raiseProtect_fuses (s : State) (i : Nat) (c : ProtCause) : (s.raiseProtect i c).fuses = s.fuses := by rfl

@[simp] theorem State.protectTarget_fuses (s : State) (i : Nat) : (s.protectTarget i).fuses = s.fuses := by simp [State.protectTarget]

@[simp] theorem State.switchStep_fuses (s : State) (i : Nat) : (s.switchStep i).fuses = s.fuses := by simp [State.switchStep]

@[simp] theorem State.reloadCells_fuses (s : State) (i : Nat) : (s.reloadCells i).fuses = s.fuses := by simp [State.reloadCells]

@[simp] theorem State.relocate_fuses (s : State) (i b : Nat) : (s.relocate i b).fuses = s.fuses := by rfl

@[simp] theorem State.quarantineUnit_fuses (s : State) (i next : Nat) (r : UnitRef) : (s.quarantineUnit i next r).fuses = s.fuses := by
  fun_cases State.quarantineUnit s i next r
  case case2 => simp +zetaDelta [State.shiftRow_fuses ‹_ = some _›]
  all_goals simp +zetaDelta

@[simp] theorem execSectionClose_fuses (sid : SuiteId) (s : State) : (nextOf s (execSectionClose sid s)).fuses = s.fuses := by simp [execSectionClose]

@[simp] theorem State.loadContext_fuses (s : State) (i : Nat) (x : StreamCtx) (l : List (StreamCtx × BitVec 512)) :
    (s.loadContext i x l).fuses = s.fuses := by simp [State.loadContext]

@[simp] theorem State.endRecovery_fuses (s : State) (i : Nat) (redo : Bool) : (s.endRecovery i redo).fuses = s.fuses := by simp [State.endRecovery]

@[simp] theorem execSectionStart_fuses (sid : SuiteId) (s : State) : (nextOf s (execSectionStart sid s)).fuses = s.fuses := by
  fun_cases execSectionStart sid s
  case case3 => simp +zetaDelta [State.waitBoundary_fuses ‹_ = some _›]
  all_goals rfl

@[simp] theorem State.beginSuite_fuses (s : State) (i : Nat) : (s.beginSuite i).fuses = s.fuses := by simp [State.beginSuite]

@[simp] theorem execRegulatorRampDone_fuses (b : BayId) (s : State) : (nextOf s (execRegulatorRampDone b s)).fuses = s.fuses := by
  fun_cases execRegulatorRampDone b s <;> simp

@[simp] theorem execDutyWithholdEnd_fuses (sid : SuiteId) (s : State) : (nextOf s (execDutyWithholdEnd sid s)).fuses = s.fuses := by
  simp [execDutyWithholdEnd]

/-! ### Mailbox commands, rings and resets by the host -/

@[simp] theorem openSession_fuses (t : Taken) (s : State) : (openSession t s).fuses = s.fuses := by
  fun_cases openSession t s <;> simp +zetaDelta

@[simp] theorem execSessionOpen_fuses (t : Nat) (s : State) : (nextOf s (execSessionOpen t s)).fuses = s.fuses := by simp [execSessionOpen]

@[simp] theorem execSessionClose_fuses (t : Nat) (s : State) : (nextOf s (execSessionClose t s)).fuses = s.fuses := by simp [execSessionClose]

@[simp] theorem execDeviceStatus_fuses (t : Nat) (s : State) : (nextOf s (execDeviceStatus t s)).fuses = s.fuses := by simp [execDeviceStatus]

@[simp] theorem execSuiteStart_fuses (t : Nat) (s : State) : (nextOf s (execSuiteStart t s)).fuses = s.fuses := by
  rw [execSuiteStart, nextOf_next_fuses, runCommand_fuses]
  intro t s
  dsimp only
  split <;> simp

@[simp] theorem State.askStop_fuses (s : State) (i : Nat) : (s.askStop i).fuses = s.fuses := by simp [State.askStop]

@[simp] theorem execSuiteStop_fuses (t : Nat) (s : State) : (nextOf s (execSuiteStop t s)).fuses = s.fuses := by
  rw [execSuiteStop, nextOf_next_fuses, runCommand_fuses]
  intro t s
  dsimp only
  split <;> simp

@[simp] theorem State.forceStop_fuses (s : State) (i : Nat) : (s.forceStop i).fuses = s.fuses := by simp [State.forceStop]

@[simp] theorem execSuiteStopForce_fuses (t : Nat) (s : State) : (nextOf s (execSuiteStopForce t s)).fuses = s.fuses := by
  rw [execSuiteStopForce, nextOf_next_fuses, runCommand_fuses]
  intro t s
  dsimp only
  split <;> simp

@[simp] theorem submit_fuses (t : Taken) (s : State) : (submit t s).fuses = s.fuses := by
  unfold submit
  dsimp only
  split
  · simp
  · split
    · simp
    · split
      · split
        · rw [State.finish_fuses]
          split <;> simp
        · simp
      · simp

@[simp] theorem execSeqSubmit_fuses (t : Nat) (s : State) : (nextOf s (execSeqSubmit t s)).fuses = s.fuses := by simp [execSeqSubmit]

@[simp] theorem cancel_fuses (t : Taken) (s : State) : (cancel t s).fuses = s.fuses := by
  fun_cases cancel t s <;> simp

@[simp] theorem execSeqCancel_fuses (t : Nat) (s : State) : (nextOf s (execSeqCancel t s)).fuses = s.fuses := by simp [execSeqCancel]

@[simp] theorem State.setTarget_fuses (s : State) (i : Nat) (v : BitVec 2) (policy : Bool) : (s.setTarget i v policy).fuses = s.fuses := by
  simp [State.setTarget]

@[simp] theorem execPolicySetDevice_fuses (t : Nat) (s : State) : (nextOf s (execPolicySetDevice t s)).fuses = s.fuses := by
  simp [execPolicySetDevice]

@[simp] theorem execPolicySetSuite_fuses (t : Nat) (s : State) : (nextOf s (execPolicySetSuite t s)).fuses = s.fuses := by
  rw [execPolicySetSuite, nextOf_next_fuses, runCommand_fuses]
  intro t s
  dsimp only
  split <;> simp

@[simp] theorem execPolicySetSplit_fuses (t : Nat) (s : State) : (nextOf s (execPolicySetSplit t s)).fuses = s.fuses := by
  rw [execPolicySetSplit, nextOf_next_fuses, runCommand_fuses]
  intro t s
  dsimp only
  split
  · simp
  · exact State.finish_fuses _ _ _

@[simp] theorem execCounterConfig_fuses (t : Nat) (s : State) : (nextOf s (execCounterConfig t s)).fuses = s.fuses := by
  rw [execCounterConfig, nextOf_next_fuses, runCommand_fuses]
  intro t s
  dsimp only
  split <;> simp

@[simp] theorem execSampleConfig_fuses (t : Nat) (s : State) : (nextOf s (execSampleConfig t s)).fuses = s.fuses := by
  rw [execSampleConfig, nextOf_next_fuses, runCommand_fuses]
  intro t s
  dsimp only
  split
  · simp
  · split <;> simp

@[simp] theorem execLeaseAcquire_fuses (t : Nat) (s : State) : (nextOf s (execLeaseAcquire t s)).fuses = s.fuses := by simp [execLeaseAcquire]

@[simp] theorem execLeaseRelease_fuses (t : Nat) (s : State) : (nextOf s (execLeaseRelease t s)).fuses = s.fuses := by simp [execLeaseRelease]

@[simp] theorem execLogRead_fuses (t : Nat) (s : State) : (nextOf s (execLogRead t s)).fuses = s.fuses := by simp [execLogRead]

@[simp] theorem execDeviceResetWarm_fuses (t : Nat) (s : State) : (nextOf s (execDeviceResetWarm t s)).fuses = s.fuses := by
  simp [execDeviceResetWarm]

@[simp] theorem State.beginDrain_fuses (s : State) (mode : Nat) : (s.beginDrain mode).fuses = s.fuses := by simp [State.beginDrain]

@[simp] theorem execDeviceResetDrainedWarm_fuses (t : Nat) (s : State) : (nextOf s (execDeviceResetDrainedWarm t s)).fuses = s.fuses := by
  simp [execDeviceResetDrainedWarm]

@[simp] theorem execDeviceResetDrainedQuiesce_fuses (t : Nat) (s : State) : (nextOf s (execDeviceResetDrainedQuiesce t s)).fuses = s.fuses := by
  simp [execDeviceResetDrainedQuiesce]

@[simp] theorem execDeviceResetRepairRetest_fuses (t : Nat) (s : State) : (nextOf s (execDeviceResetRepairRetest t s)).fuses = s.fuses := by
  simp [execDeviceResetRepairRetest]

@[simp] theorem execDrainTimeout_fuses (sid : SuiteId) (s : State) : (nextOf s (execDrainTimeout sid s)).fuses = s.fuses := by simp [execDrainTimeout]

@[simp] theorem execDrainComplete_fuses (s : State) : (nextOf s (execDrainComplete s)).fuses = s.fuses := by simp [execDrainComplete]

@[simp] theorem State.ringDoorbell_fuses (s : State) (f : HostFn) (v : W64) : (s.ringDoorbell f v).fuses = s.fuses := by rfl

@[simp] theorem State.ringHead_fuses (s : State) (f : HostFn) (v : W64) : (s.ringHead f v).fuses = s.fuses := by rfl

@[simp] theorem execCommandDoorbell_fuses (f : HostFn) (v : W64) (s : State) : (nextOf s (execCommandDoorbell f v s)).fuses = s.fuses := by
  simp [execCommandDoorbell]

@[simp] theorem execCompletionHeadWrite_fuses (f : HostFn) (v : W64) (s : State) : (nextOf s (execCompletionHeadWrite f v s)).fuses = s.fuses := by
  simp [execCompletionHeadWrite]

@[simp] theorem execRingEnable_fuses (f : HostFn) (cpl : Bool) (v : W64) (s : State) : (nextOf s (execRingEnable f cpl v s)).fuses = s.fuses := by
  simp [execRingEnable]

@[simp] theorem execCommandFetch_fuses (f : HostFn) (entry : HostRead) (s : State) : (nextOf s (execCommandFetch f entry s)).fuses = s.fuses := by
  simp [execCommandFetch]

@[simp] theorem State.resetRing_fuses (s : State) (f : HostFn) (cpl : Bool) : (s.resetRing f cpl).fuses = s.fuses := by rfl

@[simp] theorem State.resetVectors_fuses (s : State) (f : HostFn) : (s.resetVectors f).fuses = s.fuses := by rfl

@[simp] theorem State.loseCompletions_fuses (s : State) (f : HostFn) : (s.loseCompletions f).fuses = s.fuses := by rfl

@[simp] theorem execFlrPf_fuses (s : State) : (nextOf s (execFlrPf s)).fuses = s.fuses := by simp [execFlrPf]

@[simp] theorem execFlrVf_fuses (sid : SuiteId) (s : State) : (nextOf s (execFlrVf sid s)).fuses = s.fuses := by simp [execFlrVf]

@[simp] theorem execPerstN_fuses (s : State) : (nextOf s (execPerstN s)).fuses = s.fuses := by simp [execPerstN]

@[simp] theorem execPerstNDeassertion_fuses (s : State) : (nextOf s (execPerstNDeassertion s)).fuses = s.fuses := by simp [execPerstNDeassertion]

@[simp] theorem execDeviceFatalError_fuses (s : State) : (nextOf s (execDeviceFatalError s)).fuses = s.fuses := by simp [execDeviceFatalError]

/-! ### Gacon links -/

@[simp] theorem State.discardSends_fuses (s : State) (g : Nat) : (s.discardSends g).fuses = s.fuses := by simp [State.discardSends]

@[simp] theorem State.portDown_fuses (s : State) (g : Nat) (st : PortState) (reason : Nat) : (s.portDown g st reason).fuses = s.fuses := by
  simp [State.portDown]

@[simp] theorem State.beginSwap_fuses (s : State) (g : Nat) : (s.beginSwap g).fuses = s.fuses := by
  unfold State.beginSwap
  dsimp only
  split
  · rfl
  · split <;> simp

@[simp] theorem State.failLane_fuses (s : State) (g lane : Nat) : (s.failLane g lane).fuses = s.fuses := by simp [State.failLane]

@[simp] theorem State.reportReplay_fuses (s : State) (g i : Nat) : (s.reportReplay g i).fuses = s.fuses := by simp [State.reportReplay]

@[simp] theorem State.countFec_fuses (s : State) (g : Nat) (fec : FecResult) : (s.countFec g fec).fuses = s.fuses := by simp [State.countFec]

@[simp] theorem State.replayFrom_fuses (s : State) (g : Nat) (l : List (BitVec 12 × BitVec 2144)) : (s.replayFrom g l).fuses = s.fuses := by
  simp [State.replayFrom]

@[simp] theorem State.meterGacon_fuses (s : State) (i n : Nat) : (s.meterGacon i n).fuses = s.fuses := by rfl

@[simp] theorem State.assemble_fuses (s : State) (g vc : Nat) (bs : List Byte) : (s.assemble g vc bs).fuses = s.fuses := by simp [State.assemble]

@[simp] theorem execLinkFlitReceive_fuses (g : GPort) (flit : BitVec 2144) (fec : FecResult) (s : State) :
    (nextOf s (execLinkFlitReceive g flit fec s)).fuses = s.fuses := by simp [execLinkFlitReceive]

@[simp] theorem State.sendData_fuses (s : State) (g vc : Nat) : (s.sendData g vc).fuses = s.fuses := by
  fun_cases State.sendData s g vc
  all_goals
    have kept := third_fuses_of_eq (s := s) ‹_ = (_, _, _)› (by
      split
      · rfl
      · split
        · rfl
        · dsimp only
          split <;> simp)
    simp [kept]

@[simp] theorem execFlitOpportunity_fuses (g : GPort) (s : State) : (nextOf s (execFlitOpportunity g s)).fuses = s.fuses := by
  fun_cases execFlitOpportunity g s <;> simp +zetaDelta

@[simp] theorem execGaconIdle_fuses (g : GPort) (flit : BitVec 2144) (s : State) : (nextOf s (execGaconIdle g flit s)).fuses = s.fuses := by
  simp [execGaconIdle]

@[simp] theorem execGaconNak_fuses (g : GPort) (flit : BitVec 2144) (s : State) : (nextOf s (execGaconNak g flit s)).fuses = s.fuses := by
  simp [execGaconNak]

@[simp] theorem execNakTimeout_fuses (g : GPort) (s : State) : (nextOf s (execNakTimeout g s)).fuses = s.fuses := by simp [execNakTimeout]

@[simp] theorem execReplayTimeout_fuses (g : GPort) (s : State) : (nextOf s (execReplayTimeout g s)).fuses = s.fuses := by simp [execReplayTimeout]

@[simp] theorem execPartnerSignalLost_fuses (g : GPort) (s : State) : (nextOf s (execPartnerSignalLost g s)).fuses = s.fuses := by
  simp [execPartnerSignalLost]

@[simp] theorem State.writeGcCtl_fuses (s : State) (f : HostFn) (g : Nat) (v : W64) : (s.writeGcCtl f g v).fuses = s.fuses := by
  simp [State.writeGcCtl]

@[simp] theorem execGcCtlTrain_fuses (f : HostFn) (g : GPort) (v : W64) (s : State) : (nextOf s (execGcCtlTrain f g v s)).fuses = s.fuses := by
  simp [execGcCtlTrain]

@[simp] theorem execGcCtlDown_fuses (f : HostFn) (g : GPort) (v : W64) (s : State) : (nextOf s (execGcCtlDown f g v s)).fuses = s.fuses := by
  simp [execGcCtlDown]

@[simp] theorem execDetect_fuses (g : GPort) (signal : BitVec 10) (s : State) : (nextOf s (execDetect g signal s)).fuses = s.fuses := by
  simp [execDetect]

@[simp] theorem execEqualise_fuses (g : GPort) (rxGood txGood : BitVec 10) (slow : Bool) (s : State) :
    (nextOf s (execEqualise g rxGood txGood slow s)).fuses = s.fuses := by simp [execEqualise]

@[simp] theorem execNegotiate_fuses (g : GPort) (cap : CapBlock) (s : State) : (nextOf s (execNegotiate g cap s)).fuses = s.fuses := by
  simp [execNegotiate]

@[simp] theorem execAlign_fuses (g : GPort) (lock : Bool) (s : State) : (nextOf s (execAlign g lock s)).fuses = s.fuses := by simp [execAlign]

@[simp] theorem execDomainIdWrite_fuses (f : HostFn) (v : W64) (s : State) : (nextOf s (execDomainIdWrite f v s)).fuses = s.fuses := by
  simp [execDomainIdWrite]

@[simp] theorem execLaneFailure_fuses (g : GPort) (rx : Bool) (lane : Fin 10) (s : State) :
    (nextOf s (execLaneFailure g rx lane s)).fuses = s.fuses := by simp [execLaneFailure]

@[simp] theorem execGaconSwap_fuses (g : GPort) (flit : BitVec 2144) (s : State) : (nextOf s (execGaconSwap g flit s)).fuses = s.fuses := by
  simp [execGaconSwap]

@[simp] theorem execGaconSwapAck_fuses (g : GPort) (flit : BitVec 2144) (s : State) : (nextOf s (execGaconSwapAck g flit s)).fuses = s.fuses := by
  simp [execGaconSwapAck]

@[simp] theorem execFailoverSwitch_fuses (g : GPort) (rx : Bool) (s : State) : (nextOf s (execFailoverSwitch g rx s)).fuses = s.fuses := by
  unfold execFailoverSwitch; dsimp only; split <;> simp

/-! ### Gacon transactions -/

@[simp] theorem State.forwardTxn_fuses (s : State) (g vc : Nat) (t : Txn) : (s.forwardTxn g vc t).fuses = s.fuses := by simp [State.forwardTxn]

@[simp] theorem State.useRemoteSlot_fuses (s : State) (p n : Nat) : (s.useRemoteSlot p n).fuses = s.fuses := by
  unfold State.useRemoteSlot; dsimp only; split <;> simp

@[simp] theorem State.storeWrite_fuses (s : State) (g vc : Nat) (t : Txn) (n a : Nat) : (s.storeWrite g vc t n a).fuses = s.fuses := by
  simp [State.storeWrite]

@[simp] theorem State.openTrack_fuses (s : State) : (s.openTrack).2.fuses = s.fuses := by rfl

@[simp] theorem State.sendStrips_fuses (s : State) (g w : Nat) (t : Txn) (c a : Nat) : (s.sendStrips g w t c a).fuses = s.fuses := by
  simp [State.sendStrips]

@[simp] theorem execGaconWrite_fuses (g : GPort) (vc : Vc) (s : State) : (nextOf s (execGaconWrite g vc s)).fuses = s.fuses := by
  fun_cases execGaconWrite g vc s <;> simp

@[simp] theorem State.answerRead_fuses (s : State) (g vc : Nat) (t : Txn) (n a : Nat) : (s.answerRead g vc t n a).fuses = s.fuses := by
  fun_cases State.answerRead s g vc t n a <;> simp

@[simp] theorem execGaconRead_fuses (g : GPort) (vc : Vc) (s : State) : (nextOf s (execGaconRead g vc s)).fuses = s.fuses := by
  fun_cases execGaconRead g vc s
  case case1 => rfl
  all_goals simp +zetaDelta

@[simp] theorem execGaconReturn_fuses (g : GPort) (vc : Vc) (s : State) : (nextOf s (execGaconReturn g vc s)).fuses = s.fuses := by
  fun_cases execGaconReturn g vc s <;> simp +zetaDelta

@[simp] theorem execGaconMsg_fuses (g : GPort) (vc : Vc) (s : State) : (nextOf s (execGaconMsg g vc s)).fuses = s.fuses := by
  unfold execGaconMsg; split <;> simp

@[simp] theorem execGaconBarcmd_fuses (g : GPort) (vc : Vc) (s : State) : (nextOf s (execGaconBarcmd g vc s)).fuses = s.fuses := by
  unfold execGaconBarcmd; split <;> simp

@[simp] theorem execGaconNotice_fuses (g : GPort) (vc : Vc) (s : State) : (nextOf s (execGaconNotice g vc s)).fuses = s.fuses := by
  unfold execGaconNotice; split <;> simp

theorem State.askTile_fuses {s s1 : State} {g i : Nat} {x : StreamCtx} (h : s.askTile g i x = some s1) : s1.fuses = s.fuses := by
  unfold State.askTile at h
  dsimp only at h
  split at h
  · cases h
  · split at h <;> cases h <;> simp

@[simp] theorem State.sendTile_fuses (s : State) (g i : Nat) (x : StreamCtx) (t a : Nat) : (s.sendTile g i x t a).fuses = s.fuses := by
  simp [State.sendTile]

@[simp] theorem State.settleGaconIndex_fuses (s : State) (g : Nat) : (s.settleGaconIndex g).fuses = s.fuses := by simp [State.settleGaconIndex]

@[simp] theorem execRemoteSlot_fuses (p : PortId) (s : State) : (nextOf s (execRemoteSlot p s)).fuses = s.fuses := by
  unfold execRemoteSlot
  split
  · rfl
  split
  · rfl
  extract_lets s1 s2 die
  have slot : s2.fuses = s.fuses := by simp [s2, s1]
  split
  · exact slot
  extract_lets i g s3 xs s4 here ready
  have asked : s4.fuses = s.fuses := by
    have settled : s3.fuses = s.fuses := by simp [s3, slot]
    unfold s4
    split
    · next e =>
      obtain ⟨x, -, e⟩ := List.exists_of_findSome?_eq_some e
      exact (State.askTile_fuses e).trans settled
    · exact settled
  clear_value s4
  split
  · simp [asked]
  · split
    · exact asked
    · extract_lets v
      split
      · exact asked
      split
      · rw [nextOf_next_fuses]
        split <;> simp [asked]
      split <;> simp [asked]

/-! ### Metering -/

@[simp] theorem State.writeMeter_fuses (s : State) (i : Nat) (m : Meter) (stop : W64) (flags : Nat) :
    (s.writeMeter i m stop flags).fuses = s.fuses := by rfl

@[simp] theorem State.startMeter_fuses (s : State) (i : Nat) : (s.startMeter i).fuses = s.fuses := by rfl

@[simp] theorem State.closeMeter_fuses (s : State) (i : Nat) : (s.closeMeter i).fuses = s.fuses := by rfl

@[simp] theorem State.endMeter_fuses (s : State) (i : Nat) : (s.endMeter i).fuses = s.fuses := by rfl

@[simp] theorem State.recoverMeters_fuses (s : State) : (s.recoverMeters).fuses = s.fuses := by simp [State.recoverMeters]

@[simp] theorem execMeterPeriodBoundary_fuses (s : State) : (nextOf s (execMeterPeriodBoundary s)).fuses = s.fuses := by
  simp [execMeterPeriodBoundary]

@[simp] theorem execMeterCheckpoint_fuses (s : State) : (nextOf s (execMeterCheckpoint s)).fuses = s.fuses := by simp [execMeterCheckpoint]

@[simp] theorem execMeterCtlWrite_fuses (f : HostFn) (v : W64) (s : State) : (nextOf s (execMeterCtlWrite f v s)).fuses = s.fuses := by
  simp [execMeterCtlWrite]

@[simp] theorem execMeterRead_fuses (t : Nat) (s : State) : (nextOf s (execMeterRead t s)).fuses = s.fuses := by simp [execMeterRead]

@[simp] theorem execTimeSet_fuses (t : Nat) (s : State) : (nextOf s (execTimeSet t s)).fuses = s.fuses := by simp [execTimeSet]

/-! ### Loading of images -/

@[simp] theorem State.createSuite_fuses (s : State) (h m : List Byte) (r : Reserved) : (s.createSuite h m r).fuses = s.fuses := by
  simp [State.createSuite]

@[simp] theorem State.logImage_fuses (s : State) (code : Nat) : (s.logImage code).fuses = s.fuses := by rfl

@[simp] theorem createFrom_fuses (s : State) (b : List Byte) : (createFrom s b).2.2.fuses = s.fuses := by
  fun_cases createFrom s b <;> simp

@[simp] theorem execSuiteCreate_fuses (t : Nat) (buf : HostRead) (s : State) : (nextOf s (execSuiteCreate t buf s)).fuses = s.fuses := by
  unfold execSuiteCreate; split <;> simp

@[simp] theorem State.writeRows_fuses (s : State) (i : Nat) (q : BodyMap) (b : List Byte) (k : Nat) (sec : Section) :
    (s.writeRows i q b k sec).fuses = s.fuses :=
  s.writeRows_keeps State.fuses State.hbmWrite_fuses i q b k sec

@[simp] theorem State.writeWindows_fuses (s : State) (i : Nat) (m : List Byte) (q : BodyMap) (b : List Byte) :
    (s.writeWindows i m q b).fuses = s.fuses :=
  s.writeWindows_keeps State.fuses State.hbmWrite_fuses i m q b

theorem applyPatch_fuses {i : Nat} {h peers : List Byte} {q : BodyMap} {p : List Byte} {a c : List Byte × State}
    (e : applyPatch i h peers q p a = some c) : c.2.fuses = a.2.fuses := by
  unfold applyPatch at e
  simp only [Option.ite_none_left_eq_some] at e
  obtain ⟨v, -, e⟩ := Option.bind_eq_some_iff.mp e.2
  split at e
  · split at e
    · obtain ⟨-, e⟩ := Option.ite_none_right_eq_some.mp e
      cases e
      rfl
    · cases e
  split at e
  · obtain ⟨-, e⟩ := Option.ite_none_right_eq_some.mp e
    cases e
    rfl
  split at e
  · obtain ⟨-, e⟩ := Option.ite_none_right_eq_some.mp e
    cases e
    exact State.hbmWrite_fuses _ _ _
  split at e
  · obtain ⟨-, e⟩ := Option.ite_none_right_eq_some.mp e
    cases e
    rfl
  · cases e

theorem applyPatches_fuses {i : Nat} {h peers : List Byte} {q : BodyMap} {l : List Nat} {a c : List Byte × State}
    (e : applyPatches i h peers q l a = some c) : c.2.fuses = a.2.fuses := by
  induction l generalizing a with
  | nil =>
    cases e
    rfl
  | cons k l ih =>
    obtain ⟨b, hb, e⟩ := Option.bind_eq_some_iff.mp e
    exact (ih e).trans (applyPatch_fuses hb)

theorem State.loadBody_fuses {s t : State} {i : Nat} {h m cek cipher peers : List Byte} (e : s.loadBody i h m cek cipher peers = some t) :
    t.fuses = s.fuses := by
  unfold State.loadBody at e
  dsimp only at e
  split at e
  · cases e
  · obtain ⟨b, -, e⟩ := Option.bind_eq_some_iff.mp e
    split at e
    · cases e
    · obtain ⟨p, hp, e⟩ := Option.bind_eq_some_iff.mp e
      obtain ⟨secs, -, e⟩ := Option.bind_eq_some_iff.mp e
      obtain ⟨descs, -, e⟩ := Option.bind_eq_some_iff.mp e
      obtain ⟨rests, -, rfl⟩ := Option.map_eq_some_iff.mp e
      have k := applyPatches_fuses hp
      dsimp only at k
      rw [State.writeWindows_fuses, State.zeroSuite_fuses] at k
      simp [k]

@[simp] theorem State.abandonLoad_fuses (s : State) (i : Nat) : (s.abandonLoad i).fuses = s.fuses := by simp [State.abandonLoad]

@[simp] theorem State.clearForLoad_fuses (s : State) (i : Nat) (h m : List Byte) : (s.clearForLoad i h m).fuses = s.fuses := by
  simp [State.clearForLoad]

@[simp] theorem State.storeImage_fuses (s : State) (cek image : List Byte) : (s.storeImage cek image).2.fuses = s.fuses := by rfl

@[simp] theorem startLoad_fuses (s : State) (t : Taken) (i : Nat) (created : Bool) (img : List Byte) :
    (startLoad s t i created img).2.fuses = s.fuses := by
  fun_cases startLoad s t i created img <;> simp +zetaDelta

@[simp] theorem loadInto_fuses (s : State) (r : LoadRun) (img : List Byte) (len : Nat) (peers : HostRead) (keep : Bool) :
    (loadInto s r img len peers keep).2.2.fuses = s.fuses := by
  fun_cases loadInto s r img len peers keep
  case case1 => simp +zetaDelta
  case case2 => simp +zetaDelta
  case case3 =>
    have loaded := State.loadBody_fuses ‹_ = some _›
    have stored := snd_fuses_of_eq ‹State.storeImage _ _ _ = _› (State.storeImage_fuses _ _ _)
    exact stored.trans loaded
  case case4 => exact State.loadBody_fuses ‹_ = some _›

@[simp] theorem State.destroySuite_fuses (s : State) (i : Nat) : (s.destroySuite i).fuses = s.fuses := by simp [State.destroySuite]

@[simp] theorem State.endLoad_fuses (s : State) : (s.endLoad).fuses = s.fuses := by rfl

@[simp] theorem State.failLoad_fuses (s : State) (r : LoadRun) (t : Taken) (st : Nat) : (s.failLoad r t st).fuses = s.fuses := by
  simp [State.failLoad]

@[simp] theorem beginLoad_fuses (buf : HostRead) (t : Taken) (s : State) : (beginLoad buf t s).fuses = s.fuses := by
  have read : (if param t 9 1 = 0 then s.dmaRead .pf (param t 16 8) (param t 24 8) else s).fuses = s.fuses := by simp
  unfold beginLoad
  dsimp only
  generalize (if param t 9 1 = 0 then s.dmaRead .pf (param t 16 8) (param t 24 8) else s) = s1 at read
  split
  · simp
  split
  · simp
  split
  · simp [read]
  split
  · split
    · simp [read]
    · split <;> simp [read]
  · split
    · simp [read]
    · split <;> simp [read]

@[simp] theorem endImage_fuses (buf peers : HostRead) (t : Taken) (s : State) (r : LoadRun) : (endImage buf peers t s r).fuses = s.fuses := by
  simp [endImage]

@[simp] theorem loadImage_fuses (buf peers : HostRead) (t : Taken) (s : State) : (loadImage buf peers t s).fuses = s.fuses := by
  fun_cases loadImage buf peers t s <;> simp

@[simp] theorem State.abandonLoads_fuses (s : State) (n : Nat) : (s.abandonLoads n).fuses = s.fuses := by
  fun_cases State.abandonLoads s n <;> simp

@[simp] theorem State.zeroiseBbk_fuses (s : State) (n : Nat) : (s.zeroiseBbk n).fuses = s.fuses := by
  rw [State.zeroiseBbk, State.abandonLoads_fuses]
  split <;> rfl

@[simp] theorem execImageLoad_fuses (t : Nat) (buf peers : HostRead) (s : State) : (nextOf s (execImageLoad t buf peers s)).fuses = s.fuses := by
  simp [execImageLoad]

@[simp] theorem execImageUnload_fuses (t : Nat) (s : State) : (nextOf s (execImageUnload t s)).fuses = s.fuses := by
  rw [execImageUnload, nextOf_next_fuses, runCommand_fuses]
  intro t s
  dsimp only
  split <;> simp

@[simp] theorem execSuiteDestroy_fuses (t : Nat) (s : State) : (nextOf s (execSuiteDestroy t s)).fuses = s.fuses := by
  rw [execSuiteDestroy, nextOf_next_fuses, runCommand_fuses]
  intro t s
  dsimp only
  split <;> simp

/-! ### Power and maceration -/

@[simp] theorem State.setAlert_fuses (s : State) (m : Byte) : (s.setAlert m).fuses = s.fuses := by rfl

@[simp] theorem State.supplyStart_fuses (s : State) : (s.supplyStart).fuses = s.fuses := by simp [State.supplyStart]

@[simp] theorem State.lostRail_fuses (s : State) (cold : Bool) : (s.lostRail cold).fuses = s.fuses := by simp [State.lostRail]

@[simp] theorem State.powerOn_fuses (s : State) : (s.powerOn).fuses = s.fuses := by rfl

@[simp] theorem execVaonGood_fuses (s : State) : (nextOf s (execVaonGood s)).fuses = s.fuses := by simp [execVaonGood]

@[simp] theorem execVaonLoss_fuses (s : State) : (nextOf s (execVaonLoss s)).fuses = s.fuses := by simp [execVaonLoss]

@[simp] theorem execVin12Good_fuses (s : State) : (nextOf s (execVin12Good s)).fuses = s.fuses := by simp [execVin12Good]

@[simp] theorem execVin12Loss_fuses (s : State) : (nextOf s (execVin12Loss s)).fuses = s.fuses := by simp [execVin12Loss]

@[simp] theorem execVin48Good_fuses (s : State) : (nextOf s (execVin48Good s)).fuses = s.fuses := by simp [execVin48Good]

@[simp] theorem execVin48Loss_fuses (s : State) : (nextOf s (execVin48Loss s)).fuses = s.fuses := by simp [execVin48Loss]

@[simp] theorem execVin48Return_fuses (s : State) : (nextOf s (execVin48Return s)).fuses = s.fuses := by simp [execVin48Return]

@[simp] theorem execVbatLoss_fuses (s : State) : (nextOf s (execVbatLoss s)).fuses = s.fuses := by simp [execVbatLoss]

@[simp] theorem execVbatGood_fuses (s : State) : (nextOf s (execVbatGood s)).fuses = s.fuses := by rfl

@[simp] theorem execResonatorFailure_fuses (s : State) : (nextOf s (execResonatorFailure s)).fuses = s.fuses := by simp [execResonatorFailure]

@[simp] theorem execHoldoverEnd_fuses (s : State) : (nextOf s (execHoldoverEnd s)).fuses = s.fuses := by simp [execHoldoverEnd]

@[simp] theorem execBayPllLock_fuses (b : BayId) (s : State) : (nextOf s (execBayPllLock b s)).fuses = s.fuses := by simp [execBayPllLock]

@[simp] theorem State.scrubPass_fuses (s : State) (c : Nat) : (s.scrubPass c).fuses = s.fuses := by simp [State.scrubPass]

@[simp] theorem execAsleepScrubWake_fuses (b : BayId) (s : State) : (nextOf s (execAsleepScrubWake b s)).fuses = s.fuses := by
  simp [execAsleepScrubWake]

@[simp] theorem execStackSelfRefreshEntry_fuses (p : PortId) (s : State) : (nextOf s (execStackSelfRefreshEntry p s)).fuses = s.fuses := by
  simp [execStackSelfRefreshEntry]

@[simp] theorem execStackSelfRefreshExit_fuses (p : PortId) (s : State) : (nextOf s (execStackSelfRefreshExit p s)).fuses = s.fuses := by
  simp [execStackSelfRefreshExit]

@[simp] theorem State.setDuty_fuses (s : State) (d : BitVec 4) : (s.setDuty d).fuses = s.fuses := by rfl

@[simp] theorem execPowerCapLoop_fuses (p10 peak : W16) (s : State) : (nextOf s (execPowerCapLoop p10 peak s)).fuses = s.fuses := by
  fun_cases execPowerCapLoop p10 peak s <;> simp +zetaDelta

@[simp] theorem State.limitBay_fuses (s : State) (c : ProtCause) (on : Bool) : (s.limitBay c on).fuses = s.fuses := by
  unfold State.limitBay; split <;> simp

@[simp] theorem execProtectionTrigger_fuses (c : ProtCause) (s : State) : (nextOf s (execProtectionTrigger c s)).fuses = s.fuses := by
  simp [execProtectionTrigger]

@[simp] theorem execProtectionClear_fuses (c : ProtCause) (s : State) : (nextOf s (execProtectionClear c s)).fuses = s.fuses := by
  simp [execProtectionClear]

@[simp] theorem execThermtrip_fuses (tj : Byte) (s : State) : (nextOf s (execThermtrip tj s)).fuses = s.fuses := by simp [execThermtrip]

@[simp] theorem execThermtripRearm_fuses (tj : Byte) (s : State) : (nextOf s (execThermtripRearm tj s)).fuses = s.fuses := by
  simp [execThermtripRearm]

@[simp] theorem State.bootFirmware_fuses (s : State) : (s.bootFirmware).2.fuses = s.fuses := by
  fun_cases State.bootFirmware s <;> simp +zetaDelta

@[simp] theorem State.enterSafe_fuses (s : State) (code : Byte) : (s.enterSafe code).fuses = s.fuses := by simp [State.enterSafe]

@[simp] theorem State.restStacks_fuses (s : State) (bad : List PortId) : (s.restStacks bad).fuses = s.fuses := by rfl

@[simp] theorem State.repairRows_fuses (s : State) (l : List (Fin 256 × Fin 17 × Fin 256 × Fin 32 × Nat)) :
    (s.repairRows l).fuses = s.fuses := by rfl

@[simp] theorem State.spareCells_fuses (s : State) (l : List UnitCheck) : (s.spareCells l).fuses = s.fuses := by
  refine State.foldl_fuses _ (fun s k => ?_) _ s
  dsimp only
  split
  · rfl
  · split
    · simp [State.shiftRow_fuses ‹_ = some _›]
    · simp

@[simp] theorem State.clearMarks_fuses (s : State) (units : List (UnitCheck × Nat)) (bays : List BayId) :
    (s.clearMarks units bays).fuses = s.fuses := by simp [State.clearMarks]

@[simp] theorem State.enterReady_fuses (s : State) : (s.enterReady).fuses = s.fuses := by simp [State.enterReady]

@[simp] theorem State.nextMacer_fuses (s : State) : (s.nextMacer).fuses = s.fuses := by rfl

@[simp] theorem State.logSupplies_fuses (s : State) : (s.logSupplies).fuses = s.fuses := by simp [State.logSupplies]

@[simp] theorem execMacerationStepComplete_fuses (r : MacReport) (s : State) : (nextOf s (execMacerationStepComplete r s)).fuses = s.fuses := by
  simp [execMacerationStepComplete]

/-! ### Recovery -/

@[simp] theorem State.reportCheck_fuses (s : State) (k : UnitCheck) (cls info : Nat) (suite : Option Nat) :
    (s.reportCheck k cls info suite).fuses = s.fuses := by simp [State.reportCheck]

@[simp] theorem State.checkEffect_fuses (s : State) (b : Nat) (x : UnitCheck) : (s.checkEffect b x).fuses = s.fuses := by
  cases x <;> simp [State.checkEffect]

@[simp] theorem execUnitCheckError_fuses (k : UnitCheck) (s : State) : (nextOf s (execUnitCheckError k s)).fuses = s.fuses := by
  unfold execUnitCheckError; dsimp only; split <;> simp

@[simp] theorem execRecoveryDetect_fuses (sid : SuiteId) (s : State) : (nextOf s (execRecoveryDetect sid s)).fuses = s.fuses := by
  simp [execRecoveryDetect]

@[simp] theorem State.rollback_fuses (s : State) (i : Nat) : (s.rollback i).fuses = s.fuses := by simp [State.rollback]

@[simp] theorem State.repairUnit_fuses (s : State) (i : Nat) (k : UnitCheck) : (s.repairUnit i k).2.fuses = s.fuses := by
  unfold State.repairUnit
  dsimp only
  split
  · split
    · split <;> simp
    · rfl
  · split
    · simp [State.shiftRow_fuses ‹_ = some _›]
    · simp

@[simp] theorem State.completeRecord_fuses (s : State) (i log queue info : Nat) : (s.completeRecord i log queue info).fuses = s.fuses := by rfl

@[simp] theorem State.afterTest_fuses (s : State) (i : Nat) (t : UnitTest) (pass : Bool) : (s.afterTest i t pass).fuses = s.fuses := by
  unfold State.afterTest
  dsimp only
  split <;> simp [apply_ite Prod.snd]

@[simp] theorem State.endDetect_fuses (s : State) (i : Nat) : (s.endDetect i).fuses = s.fuses := by simp [State.endDetect]

@[simp] theorem State.settleShifts_fuses (s : State) (i : Nat) : (s.settleShifts i).fuses = s.fuses := by simp [State.settleShifts]

@[simp] theorem execQuickTestDone_fuses (sid : SuiteId) (pass : Bool) (s : State) : (nextOf s (execQuickTestDone sid pass s)).fuses = s.fuses := by
  unfold execQuickTestDone
  dsimp only
  split
  · rw [nextOf_next_fuses]
    split <;> simp
  · split
    · rfl
    · split <;> simp [↓State.fuses_ite]

@[simp] theorem execLateralCopyDone_fuses (sid : SuiteId) (s : State) : (nextOf s (execLateralCopyDone sid s)).fuses = s.fuses := by
  simp [execLateralCopyDone]

@[simp] theorem execRestoreDone_fuses (sid : SuiteId) (s : State) : (nextOf s (execRestoreDone sid s)).fuses = s.fuses := by simp [execRestoreDone]

@[simp] theorem execSuiteFatalFault_fuses (sid : SuiteId) (s : State) : (nextOf s (execSuiteFatalFault sid s)).fuses = s.fuses := by
  simp [execSuiteFatalFault]

theorem State.repairSlot_fuses {s s1 : State} {i p cls : Nat} (h : s.repairSlot i p cls = some s1) : s1.fuses = s.fuses := by
  unfold State.repairSlot at h
  obtain ⟨n, -, rfl⟩ := Option.map_eq_some_iff.mp h
  simp

@[simp] theorem execMirrorRestore_fuses (c : CellId) (o : Fin 8) (pane : Fin 128) (s : State) :
    (nextOf s (execMirrorRestore c o pane s)).fuses = s.fuses := by
  fun_cases execMirrorRestore c o pane s
  case case5 => simp +zetaDelta [State.repairSlot_fuses ‹_ = some _›]
  case case6 => simp +zetaDelta [State.repairSlot_fuses ‹_ = some _›]
  all_goals rfl

@[simp] theorem execMirrorRewrite_fuses (c : CellId) (o : Fin 8) (pane : Fin 128) (s : State) :
    (nextOf s (execMirrorRewrite c o pane s)).fuses = s.fuses := by
  fun_cases execMirrorRewrite c o pane s
  case case6 => simp +zetaDelta [State.repairSlot_fuses ‹_ = some _›]
  all_goals rfl

@[simp] theorem execPseudoChannelLoss_fuses (p : PortId) (pc : Fin 64) (s : State) : (nextOf s (execPseudoChannelLoss p pc s)).fuses = s.fuses := by
  simp [execPseudoChannelLoss]

@[simp] theorem State.suspectUnit_fuses (s : State) (r : UnitRef) : (s.suspectUnit r).fuses = s.fuses := by
  fun_cases State.suspectUnit s r <;> simp +zetaDelta

theorem State.suspects_fuses (s : State) (l : List (UnitRef × Nat)) :
    State.fuses { s with repair := { s.repair with suspects := l } } = s.fuses := by rfl

@[simp] theorem execStateMismatchRecheck_fuses (r : UnitRef) (differs : Bool) (s : State) :
    (nextOf s (execStateMismatchRecheck r differs s)).fuses = s.fuses := by
  unfold execStateMismatchRecheck
  dsimp only
  split
  · rw [nextOf_next_fuses, State.suspects_fuses, State.waitUntil_fuses]
  · split
    · rw [nextOf_next_fuses, State.suspects_fuses, State.waitUntil_fuses]
    · rw [nextOf_next_fuses, State.suspectUnit_fuses, State.suspects_fuses, State.waitUntil_fuses]

/-! ### Counters, the watchdog and sampling -/

@[simp] theorem State.cellOverflow_fuses (s : State) (c i : Nat) : (s.cellOverflow c i).fuses = s.fuses := by simp [State.cellOverflow]

@[simp] theorem execCounterOverflow_fuses (k : CounterRef) (s : State) : (nextOf s (execCounterOverflow k s)).fuses = s.fuses := by
  unfold execCounterOverflow; split <;> simp

@[simp] theorem execWatchdogExpiry_fuses (c : CellId) (s : State) : (nextOf s (execWatchdogExpiry c s)).fuses = s.fuses := by
  fun_cases execWatchdogExpiry c s
  case case1 => rfl
  case case2 => rfl
  all_goals simp +zetaDelta [State.waitCycle_fuses ‹_ = some _›]

@[simp] theorem execSampleTaken_fuses (c : CellId) (e : Option Engine) (s : State) : (nextOf s (execSampleTaken c e s)).fuses = s.fuses := by
  fun_cases execSampleTaken c e s <;> simp +zetaDelta

@[simp] theorem execSampleRecordWrite_fuses (sid : SuiteId) (s : State) : (nextOf s (execSampleRecordWrite sid s)).fuses = s.fuses := by
  fun_cases execSampleRecordWrite sid s <;> simp +zetaDelta

/-! ### Registers -/

@[simp] theorem State.peek_fuses (s : State) (c : Nat) : (s.peek c).fuses = s.fuses := by
  fun_cases State.peek s c <;> simp

@[simp] theorem State.clearContext_fuses (s : State) (x : Fin 16 → StreamCtx) (o : Nat) : (s.clearContext x o).fuses = s.fuses := by
  simp [State.clearContext]

@[simp] theorem State.clearRead_fuses (s : State) (x : Place) : (s.clearRead x).fuses = s.fuses := by
  unfold State.clearRead; split <;> simp

@[simp] theorem State.writeAlert_fuses (s : State) (v : W64) : (s.writeAlert v).fuses = s.fuses := by rfl

@[simp] theorem State.writeRing_fuses (s : State) (f : HostFn) (o : Nat) (v : W64) : (s.writeRing f o v).fuses = s.fuses := by simp [State.writeRing]

@[simp] theorem State.writeHub_fuses (s : State) (o : Nat) (v : W64) : (s.writeHub o v).fuses = s.fuses := by
  fun_cases State.writeHub s o v <;> simp +zetaDelta

@[simp] theorem State.writeBarCmd_fuses (s : State) (src : BarSrc) (n : BarId) (v : W64) : (s.writeBarCmd src n v).fuses = s.fuses := by
  simp [State.writeBarCmd]

@[simp] theorem State.writeBarrier_fuses (s : State) (f : HostFn) (n o : Nat) (v : W64) : (s.writeBarrier f n o v).fuses = s.fuses := by
  simp [State.writeBarrier]

@[simp] theorem State.writeBuilder_fuses (s : State) (f : HostFn) (i o : Nat) (v : W64) : (s.writeBuilder f i o v).fuses = s.fuses := by
  fun_cases State.writeBuilder s f i o v <;> simp +zetaDelta

@[simp] theorem State.writeConfig_fuses (s : State) (c k : Nat) (v : W32) : (s.writeConfig c k v).fuses = s.fuses := by simp [State.writeConfig]

@[simp] theorem execConfigWindowWrite_fuses (f : HostFn) (c : CellId) (word : Fin 4096) (v : W32) (s : State) :
    (nextOf s (execConfigWindowWrite f c word v s)).fuses = s.fuses := by
  cases f <;> simp [execConfigWindowWrite]

@[simp] theorem State.writeMsix_fuses (s : State) (f : HostFn) (o : Nat) (v : W64) : (s.writeMsix f o v).fuses = s.fuses := by simp [State.writeMsix]

@[simp] theorem State.writePf_fuses (s : State) (p : Place) (v : W64) : (s.writePf p v).fuses = s.fuses := by
  unfold State.writePf; split <;> simp

@[simp] theorem State.writeVf_fuses (s : State) (i : SuiteId) (p : Place) (v : W64) : (s.writeVf i p v).fuses = s.fuses := by
  unfold State.writeVf; split <;> simp

@[simp] theorem State.missAccess_fuses (s : State) (f : HostFn) (p : Place) (off : Nat) (write : Bool) :
    (s.missAccess f p off write).fuses = s.fuses := by
  unfold State.missAccess; dsimp only; split <;> simp

@[simp] theorem State.hbmAccess_fuses (s : State) (f : HostFn) (off a : Nat) (w : Option W64) : (s.hbmAccess f off a w).fuses = s.fuses := by
  simp [State.hbmAccess]

@[simp] theorem State.freshCycle_fuses (s : State) (p : Place) : (s.freshCycle p).fuses = s.fuses := by simp [State.freshCycle]

@[simp] theorem execUnmappedAccess_fuses (f : HostFn) (off : Nat) (write : Bool) (s : State) :
    (nextOf s (execUnmappedAccess f off write s)).fuses = s.fuses := by
  fun_cases execUnmappedAccess f off write s <;> simp

@[simp] theorem execRcFieldRead_fuses (f : HostFn) (off : Nat) (s : State) : (nextOf s (execRcFieldRead f off s)).fuses = s.fuses := by
  fun_cases execRcFieldRead f off s <;> simp +zetaDelta

@[simp] theorem execRegisterWrite_fuses (f : HostFn) (off : Nat) (v : W64) (s : State) :
    (nextOf s (execRegisterWrite f off v s)).fuses = s.fuses := by
  unfold execRegisterWrite
  split
  · rfl
  split
  · rfl
  split
  · simp
  · simp
  · simp
  · dsimp only
    split
    · simp
    · split <;> simp

@[simp] theorem execApertureHbmAccess_fuses (f : HostFn) (off : Nat) (w : Option W64) (s : State) :
    (nextOf s (execApertureHbmAccess f off w s)).fuses = s.fuses := by
  fun_cases execApertureHbmAccess f off w s <;> simp

/-! ### Management, keys and firmware -/

@[simp] theorem execHeartbeat_fuses (s : State) : (nextOf s (execHeartbeat s)).fuses = s.fuses := by simp [execHeartbeat]

@[simp] theorem execCheckpoint_fuses (s : State) : (nextOf s (execCheckpoint s)).fuses = s.fuses := by
  unfold execCheckpoint
  split
  · rfl
  · dsimp only
    rw [nextOf_next_fuses, State.fuses_update, State.waitUntil_fuses]

@[simp] theorem execActiveCoreFailure_fuses (s : State) : (nextOf s (execActiveCoreFailure s)).fuses = s.fuses := by simp [execActiveCoreFailure]

@[simp] theorem execStandbyBistDone_fuses (pass : Bool) (s : State) : (nextOf s (execStandbyBistDone pass s)).fuses = s.fuses := by
  fun_cases execStandbyBistDone pass s <;> simp

@[simp] theorem execSidebandRead_fuses (k : Byte) (s : State) : (nextOf s (execSidebandRead k s)).fuses = s.fuses := by
  unfold execSidebandRead
  split
  · rfl
  · dsimp only
    split <;> simp

@[simp] theorem execSidebandWrite_fuses (k : Byte) (v : W64) (s : State) : (nextOf s (execSidebandWrite k v s)).fuses = s.fuses := by
  simp [execSidebandWrite]

@[simp] theorem execPresenceAssert_fuses (s : State) : (nextOf s (execPresenceAssert s)).fuses = s.fuses := by
  fun_cases execPresenceAssert s <;> simp

@[simp] theorem execPresenceDeassert_fuses (s : State) : (nextOf s (execPresenceDeassert s)).fuses = s.fuses := by
  fun_cases execPresenceDeassert s <;> simp

@[simp] theorem execSealOpen_fuses (s : State) : (nextOf s (execSealOpen s)).fuses = s.fuses := by
  fun_cases execSealOpen s <;> simp +zetaDelta

@[simp] theorem provision_fuses (t : Taken) (s : State) (slots size : Nat) (buf : HostRead) (free : Bool) (refuse : Option Nat)
    (run : List Byte → Reply × State) (h : ∀ b, (run b).2.fuses = s.fuses) : (provision t s slots size buf free refuse run).fuses = s.fuses := by
  fun_cases provision t s slots size buf free refuse run
  case case6 =>
    have kept := snd_fuses_of_eq ‹run _ = (_, _)› (h _)
    simp +zetaDelta [kept]
  all_goals simp +zetaDelta

@[simp] theorem execKeyProvisionBbk_fuses (t : Nat) (buf : HostRead) (s : State) : (nextOf s (execKeyProvisionBbk t buf s)).fuses = s.fuses := by
  rw [execKeyProvisionBbk, nextOf_next_fuses, runCommand_fuses]
  refine fun t s => provision_fuses _ _ _ _ _ _ _ _ (fun b => ?_)
  split <;> simp

@[simp] theorem execKeyProvisionBbkZeroise_fuses (t : Nat) (s : State) : (nextOf s (execKeyProvisionBbkZeroise t s)).fuses = s.fuses := by
  rw [execKeyProvisionBbkZeroise, nextOf_next_fuses, runCommand_fuses]
  exact fun t s => provision_fuses _ _ _ _ _ _ _ _ (fun _ => s.zeroiseBbk_fuses _)

@[simp] theorem execDebugUnlock_fuses (t : Nat) (buf : HostRead) (s : State) : (nextOf s (execDebugUnlock t buf s)).fuses = s.fuses := by
  simp [execDebugUnlock]

@[simp] theorem execDeviceResetFactory_fuses (t : Nat) (s : State) : (nextOf s (execDeviceResetFactory t s)).fuses = s.fuses := by
  simp [execDeviceResetFactory]

@[simp] theorem execFwDownload_fuses (t : Nat) (buf : HostRead) (s : State) : (nextOf s (execFwDownload t buf s)).fuses = s.fuses := by
  rw [execFwDownload, nextOf_next_fuses, runCommand_fuses]
  intro t s
  dsimp only
  split
  · simp
  split
  · simp
  split
  · simp
  split <;> simp

@[simp] theorem execFwVerify_fuses (t : Nat) (s : State) : (nextOf s (execFwVerify t s)).fuses = s.fuses := by simp [execFwVerify]

@[simp] theorem execFwActivate_fuses (t : Nat) (s : State) : (nextOf s (execFwActivate t s)).fuses = s.fuses := by simp [execFwActivate]

@[simp] theorem execFwConfirm_fuses (t : Nat) (s : State) : (nextOf s (execFwConfirm t s)).fuses = s.fuses := by simp [execFwConfirm]

/-! ### Fuses that a command sets -/

theorem signerOf_putSigner (s : State) (n m : Nat) (v : Signer) : signerOf (s.putSigner n v) m = if m = n then v else signerOf s m := by
  unfold signerOf
  exact sget_sset _ _ _ _ _

theorem any_key_sset {V : Type} (m : SMap V) (k j : Nat) (v : V) (held : m.any (fun e => e.1 == j) = true) :
    (sset m k v).any (fun e => e.1 == j) = true := by
  fun_induction sset m k v with
  | case1 k v => cases held
  | case2 i w r k v => simp_all
  | case3 i w r v => simp_all
  | case4 i w r k v _ _ ih =>
    simp only [List.any_cons, Bool.or_eq_true] at held ⊢
    exact held.imp id ih

/-- Where the fuses stand as they were, they stand as in a base state. -/
theorem fusesFrom_of_fuses_eq {a b : State} (h : b.fuses = a.fuses) : FusesFrom a b := by
  simp only [State.fuses, Fuses.mk.injEq] at h
  obtain ⟨uid, grade, duk, fk, revoked, signers, good, shift, svn⟩ := h
  have signer (n : Nat) : signerOf b n = signerOf a n := by rw [signerOf, signerOf, signers]
  refine ⟨uid, grade, duk, good, shift, svn ▸ BitVec.le_refl _, fun n h => ?_, fun n h => ?_, fun n h => ?_, fun n h => ?_⟩
  · exact ⟨fk ▸ h, by rw [fk]⟩
  · exact revoked ▸ h
  · exact signer n ▸ h
  · exact ⟨signer n ▸ h, by rw [signer], signer n ▸ BitVec.le_refl _⟩

theorem fusesFrom_trans {a b c : State} (first : FusesFrom a b) (second : FusesFrom b c) : FusesFrom a c := by
  obtain ⟨uid, grade, duk, good, shift, svn, fk, revoked, signerRevoked, signer⟩ := first
  obtain ⟨uid', grade', duk', good', shift', svn', fk', revoked', signerRevoked', signer'⟩ := second
  refine ⟨uid'.trans uid, grade'.trans grade, duk'.trans duk, good'.trans good, shift'.trans shift, BitVec.le_trans svn svn', fun n h => ?_,
    fun n h => revoked' n (revoked n h), fun n h => signerRevoked' n (signerRevoked n h), fun n h => ?_⟩
  · obtain ⟨held, same⟩ := fk n h
    obtain ⟨held', same'⟩ := fk' n held
    exact ⟨held', same'.trans same⟩
  · obtain ⟨valid, digest, floor⟩ := signer n h
    obtain ⟨valid', digest', floor'⟩ := signer' n valid
    exact ⟨valid', digest'.trans digest, BitVec.le_trans floor floor'⟩

theorem fusesFrom_refl (s : State) : FusesFrom s s := fusesFrom_of_fuses_eq rfl

/-- An unprogrammed FK slot takes a key. -/
theorem fusesFrom_programFk (s : State) (n : Nat) (k : List Byte) (free : s.keys.fk.any (fun e => e.1 == n) = false) :
    FusesFrom s { s with keys := { s.keys with fk := sset s.keys.fk n k } } := by
  obtain ⟨uid, grade, duk, good, shift, svn, -, revoked, signerRevoked, signer⟩ := fusesFrom_refl s
  refine ⟨uid, grade, duk, good, shift, svn, fun m held => ⟨any_key_sset _ n m k held, ?_⟩, revoked, signerRevoked, signer⟩
  have other : m ≠ n := fun e => by simp [e, free] at held
  exact sget_sset_ne _ _ _ _ _ other

/-- Revocation bits rise. -/
theorem fusesFrom_revokeFk (s : State) (bits : BitVec 4) :
    FusesFrom s { s with keys := { s.keys with fkRevoked := s.keys.fkRevoked ||| bits } } := by
  obtain ⟨uid, grade, duk, good, shift, svn, fk, -, signerRevoked, signer⟩ := fusesFrom_refl s
  exact ⟨uid, grade, duk, good, shift, svn, fk, fun m h => by simp [h], signerRevoked, signer⟩

/-- SVN_MIN rises. -/
theorem fusesFrom_raiseSvnMin (s : State) (v : Byte) (rises : s.fw.svnMin ≤ v) : FusesFrom s { s with fw := { s.fw with svnMin := v } } := by
  obtain ⟨uid, grade, duk, good, shift, -, fk, revoked, signerRevoked, signer⟩ := fusesFrom_refl s
  exact ⟨uid, grade, duk, good, shift, rises, fk, revoked, signerRevoked, signer⟩

/-- A signer slot is written: a revocation stays, and what a valid slot holds stays or rises. -/
theorem fusesFrom_putSigner (s : State) (n : Nat) (v : Signer) (revoked : (signerOf s n).revoked = true → v.revoked = true)
    (valid : (signerOf s n).valid = true → v.valid = true ∧ v.digest = (signerOf s n).digest ∧ (signerOf s n).svnFloor ≤ v.svnFloor) :
    FusesFrom s (s.putSigner n v) := by
  obtain ⟨uid, grade, duk, good, shift, svn, fk, fkRevoked, signerRevoked, signer⟩ := fusesFrom_refl s
  refine ⟨uid, grade, duk, good, shift, svn, fk, fkRevoked, fun m h => ?_, fun m h => ?_⟩
  all_goals
    rw [signerOf_putSigner]
    split
  · next e => exact revoked (e ▸ h)
  · exact h
  · next e =>
    subst e
    exact valid h
  · exact signer m h

@[simp] theorem nextOf_next (s t : State) : nextOf s (.next t) = t := by rfl

/-- A mailbox command undoes no fuse when its own effect undoes none. -/
theorem runCommand_fusesFrom (s : State) (ticket op : Nat) (sel : Taken → Bool) (used : Taken → List (Nat × Nat))
    (run : Taken → State → State) (h : ∀ t s, FusesFrom s (run t s)) : FusesFrom s (runCommand s ticket op sel used run) := by
  obtain ⟨-, e⟩ | ⟨t, r, -, -, -, e⟩ | ⟨t, -, -, e⟩ := runCommand_cases s ticket op sel used run
  · rw [e]
    exact fusesFrom_refl s
  · rw [e]
    exact fusesFrom_of_fuses_eq (s.finish_fuses t r)
  · rw [e]
    exact h t s

/-- A KEY_PROVISION operation undoes no fuse when its effect, where its own check passes, undoes none. -/
theorem provision_fusesFrom (t : Taken) (s : State) (slots size : Nat) (buf : HostRead) (free : Bool) (refuse : Option Nat)
    (run : List Byte → Reply × State) (h : refuse = none → ∀ b, FusesFrom s (run b).2) :
    FusesFrom s (provision t s slots size buf free refuse run) := by
  fun_cases provision t s slots size buf free refuse run
  case case6 ran =>
    have done := h rfl ‹_›
    rw [ran] at done
    exact fusesFrom_trans done (fusesFrom_of_fuses_eq (by simp +zetaDelta))
  all_goals exact fusesFrom_of_fuses_eq (by simp +zetaDelta)

/-! ### KEY_PROVISION operations that set fuses (R526, R541, R604) -/

theorem execKeyProvisionFk_fusesFrom (t : Nat) (buf : HostRead) (s : State) : FusesFrom s (nextOf s (execKeyProvisionFk t buf s)) := by
  rw [execKeyProvisionFk, nextOf_next]
  refine runCommand_fusesFrom _ _ _ _ _ _ fun t s => ?_
  dsimp only
  split
  · exact fusesFrom_of_fuses_eq (s.finish_fuses _ _)
  · refine provision_fusesFrom _ _ _ _ _ _ _ _ fun unused b => fusesFrom_programFk s _ b ?_
    simp only [ite_eq_right_iff, reduceCtorEq, imp_false, Bool.or_eq_true, not_or, Bool.not_eq_true] at unused
    exact unused.1

theorem execKeyProvisionSigner_fusesFrom (t : Nat) (buf : HostRead) (s : State) : FusesFrom s (nextOf s (execKeyProvisionSigner t buf s)) := by
  rw [execKeyProvisionSigner, nextOf_next]
  refine runCommand_fusesFrom _ _ _ _ _ _ fun t s => ?_
  refine provision_fusesFrom _ _ _ _ _ _ _ _ fun unused b => ?_
  simp only [ite_eq_right_iff, reduceCtorEq, imp_false, Bool.or_eq_true, not_or, Bool.not_eq_true] at unused
  obtain ⟨invalid, unrevoked⟩ := unused
  exact fusesFrom_putSigner s _ _ (by simp [unrevoked]) (by simp [invalid])

theorem execKeyProvisionRevokeSigner_fusesFrom (t : Nat) (s : State) : FusesFrom s (nextOf s (execKeyProvisionRevokeSigner t s)) := by
  rw [execKeyProvisionRevokeSigner, nextOf_next]
  refine runCommand_fusesFrom _ _ _ _ _ _ fun t s => ?_
  refine provision_fusesFrom _ _ _ _ _ _ _ _ fun _ b => ?_
  split
  · exact fusesFrom_refl s
  · exact fusesFrom_putSigner s _ _ (fun _ => rfl) (fun valid => ⟨valid, rfl, BitVec.le_refl _⟩)

theorem execKeyProvisionRevokeFk_fusesFrom (t : Nat) (s : State) : FusesFrom s (nextOf s (execKeyProvisionRevokeFk t s)) := by
  rw [execKeyProvisionRevokeFk, nextOf_next]
  refine runCommand_fusesFrom _ _ _ _ _ _ fun t s => ?_
  refine provision_fusesFrom _ _ _ _ _ _ _ _ fun _ b => ?_
  split
  · exact fusesFrom_refl s
  · exact fusesFrom_revokeFk s _

theorem execKeyProvisionSvnFloor_fusesFrom (t : Nat) (buf : HostRead) (s : State) :
    FusesFrom s (nextOf s (execKeyProvisionSvnFloor t buf s)) := by
  rw [execKeyProvisionSvnFloor, nextOf_next]
  refine runCommand_fusesFrom _ _ _ _ _ _ fun t s => ?_
  refine provision_fusesFrom _ _ _ _ _ _ _ _ fun _ b => ?_
  dsimp only
  split
  · exact fusesFrom_refl s
  · next above => exact fusesFrom_putSigner s _ _ id (fun valid => ⟨valid, rfl, BitVec.le_of_lt (BitVec.not_le.mp above)⟩)

theorem execKeyProvisionSvnMin_fusesFrom (t : Nat) (buf : HostRead) (s : State) : FusesFrom s (nextOf s (execKeyProvisionSvnMin t buf s)) := by
  rw [execKeyProvisionSvnMin, nextOf_next]
  refine runCommand_fusesFrom _ _ _ _ _ _ fun t s => ?_
  refine provision_fusesFrom _ _ _ _ _ _ _ _ fun _ b => ?_
  dsimp only
  split
  · exact fusesFrom_refl s
  · next above => exact fusesFrom_raiseSvnMin s _ (BitVec.le_of_lt (BitVec.not_le.mp (not_or.mp above).1))

/-! ### A step -/

/-- A command whose instruction its opcode alone names issues that instruction. -/
theorem exec_eq_issue {i : Instr} {op : Nat} {c : CellId} {x : Ctx} (named : opcodeOf i = some (op, c, x)) (s : State) :
    exec i s = issue op c x s := by
  cases i <;> cases named <;> rfl

/-- No command undoes a fuse. -/
theorem exec_fusesFrom (i : Instr) (s : State) : FusesFrom s (nextOf s (exec i s)) := by
  cases named : opcodeOf i with
  | some e => exact fusesFrom_of_fuses_eq (by rw [exec_eq_issue named, issue_fuses])
  | none =>
    -- six commands set fuses; those that `opcodeOf` names are excluded, and every other leaves the fuses as they were
    cases i with
    | keyProvisionFk t buf => exact execKeyProvisionFk_fusesFrom t buf s
    | keyProvisionSigner t buf => exact execKeyProvisionSigner_fusesFrom t buf s
    | keyProvisionRevokeSigner t => exact execKeyProvisionRevokeSigner_fusesFrom t s
    | keyProvisionRevokeFk t => exact execKeyProvisionRevokeFk_fusesFrom t s
    | keyProvisionSvnFloor t buf => exact execKeyProvisionSvnFloor_fusesFrom t buf s
    | keyProvisionSvnMin t buf => exact execKeyProvisionSvnMin_fusesFrom t buf s
    | _ => exact fusesFrom_of_fuses_eq (by simp_all [exec, opcodeOf])

/-- No step undoes a fuse: with no command pending, time passes; else the command in front is executed. -/
theorem step_fusesFrom {s t : State} (h : step s = .next t) : FusesFrom s t := by
  unfold step at h
  split at h
  · cases h
    exact fusesFrom_of_fuses_eq (s.advance_fuses 1)
  · next c r _ =>
    have kept := exec_fusesFrom c { s with pending := r }
    rw [h] at kept
    exact fusesFrom_trans (fusesFrom_of_fuses_eq rfl) kept

/-- Settles O59: what fuses hold against a base state, each step keeps (`step_fusesFrom`), so it composes with what held before. -/
theorem fusesAreNeverUndone : Obligations.FusesAreNeverUndone := by
  intro base s t held stepped
  exact fusesFrom_trans held (step_fusesFrom stepped)

end Sys2Proof.Machine
end

section
/-!
PROOF. O11, O35: which cells the operations that an engine start and a commit use leave as they were.
-/

namespace Sys2Proof.Machine
open Sys2Proof

/-! ### Operations that leave every cell as it was -/

/-- States with the same cells read the same in each of them. -/
theorem State.cell_eq_of_cells {s t : State} (h : t.cells = s.cells) (k : Nat) : t.cell k = s.cell k := by
  simp only [State.cell, h]

@[simp] theorem State.report_cells (s : State) (ty code cls addr info : Nat) (unit : UnitRef) (suite : Option Nat) :
    (s.report ty code cls addr info unit suite).cells = s.cells := by simp [State.report]

@[simp] theorem State.suiteError_cells (s : State) (code addr info : Nat) (unit : UnitRef) (suite : Option Nat) :
    (s.suiteError code addr info unit suite).cells = s.cells := by simp [State.suiteError]

@[simp] theorem State.logEvent_cells (s : State) (code addr info : Nat) (suite : Option Nat) :
    (s.logEvent code addr info suite).cells = s.cells := by rfl

@[simp] theorem State.countDev_cells (s : State) (ev unit v : Nat) : (s.countDev ev unit v).cells = s.cells := by rfl

@[simp] theorem State.voidFlits_cells (s : State) (n : Nat) : (s.voidFlits n).2.cells = s.cells := by
  induction n generalizing s with
  | zero => rfl
  | succ n ih => exact ih s.voidFlit.2

@[simp] theorem State.freeTxn_cells (s : State) (g vc : Nat) (t : Txn) : (s.freeTxn g vc t).cells = s.cells := by
  unfold State.freeTxn; split <;> rfl

@[simp] theorem State.queueTxn_cells (s : State) (g vc : Nat) (t : Txn) : (s.queueTxn g vc t).cells = s.cells := by rfl

@[simp] theorem State.placeNotice_cells (s : State) (m : W256) : (s.placeNotice m).cells = s.cells := by
  unfold State.placeNotice; dsimp only; split <;> simp

@[simp] theorem State.sendNotice_cells (s : State) (vc suite reason addr len src wseq : Nat) :
    (s.sendNotice vc suite reason addr len src wseq).cells = s.cells := by
  fun_cases State.sendNotice s vc suite reason addr len src wseq <;> simp

@[simp] theorem State.barErr_cells (s : State) (n : Nat) (genchk : Bool) (gen : W16) : (s.barErr n genchk gen).cells = s.cells := by
  fun_cases State.barErr s n genchk gen <;> simp

/-- A lost transaction is told of in the ports, the barriers and the logs (R457, R465). -/
@[simp] theorem State.txnLost_cells (s : State) (vc : Nat) (t : Txn) (reason addr len : Nat) :
    (s.txnLost vc t reason addr len).cells = s.cells := by
  unfold State.txnLost
  extract_lets told barred wseq
  have counted : told.cells = s.cells := by unfold told; split <;> simp
  have marked : barred.cells = told.cells := by unfold barred; split <;> simp
  split
  · exact counted
  · rw [State.sendNotice_cells, marked, counted]

@[simp] theorem State.decideItem_cells (s : State) (i : WriteItem) (lost : Option (Nat × Nat)) : (s.decideItem i lost).cells = s.cells := by
  unfold State.decideItem
  split
  · rfl
  · cases lost <;> dsimp only <;> split <;> simp

@[simp] theorem State.decideStrip_cells (s : State) (item : Option WriteItem) (reason : Option Nat) :
    (s.decideStrip item reason).cells = s.cells := by
  unfold State.decideStrip; split <;> simp

@[simp] theorem State.loseFlits_cells (s : State) (reason : Nat) (fs : List Flit) : (s.loseFlits reason fs).cells = s.cells :=
  foldl_keeps State.cells (fun (s : State) (f : Flit) => s.decideStrip f.strip (some reason)) (fun s _ => s.decideStrip_cells _ _) fs s

@[simp] theorem State.cellErrors_cells (s : State) (c code : Nat) (infos : List Nat) : (s.cellErrors c code infos).cells = s.cells :=
  foldl_keeps State.cells _ (fun s n => s.suiteError_cells code _ n _ _) infos s

/-! ### One cell changed -/

/-- The cells of t are those of s, but for cell c, which is y. -/
structure CellSet (s t : State) (c : Nat) (y : Cell) : Prop where
  here : t.cell c = y
  others : ∀ k, k ≠ c → t.cell k = s.cell k

theorem cellSet_refl (s : State) (c : Nat) : CellSet s s c (s.cell c) := ⟨rfl, fun _ _ => rfl⟩

theorem cellSet_setCell (s : State) (c : Nat) (y : Cell) : CellSet s (s.setCell c y) c y :=
  ⟨s.setCell_cell_same c y, fun k h => s.setCell_cell_ne c k y h⟩

theorem CellSet.trans {s t u : State} {c : Nat} {y z : Cell} (h : CellSet s t c y) (k : CellSet t u c z) : CellSet s u c z :=
  ⟨k.here, fun j hj => (k.others j hj).trans (h.others j hj)⟩

/-- What leaves the cells as they were after the change leaves the change standing. -/
theorem CellSet.of_cells {s t u : State} {c : Nat} {y : Cell} (h : CellSet s t c y) (e : u.cells = t.cells) : CellSet s u c y :=
  ⟨(State.cell_eq_of_cells e c).trans h.here, fun k hk => (State.cell_eq_of_cells e k).trans (h.others k hk)⟩

end Sys2Proof.Machine
end

section
/-!
PROOF. O11: what the start of an instruction in its engine does (R207, R246, R361, R363, R585).
-/

namespace Sys2Proof.Machine
open Sys2Proof

/-! ### The schedule of a plan -/

/-- What a plan says of the cycles: reads, writes, sends, takes, and the last cycle of a read and of any access. -/
def Plan.schedule (p : Plan) : List (Nat × List Nat) × List WriteSlot × List Nat × List Nat × Nat × Nat :=
  (p.reads, p.slots, p.sends, p.takes, p.lastRead, p.done)

/-- A vector instruction's cycles follow from its word, and whether S1 comes by CHAIN, and not from the bytes that come (R246, R250). -/
theorem vecPlan_schedule (x y : Cell) (i : Issued) (t : Nat) {ch ch' : Option (List Byte)} (same : ch.isSome = ch'.isSome) :
    (vecPlan x i t ch).schedule = (vecPlan y i t ch').schedule := by
  unfold vecPlan
  split
  · simp only [Plan.schedule, vecBlock, same]
  · simp only [Plan.schedule, vecPlain, same]

theorem redPlan_schedule (x y : Cell) (i : Issued) (t : Nat) {ch ch' : Option (List Byte)} (same : ch.isSome = ch'.isSome) :
    (redPlan x i t ch).schedule = (redPlan y i t ch').schedule := by
  simp only [Plan.schedule, redPlan, same]

theorem movePlan_schedule (i : Issued) (t part part' suite suite' : Nat) (pgen pgen' : BitVec 4) (msg : Option W256)
    {ch ch' : Option (List Byte)} (same : ch.isSome = ch'.isSome) :
    (movePlan i t part suite pgen ch msg).schedule = (movePlan i t part' suite' pgen' ch' msg).schedule := by
  simp only [Plan.schedule, movePlan, same, apply_ite Plan.reads, apply_ite Plan.slots, apply_ite Plan.sends, apply_ite Plan.takes,
    apply_ite Plan.lastRead, apply_ite Plan.done]

/-- The cycles of an instruction in flight follow from the instruction, its engine, its start and its message alone. -/
theorem planOf_schedule (x y : Cell) (part part' : Nat) {f g : InFlight} (instr : g.instr = f.instr) (engine : g.engine = f.engine)
    (start : g.start = f.start) (msg : g.msg = f.msg) : (planOf x part f).schedule = (planOf y part' g).schedule := by
  have same : (chainedBytes x f).isSome = (chainedBytes y g).isSome := by simp [chainedBytes, instr]
  unfold planOf
  rw [engine, instr, start, msg]
  cases f.engine
  case matrix => rfl
  case vector => exact vecPlan_schedule x y _ _ same
  case reduction => exact redPlan_schedule x y _ _ same
  case moveSend => exact movePlan_schedule _ _ _ _ _ _ _ _ _ same
  case counter => rfl

/-! ### Strips that a RECV takes in the cycle of its start (R361, R368) -/

theorem mem_insFlight {f g : InFlight} {l : List InFlight} (h : g ∈ insFlight f l) : g = f ∨ g ∈ l := by
  induction l with
  | nil => simpa [insFlight] using h
  | cons a r ih =>
    unfold insFlight at h
    split at h
    · exact List.mem_cons.mp h
    · obtain rfl | later := List.mem_cons.mp h
      · exact .inr List.mem_cons_self
      · exact (ih later).imp_right (List.mem_cons_of_mem a)

/-- The instructions in issue order are those in flight. -/
theorem Engines.mem_inOrder {e : Engines} {g : InFlight} (h : g ∈ e.inOrder) : g ∈ e.inflight := by
  have gen : ∀ (l acc : List InFlight), g ∈ l.foldl (fun l f => insFlight f l) acc → g ∈ l ∨ g ∈ acc := by
    intro l
    induction l with
    | nil => exact fun acc h => .inr h
    | cons a l ih =>
      intro acc h
      obtain h | h := ih _ h
      · exact .inl (List.mem_cons_of_mem a h)
      · obtain rfl | h := mem_insFlight h
        · exact .inl List.mem_cons_self
        · exact .inr h
  simpa using gen e.inflight [] h

/-- An instruction in flight with what it has taken from its channel. -/
def InFlight.given (f : InFlight) (got : SMap (List Byte)) (voids : List Nat) : InFlight := { f with got := got, voids := voids }

/-- A cell with other instructions in flight. -/
def Cell.withFlights (x : Cell) (l : List InFlight) : Cell := { x with eng := { x.eng with inflight := l } }

/-- From s to t cell c has only taken strips from its channels, for f, the last of its instructions in flight. -/
def Took (c : Nat) (old : List InFlight) (f : InFlight) (s t : State) : Prop :=
  ∃ trk got voids, CellSet s t c ({ s.cell c with trk := trk }.withFlights (old ++ [f.given got voids]))

theorem took_refl {c : Nat} {old : List InFlight} {f : InFlight} {s : State} (flights : (s.cell c).eng.inflight = old ++ [f]) :
    Took c old f s s := by
  refine ⟨(s.cell c).trk, f.got, f.voids, ?_, fun _ _ => rfl⟩
  rw [show f.given f.got f.voids = f from rfl, ← flights]
  rfl

/-- A strip that leaves a channel changes the cell's tracks only, and the logs where flits are missing (R368). -/
theorem takeStrip_cellSet (s : State) (c ch : Nat) : ∃ trk, CellSet s (s.takeStrip c ch).2.2 c { s.cell c with trk := trk } := by
  unfold State.takeStrip
  extract_lets x l bad got short trk s1 s2
  have told : s2.cells = s1.cells := by unfold s2; split <;> simp
  exact ⟨_, (cellSet_setCell s c _).of_cells ((State.voidFlits_cells s2 short).trans told)⟩

theorem Took.strip {c : Nat} {old : List InFlight} {f : InFlight} {s t : State} (h : Took c old f s t) (ch : Nat) :
    Took c old f s (t.takeStrip c ch).2.2 := by
  obtain ⟨trk, got, voids, taken⟩ := h
  obtain ⟨trk', strip⟩ := takeStrip_cellSet t c ch
  rw [taken.here] at strip
  exact ⟨trk', got, voids, taken.trans strip⟩

/-- An update of the cell that gives f something more. -/
theorem Took.update {c : Nat} {old : List InFlight} {f : InFlight} {s t : State} (h : Took c old f s t) {upd : Cell → Cell}
    (gives : ∀ (x : Cell) (g : InFlight), x.eng.inflight = old ++ [g] → g.instr = f.instr →
      ∃ got voids, upd x = x.withFlights (old ++ [g.given got voids])) : Took c old f s (t.updCell c upd) := by
  obtain ⟨trk, got, voids, taken⟩ := h
  obtain ⟨got', voids', given⟩ := gives (t.cell c) (f.given got voids) (by rw [taken.here]; rfl) rfl
  refine ⟨trk, got', voids', taken.trans ⟨?_, fun k other => t.updCell_cell_ne c k upd other⟩⟩
  rw [State.updCell_cell_same, given, taken.here]
  rfl

/-- An instruction's number finds it where no other in flight has that number. -/
theorem find_last_flight {old : List InFlight} {g : InFlight} {n : Nat} (others : ∀ e ∈ old, e.instr.seqNo ≠ n) (same : g.instr.seqNo = n) :
    (old ++ [g]).find? (fun e => e.instr.seqNo == n) = some g := by
  rw [List.find?_append, List.find?_eq_none.mpr (fun e he => by simpa using others e he)]
  simp [same]

theorem setFlight_last {x : Cell} {old : List InFlight} {g : InFlight} (flights : x.eng.inflight = old ++ [g])
    (others : ∀ e ∈ old, e.instr.seqNo ≠ g.instr.seqNo) (got : SMap (List Byte)) (voids : List Nat) :
    x.setFlight (g.given got voids) = x.withFlights (old ++ [g.given got voids]) := by
  have kept : old.map (fun e => if e.instr.seqNo = (g.given got voids).instr.seqNo then g.given got voids else e) = old :=
    (List.map_congr_left (fun e he => if_neg (others e he))).trans (List.map_id' old)
  unfold Cell.setFlight Cell.withFlights
  rw [flights, List.map_append, kept]
  simp [InFlight.given]

/-- In the cycle of its start an instruction takes the strips that are due then; no other in flight takes one (R361, R368). -/
theorem takeDue_took {s : State} {c : Nat} {old : List InFlight} {f : InFlight} (flights : (s.cell c).eng.inflight = old ++ [f])
    (others : ∀ g ∈ old, g.instr.seqNo ≠ f.instr.seqNo ∧ g.takes.contains (s.cell c).seq.cyc = false) : Took c old f s (s.takeDue c) := by
  unfold State.takeDue
  extract_lets t
  refine List.foldlRecOn _ _ (took_refl flights) (fun s1 took g hg => ?_)
  have inFlight := Engines.mem_inOrder hg
  rw [flights] at inFlight
  obtain earlier | new := List.mem_append.mp inFlight
  · have takesNone : (!g.takes.contains t) = true := by rw [(others g earlier).2]; rfl
    rwa [if_pos (.inl takesNone)]
  · obtain rfl := List.mem_singleton.mp new
    split
    · exact took
    · refine List.foldlRecOn _ _ took (fun s2 took e _ => (took.strip _).update (fun x k held same => ?_))
      have numbered : k.instr.seqNo = g.instr.seqNo := by rw [same]
      have distinct : ∀ e ∈ old, e.instr.seqNo ≠ g.instr.seqNo := fun e he => (others e he).1
      rw [held, find_last_flight distinct numbered]
      exact ⟨_, _, setFlight_last held (fun e he => numbered ▸ distinct e he) _ _⟩

/-! ### An instruction begins (R250, R361) -/

/-- An instruction in flight with its plan made. -/
def planned (x : Cell) (part : Nat) (f : InFlight) : InFlight :=
  let p := planOf x part f
  { f with lastRead := p.lastRead, done := p.done, reads := p.reads, slots := p.slots, sends := p.sends, takes := p.takes }

/-- Engines in which f has left its queue and is in flight, with the chain paths given. -/
def Engines.launch (e : Engines) (f : InFlight) (mv vr : List (Nat × Nat × Option (List Byte))) : Engines :=
  { e.setQueue f.engine ((e.queue f.engine).drop 1) with inflight := e.inflight ++ [f], chainMV := mv, chainVR := vr }

theorem Engines.queue_setQueue (e : Engines) (k g : Engine) (l : List Issued) :
    (e.setQueue k l).queue g = if g = k then l else e.queue g := by
  cases k <;> cases g <;> rfl

theorem Engines.setQueue_paths (e : Engines) (k : Engine) (l : List Issued) :
    (e.setQueue k l).chainMV = e.chainMV ∧ (e.setQueue k l).chainVR = e.chainVR := by
  cases k <;> exact ⟨rfl, rfl⟩

theorem Engines.launch_queue (e : Engines) (f : InFlight) (mv vr : List (Nat × Nat × Option (List Byte))) (g : Engine) :
    (e.launch f mv vr).queue g = if g = f.engine then (e.queue f.engine).drop 1 else e.queue g := by
  rw [← Engines.queue_setQueue]
  cases g <;> rfl

/-- An instruction whose chained strips are all promised is not starved (R91, R250). -/
theorem feedEnds_of_fed {x : Cell} {f : InFlight} (fed : ∀ p, f.instr.chainedIn = some p → chainNeed f ≤ (chainOf (x.eng.pathTo f.engine) p).length) :
    x.feedEnds f = x := by
  unfold Cell.feedEnds
  split
  · rfl
  · rename_i p hp
    exact if_pos (fed p hp)

theorem chainOf_length_append (path more : List (Nat × Nat × Option (List Byte))) (p : Nat) :
    (chainOf path p).length ≤ (chainOf (path ++ more) p).length := by
  simp [chainOf]

/-- What the start of an instruction adds to the chain paths promises no one fewer strips. -/
theorem chainOf_launch_length (e : Engines) (f : InFlight) (k : Engine) (mv vr : List (Nat × Nat × Option (List Byte))) (p : Nat) :
    (chainOf (e.pathTo k) p).length ≤ (chainOf ((e.launch f (e.chainMV ++ mv) (e.chainVR ++ vr)).pathTo k) p).length := by
  unfold Engines.pathTo
  split
  · exact chainOf_length_append e.chainMV mv p
  · exact chainOf_length_append e.chainVR vr p

/-- A cell that counts events, or none, differs in its counters only. -/
theorem count_or_not (x : Cell) (p : Prop) [Decidable p] (ev v : Nat) : ∃ ctrs, (if p then x else x.count ev v) = { x with ctrs := ctrs } := by
  split
  · exact ⟨x.ctrs, rfl⟩
  · exact ⟨_, rfl⟩

/-- The instruction f of cell c can go into flight: no other in flight has its number or takes a strip in the present cycle, and its chained
strips are promised (R250, R361). -/
structure CanBegin (x : Cell) (f : InFlight) : Prop where
  others : ∀ g ∈ x.eng.inflight, g.instr.seqNo ≠ f.instr.seqNo ∧ g.takes.contains x.seq.cyc = false
  fed : ∀ p, f.instr.chainedIn = some p → chainNeed f ≤ (chainOf (x.eng.pathTo f.engine) p).length

/-- What the begin of an instruction changes in its cell: it leaves its queue and is in flight with its plan, and strips are promised on the
chain paths, taken from the channels, and events counted (R250, R361). -/
theorem begin_cellSet {s : State} {c : Nat} {f : InFlight} (h : CanBegin (s.cell c) f) :
    ∃ trk ctrs mv vr got voids, CellSet s (s.begin c f) c { s.cell c with
      trk := trk, ctrs := ctrs, eng := (s.cell c).eng.launch ((planned (s.cell c) s.part.toNat f).given got voids) mv vr } := by
  unfold State.begin
  extract_lets x p f' strips queued e0 e x' merges
  have launched : ∃ mv vr, e = x.eng.launch f' (x.eng.chainMV ++ mv) (x.eng.chainVR ++ vr) := by
    obtain ⟨mv, vr⟩ := Engines.setQueue_paths x.eng f'.engine ((x.eng.queue f'.engine).drop 1)
    unfold e
    split
    · exact ⟨strips, [], by rw [List.append_nil, ← mv, ← vr]; rfl⟩
    · exact ⟨[], strips, by rw [List.append_nil, ← mv, ← vr]; rfl⟩
  obtain ⟨mv, vr, launched⟩ := launched
  have fed : x' = { x with eng := e } := by
    refine feedEnds_of_fed (fun p chained => Nat.le_trans (h.fed p chained) ?_)
    rw [launched]
    exact chainOf_launch_length x.eng f' f.engine mv vr p
  obtain ⟨ctrs, counted⟩ := count_or_not x' (merges = 0) 0x031 merges
  rw [counted, fed, launched]
  have set := cellSet_setCell s c { x with ctrs := ctrs, eng := x.eng.launch f' (x.eng.chainMV ++ mv) (x.eng.chainVR ++ vr) }
  have took := takeDue_took (c := c) (old := x.eng.inflight) (f := f') (s := s.setCell c _) (by rw [set.here]; rfl)
    (by rw [set.here]; exact h.others)
  obtain ⟨trk, got, voids, taken⟩ := took
  rw [set.here] at taken
  exact ⟨trk, ctrs, _, _, got, voids, set.trans taken⟩

/-! ### A started instruction -/

/-- From s to u the head of engine e's queue in cell c has gone into flight: the instruction i, with r behind it, from the present cycle on with
the schedule that its unit's rules give it; scratchpad, tags, sequencer and the other cells stand. -/
def Started (c : Nat) (e : Engine) (i : Issued) (r : List Issued) (s u : State) : Prop :=
  let x := s.cell c
  let t := x.seq.cyc
  (u.cell c).eng.queue e = r ∧
    (∀ g, g ≠ e → (u.cell c).eng.queue g = x.eng.queue g) ∧
    (∃ f, (u.cell c).eng.inflight = x.eng.inflight ++ [f] ∧ f.instr = i ∧ f.engine = e ∧ f.start = t ∧ f.cut = none ∧
      let p := planOf x s.part.toNat f
      f.reads = p.reads ∧ f.slots = p.slots ∧ f.sends = p.sends ∧ f.takes = p.takes ∧ f.lastRead = p.lastRead ∧ f.done = p.done) ∧
    (u.cell c).mem = x.mem ∧ (u.cell c).check = x.check ∧ (u.cell c).tags = x.tags ∧ (u.cell c).seq = x.seq ∧
    (∀ k, k ≠ c → u.cell k = s.cell k)

/-- The cell y is x but for what a start changes before its instruction begins: matrix marks, the cycle from which a unit is free, counters,
message queues and a parity fault noted (R207, R246, R363, R390, R585). -/
structure Primed (x y : Cell) : Prop where
  queues : y.eng.queue = x.eng.queue
  inflight : y.eng.inflight = x.eng.inflight
  paths : y.eng.pathTo = x.eng.pathTo
  mem : y.mem = x.mem
  check : y.check = x.check
  tags : y.tags = x.tags
  seq : y.seq = x.seq

/-- What stands of the cell y once its instruction has begun: the matrix engine, and the cycles from which the units are free. -/
structure Keeps (y z : Cell) : Prop where
  mat : z.mat = y.mat
  vectorFree : z.eng.vectorFree = y.eng.vectorFree
  reductionFree : z.eng.reductionFree = y.eng.reductionFree
  moveFree : z.eng.moveFree = y.eng.moveFree
  counterFree : z.eng.counterFree = y.eng.counterFree

theorem keeps_launch (e : Engines) (f : InFlight) (mv vr : List (Nat × Nat × Option (List Byte))) :
    (e.launch f mv vr).vectorFree = e.vectorFree ∧ (e.launch f mv vr).reductionFree = e.reductionFree ∧
      (e.launch f mv vr).moveFree = e.moveFree ∧ (e.launch f mv vr).counterFree = e.counterFree := by
  unfold Engines.launch
  cases f.engine <;> exact ⟨rfl, rfl, rfl, rfl⟩

/-- The begin of an instruction in a primed cell starts it. -/
theorem begin_started {s s' : State} {c : Nat} {y : Cell} {f : InFlight} {r : List Issued} (set : CellSet s s' c y) (primed : Primed (s.cell c) y)
    (can : CanBegin (s.cell c) f) (head : (s.cell c).eng.queue f.engine = f.instr :: r) (now : f.start = (s.cell c).seq.cyc) (whole : f.cut = none) :
    Started c f.engine f.instr r s (s'.begin c f) ∧ Keeps y ((s'.begin c f).cell c) := by
  have can' : CanBegin (s'.cell c) f := by
    rw [set.here]
    exact ⟨by rw [primed.inflight, primed.seq]; exact can.others, by rw [primed.paths]; exact can.fed⟩
  obtain ⟨trk, ctrs, mv, vr, got, voids, begun⟩ := begin_cellSet can'
  have all := set.trans begun
  have schedule := planOf_schedule (s'.cell c) (s.cell c) s'.part.toNat s.part.toNat (f := f)
    (g := (planned (s'.cell c) s'.part.toNat f).given got voids) rfl rfl rfl rfl
  simp only [Plan.schedule, Prod.mk.injEq] at schedule
  obtain ⟨reads, slots, sends, takes, lastRead, done⟩ := schedule
  rw [set.here] at all reads slots sends takes lastRead done
  obtain ⟨vf, rf, mf, cf⟩ := keeps_launch y.eng ((planned y s'.part.toNat f).given got voids) mv vr
  refine ⟨⟨?_, ?_, ⟨(planned y s'.part.toNat f).given got voids, ?_, rfl, rfl, now, whole, reads, slots, sends, takes, lastRead, done⟩,
    ?_, ?_, ?_, ?_, all.others⟩, ?_⟩ <;> rw [all.here]
  · refine (Engines.launch_queue _ _ _ _ _).trans ?_
    rw [primed.queues]
    exact (if_pos rfl).trans (congrArg (List.drop 1) head)
  · intro g other
    refine (Engines.launch_queue _ _ _ _ _).trans ?_
    rw [primed.queues]
    exact if_neg other
  · exact congrArg (· ++ _) primed.inflight
  · exact primed.mem
  · exact primed.check
  · exact primed.tags
  · exact primed.seq
  · exact ⟨rfl, vf, rf, mf, cf⟩

/-! ### The five units -/

/-- A unit and the chained strips of its oldest instruction let it start in the present cycle (R246, R250, R363). -/
def mayStartNow (x : Cell) (e : Engine) (free : Nat) (i : Issued) : Prop :=
  (∃ k, chainStart x e i = some k ∧ max (max (i.cycle + 1) free) (max (ownWrites x e i) k) ≤ x.seq.cyc) ∧
    ∀ p, i.chainedIn = some p → chainNeed (flightOf i e x.seq.cyc) ≤ (chainOf (x.eng.pathTo e) p).length

section starts

variable {s : State} {c : Nat} {i : Issued} {r : List Issued}

theorem startAt_now {u : Suite} {e : Engine} {free : Nat} (run : s.runningSuite (s.cell c) = some u) (clocked : (s.cell c).clocked = true)
    (may : mayStartNow (s.cell c) e free i) : s.startAt c e i free = some s := by
  obtain ⟨⟨k, first, due⟩, -⟩ := may
  simp only [State.startAt, first]
  exact s.waitCycle_of_le c _ u run clocked due

/-- No other instruction in flight has this one's number, or takes a strip in the present cycle. -/
abbrev Alone (x : Cell) (i : Issued) : Prop := ∀ g ∈ x.eng.inflight, g.instr.seqNo ≠ i.seqNo ∧ g.takes.contains x.seq.cyc = false

theorem startMatrix_starts {u : Suite} (run : s.runningSuite (s.cell c) = some u) (clocked : (s.cell c).clocked = true) (alone : Alone (s.cell c) i)
    (queue : (s.cell c).eng.matrixQ = i :: r) (due : max (i.cycle + 1) (matStart (s.cell c).mat i) ≤ (s.cell c).seq.cyc) :
    Started c .matrix i r s (startMatrix c s) ∧ ((startMatrix c s).cell c).mat =
      matTimes { (s.cell c).mat with started := trackMatrix (s.cell c).mat.started i.word i.n } i (s.cell c).seq.cyc := by
  unfold startMatrix
  extract_lets x0
  rw [show x0.eng.matrixQ = i :: r from queue]
  dsimp -zeta only
  rw [s.waitCycle_of_le c _ u run clocked due]
  dsimp -zeta only
  extract_lets t op m0 m x x'
  obtain ⟨ctrs, counted⟩ : ∃ ctrs, x' = { x with ctrs := ctrs } := by
    unfold x'
    repeat' split
    all_goals exact ⟨_, rfl⟩
  have primed : Primed x0 x' := by rw [counted]; exact ⟨rfl, rfl, rfl, rfl, rfl, rfl, rfl⟩
  refine And.imp_right (fun keeps => keeps.mat.trans ?_)
    (begin_started (cellSet_setCell s c x') primed ⟨alone, fun _ _ => Nat.zero_le _⟩ queue rfl rfl)
  rw [counted]

theorem startVector_starts {u : Suite} (run : s.runningSuite (s.cell c) = some u) (clocked : (s.cell c).clocked = true) (alone : Alone (s.cell c) i)
    (queue : (s.cell c).eng.vectorQ = i :: r) (may : mayStartNow (s.cell c) .vector (s.cell c).eng.vectorFree i) :
    Started c .vector i r s (startVector c s) ∧ ((startVector c s).cell c).mat = (s.cell c).mat ∧
      ((startVector c s).cell c).eng.vectorFree = (s.cell c).seq.cyc + cdiv i.n (vecStep i.word) * vecPace (wOp i.word) := by
  unfold startVector
  extract_lets x0
  rw [show x0.eng.vectorQ = i :: r from queue]
  dsimp -zeta only
  rw [startAt_now run clocked may]
  dsimp -zeta only
  extract_lets t op steps e x x1 x2
  obtain ⟨ctrs, counted⟩ : ∃ ctrs, x2 = { x with ctrs := ctrs } := by
    unfold x2
    repeat' split
    all_goals exact ⟨_, rfl⟩
  have primed : Primed x0 x2 := by rw [counted]; exact ⟨rfl, rfl, rfl, rfl, rfl, rfl, rfl⟩
  refine And.imp_right (fun keeps => ⟨keeps.mat.trans ?_, keeps.vectorFree.trans ?_⟩)
    (begin_started (cellSet_setCell s c x2) primed ⟨alone, may.2⟩ queue rfl rfl) <;> rw [counted]

theorem startReduction_starts {u : Suite} (run : s.runningSuite (s.cell c) = some u) (clocked : (s.cell c).clocked = true)
    (alone : Alone (s.cell c) i) (queue : (s.cell c).eng.reductionQ = i :: r)
    (may : mayStartNow (s.cell c) .reduction (s.cell c).eng.reductionFree i) :
    Started c .reduction i r s (startReduction c s) ∧ ((startReduction c s).cell c).mat = (s.cell c).mat ∧
      ((startReduction c s).cell c).eng.reductionFree = (s.cell c).seq.cyc + redSteps i.word i.n := by
  unfold startReduction
  extract_lets x0
  rw [show x0.eng.reductionQ = i :: r from queue]
  dsimp -zeta only
  rw [startAt_now run clocked may]
  dsimp -zeta only
  extract_lets steps e x
  have primed : Primed x0 (x.countFor 0x029 1 steps) := ⟨rfl, rfl, rfl, rfl, rfl, rfl, rfl⟩
  exact And.imp_right (fun keeps => ⟨keeps.mat, keeps.reductionFree⟩)
    (begin_started (cellSet_setCell s c _) primed ⟨alone, may.2⟩ queue rfl rfl)

theorem startCounter_starts {u : Suite} (run : s.runningSuite (s.cell c) = some u) (clocked : (s.cell c).clocked = true)
    (alone : Alone (s.cell c) i) (queue : (s.cell c).eng.counterQ = i :: r)
    (may : mayStartNow (s.cell c) .counter (s.cell c).eng.counterFree i) :
    Started c .counter i r s (startCounter c s) ∧ ((startCounter c s).cell c).mat = (s.cell c).mat ∧
      ((startCounter c s).cell c).eng.counterFree = (s.cell c).seq.cyc + 1 := by
  unfold startCounter
  extract_lets x0
  rw [show x0.eng.counterQ = i :: r from queue]
  dsimp -zeta only
  rw [startAt_now run clocked may]
  dsimp -zeta only
  extract_lets user e x ctrs0 x1
  obtain ⟨ctrs, counted⟩ : ∃ ctrs, x1 = { x with ctrs := ctrs } := by
    unfold x1
    repeat' split
    all_goals exact ⟨_, rfl⟩
  have primed : Primed x0 x1 := by rw [counted]; exact ⟨rfl, rfl, rfl, rfl, rfl, rfl, rfl⟩
  refine And.imp_right (fun keeps => ⟨keeps.mat.trans ?_, keeps.counterFree.trans ?_⟩)
    (begin_started (cellSet_setCell s c x1) primed ⟨alone, may.2⟩ queue rfl rfl) <;> rw [counted]

/-- A message popped changes the cell's message queues only, and the logs where its slot holds none (R390–R394). -/
theorem popHead_cellSet (s : State) (c q : Nat) : ∃ que, CellSet s (s.popHead c q).2 c { s.cell c with que := que } := by
  unfold State.popHead
  extract_lets x v keep v' s1
  generalize (if v.fresh.1 = x.obs.wall then v.fresh.2 else 0) = arrivedNow
  split
  · exact ⟨x.que, cellSet_refl s c⟩
  · have popped : CellSet s s1 c { s.cell c with que := x.que.setLive q v' } := cellSet_setCell s c _
    split
    · exact ⟨_, popped⟩
    · exact ⟨_, popped.of_cells (State.suiteError_cells _ _ _ _ _ _)⟩

/-- QPOP changes the cell's message queues, or notes a parity fault of the queue's descriptor (R92, R390). -/
theorem qpop_cellSet (s : State) (c q : Nat) :
    ∃ que parity, CellSet s (s.qpop c q).2 c { s.cell c with que := que, parity := parity } := by
  unfold State.qpop
  extract_lets x
  split
  · rename_i off _
    refine ⟨x.que, if x.parity.isSome then x.parity else some (3, off), ?_, fun k other => State.updCell_cell_ne s c k _ other⟩
    rw [State.parityFault, State.updCell_cell_same]
    split <;> rfl
  · split
    · exact ⟨x.que, x.parity, (cellSet_refl s c).of_cells (State.suiteError_cells _ _ _ _ _ _)⟩
    · obtain ⟨que, popped⟩ := popHead_cellSet s c q
      exact ⟨que, x.parity, popped⟩

/-- The opcodes of the move/send unit that need no room in a buffer (R361, R377): MOVE, SEND, RECV, LSEND, QPOP and HTAKE. -/
def roomless : List Nat := [0x90, 0x91, 0x92, 0x93, 0x99, 0x9A]

theorem mustWait_of_roomless (s : State) (c : Nat) {i : Issued} (bs : List Byte) (op : wOp i.word ∈ roomless) : mustWait s c i bs = false := by
  have other : wOp i.word ≠ 0x98 ∧ wOp i.word ≠ 0x9C ∧ wOp i.word ≠ 0x9D := by
    simp only [roomless, List.mem_cons, List.not_mem_nil, or_false] at op
    omega
  simp [mustWait, other]

theorem zctlEffect_of_roomless (s : State) (c : Nat) {i : Issued} (op : wOp i.word ∈ roomless) : s.zctlEffect c i = s := by
  have other : wOp i.word ≠ 0x9D := by
    simp only [roomless, List.mem_cons, List.not_mem_nil, or_false] at op
    omega
  simp [State.zctlEffect, other]

theorem startMove_starts {u : Suite} (run : s.runningSuite (s.cell c) = some u) (clocked : (s.cell c).clocked = true)
    (alone : Alone (s.cell c) i) (queue : (s.cell c).eng.moveQ = i :: r) (room : wOp i.word ∈ roomless)
    (may : mayStartNow (s.cell c) .moveSend (s.cell c).eng.moveFree i) :
    Started c .moveSend i r s (startMove c s) ∧ ((startMove c s).cell c).mat = (s.cell c).mat ∧
      ((startMove c s).cell c).eng.moveFree = (s.cell c).seq.cyc + moveOcc i.word i.n i.chainedIn.isSome := by
  unfold startMove
  extract_lets x0
  rw [show x0.eng.moveQ = i :: r from queue]
  dsimp -zeta only
  rw [startAt_now run clocked may]
  dsimp -zeta only
  extract_lets op t f here fed bs e s2
  rw [mustWait_of_roomless s c _ room, if_neg Bool.false_ne_true]
  have read : ∃ que parity, CellSet s2 (if op = 0x99 then s2.qpop c (wE i.word 0 8) else if op = 0x9A then (some x0.seq.hmsg, s2) else (none, s2)).2 c
      { s2.cell c with que := que, parity := parity } := by
    split
    · exact qpop_cellSet s2 c _
    · split <;> exact ⟨_, _, cellSet_refl s2 c⟩
  generalize (if op = 0x99 then s2.qpop c (wE i.word 0 8) else if op = 0x9A then (some x0.seq.hmsg, s2) else (none, s2)) = message at read ⊢
  obtain ⟨que, parity, popped⟩ := read
  rw [zctlEffect_of_roomless _ c room]
  have occupied : s2.cell c = { x0 with eng := { x0.eng with moveFree := t + moveOcc i.word i.n i.chainedIn.isSome } } := s.setCell_cell_same c _
  rw [occupied] at popped
  exact And.imp_right (fun keeps => ⟨keeps.mat, keeps.moveFree⟩)
    (begin_started ((cellSet_setCell s c _).trans popped) ⟨rfl, rfl, rfl, rfl, rfl, rfl, rfl⟩ ⟨alone, may.2⟩ queue rfl rfl)

end starts

/-- Settles O11: each unit's start finds the oldest instruction of its queue ready and begins it (`begin_started`). -/
theorem enginesStartTheHeadOfTheirQueue : Obligations.EnginesStartTheHeadOfTheirQueue := by
  intro c s i r x t now started running clocked alone
  obtain ⟨u, run⟩ := Option.isSome_iff_exists.mp running
  refine ⟨fun queue due => ?_, fun queue may => ?_, fun queue may => ?_, fun queue room may => ?_, fun queue may => ?_⟩
  · exact ⟨_, rfl, startMatrix_starts run clocked alone queue due⟩
  · exact ⟨_, rfl, startVector_starts run clocked alone queue may⟩
  · exact ⟨_, rfl, startReduction_starts run clocked alone queue may⟩
  · exact ⟨_, rfl, startMove_starts run clocked alone queue room may⟩
  · exact ⟨_, rfl, startCounter_starts run clocked alone queue may⟩

end Sys2Proof.Machine
end

section
/-!
PROOF. O35: what a cell is after its commit (R193, R304, R305).
-/

namespace Sys2Proof.Machine
open Sys2Proof

/-! ### The panes' tags at commit (R305) -/

/-- The indices of a sorted collection rise. -/
theorem pairwise_of_sorted {V : Type} {m : SMap V} (rising : sorted m = true) : m.Pairwise (fun a b => a.1 < b.1) := by
  induction m with
  | nil => exact .nil
  | cons a r ih =>
    cases r with
    | nil => exact List.pairwise_singleton _ a
    | cons b r =>
      simp only [sorted, Bool.and_eq_true, decide_eq_true_eq] at rising
      obtain ⟨first, rest⟩ := rising
      have tail := ih rest
      refine .cons (fun e he => ?_) tail
      obtain rfl | later := List.mem_cons.mp he
      · exact first
      · exact Nat.lt_trans first ((List.pairwise_cons.mp tail).1 e later)

/-- An entry of a sorted collection is what its index reads. -/
theorem sget_of_mem {V : Type} (d : V) {m : SMap V} {k : Nat} {v : V} (rising : m.Pairwise (fun a b => a.1 < b.1)) (here : (k, v) ∈ m) :
    sget d m k = v := by
  induction m with
  | nil => cases here
  | cons a r ih =>
    obtain ⟨above, rising⟩ := List.pairwise_cons.mp rising
    obtain rfl | later := List.mem_cons.mp here
    · simp [sget]
    · have lt : a.1 < k := above _ later
      have ne : a.1 ≠ k := by omega
      simpa [sget, ne] using ih rising later

/-- An index that reads other than the default is listed. -/
theorem mem_of_sget_ne {V : Type} {d : V} {m : SMap V} {k : Nat} (listed : sget d m k ≠ d) : (k, sget d m k) ∈ m := by
  induction m with
  | nil => exact absurd rfl listed
  | cons a r ih =>
    obtain ⟨i, v⟩ := a
    by_cases same : i = k
    · simp [sget, same]
    · simp only [sget, same, if_false] at listed ⊢
      exact List.mem_cons_of_mem _ (ih listed)

/-- A read of the entries whose index a test admits. -/
theorem sget_filter_index {V : Type} (d : V) (p : Nat → Bool) (m : SMap V) (k : Nat) :
    sget d (m.filter (fun e => p e.1)) k = if p k then sget d m k else d := by
  induction m with
  | nil => simp [sget]
  | cons a r ih =>
    obtain ⟨i, v⟩ := a
    by_cases same : i = k
    · subst same
      by_cases admitted : p i = true
      · simp [sget, admitted]
      · simpa [sget, admitted] using ih
    · by_cases admitted : p i = true <;> simp [sget, admitted, same, ih]

/-- The indices of the PROVISIONAL panes. -/
def provisionalPanes (tags : SMap Tag) : List Nat := (tags.filter (fun e => e.2 == .provisional)).map (fun e => e.1)

theorem mem_provisionalPanes {tags : SMap Tag} (rising : sorted tags = true) (g : Nat) :
    g ∈ provisionalPanes tags ↔ sget .empty tags g = .provisional := by
  constructor
  · intro listed
    obtain ⟨⟨k, v⟩, entry, rfl⟩ := List.mem_map.mp listed
    obtain ⟨entry, prov⟩ := List.mem_filter.mp entry
    rw [sget_of_mem .empty (pairwise_of_sorted rising) entry]
    exact eq_of_beq prov
  · intro prov
    have entry : (g, sget .empty tags g) ∈ tags := mem_of_sget_ne (by simp [prov])
    rw [prov] at entry
    exact List.mem_map.mpr ⟨_, List.mem_filter.mpr ⟨entry, rfl⟩, rfl⟩

/-- Without its PROVISIONAL entries a tag store reads EMPTY where it read PROVISIONAL, and as before elsewhere (R305). -/
theorem sget_without_provisional {tags : SMap Tag} (rising : sorted tags = true) (g : Nat) :
    sget .empty (tags.filter (fun e => !(provisionalPanes tags).contains e.1)) g =
      if sget .empty tags g = .provisional then .empty else sget .empty tags g := by
  refine (sget_filter_index .empty (fun k => !(provisionalPanes tags).contains k) tags g).trans ?_
  by_cases prov : sget .empty tags g = .provisional
  · simp [prov, (mem_provisionalPanes rising g).mpr prov]
  · simp [prov, mt (mem_provisionalPanes rising g).mp prov]

/-! ### The committed cell -/

/-- A LOADING cell as its commit reads it: the queue descriptors of the last commit gone, those of the store are read (R385, R386). -/
def freshDescriptors (x : Cell) : Cell := { x with cfg := { x.cfg with qdescs := [] } }

/-- The cell that a commit makes of a LOADING cell, the section's compiled duration being d (R305). -/
def committed (x : Cell) (d : Nat) : Cell :=
  let y := freshDescriptors x
  commitCell y d (loadZones y).1 (loadQueues y).1 (keepQueues y (loadQueues y).1).1

theorem committed_zones (x : Cell) (d : Nat) : (committed x d).zones = (loadZones x).1 := by rfl

theorem committed_tag (x : Cell) (d : Nat) (rising : sorted x.tags = true) (g : Nat) :
    (committed x d).tag g = if x.tag g = .provisional then .empty else x.tag g :=
  sget_without_provisional rising g

/-- The message store keeps its bytes as the queues of a new configuration are set up (R386). -/
theorem keepQueues_storeA (x : Cell) (rings : SMap (Nat × Nat)) : (keepQueues x rings).1.storeA = x.que.storeA := by
  unfold keepQueues
  refine foldl_keeps (fun a : Queues × List Nat => a.1.storeA) _ ?_ _ _
  intro _ _
  rfl

theorem committed_storeA (x : Cell) (d : Nat) : (committed x d).que.storeA = x.que.storeA :=
  keepQueues_storeA (freshDescriptors x) _

/-- A cell of a RUNNING suite is of that suite. -/
theorem State.cellSuite_of_running {s : State} {x : Cell} {u : Suite} (h : s.runningSuite x = some u) :
    ∃ i, cellSuite x = some i ∧ s.suite i = u := by
  unfold State.runningSuite at h
  split at h
  · rename_i i hi
    simp only [Option.ite_none_right_eq_some, Option.some.injEq] at h
    exact ⟨i, hi, h.2⟩
  · cases h

/-- A cell whose block, panes and engines are ready, its 4 cycles past, is committed, in a suite without a recovery (R304). -/
theorem execConfigCommit_commits {c : CellId} {s : State} {u : Suite} (loading : (s.cell c).state = .loading) (block : (s.cell c).cfg.groups = 130)
    (treated : (s.cell c).cfg.clearPos = 128) (idle : enginesIdle (s.cell c) = true) (good : (s.cell c).cfg.blockErr = false)
    (run : s.runningSuite (s.cell c) = some u) (past : (s.cell c).cfg.readyAt + 4 * cycleLen u.freq.current ≤ s.now) (calm : u.recov.active = false) :
    ∃ t d, execConfigCommit c s = .next t ∧ CellSet s t c (committed (s.cell c) d) := by
  obtain ⟨i, suite, -⟩ := State.cellSuite_of_running run
  have ready : ¬((s.cell c).state ≠ .loading ∨ (s.cell c).cfg.groups ≠ 130 ∨ (s.cell c).cfg.blockErr = true ∨ (s.cell c).cfg.clearPos ≠ 128 ∨
      (!enginesIdle (s.cell c)) = true) := by simp [loading, block, treated, idle, good]
  have now := s.waitUntil_of_le _ past
  unfold execConfigCommit
  extract_lets _
  rw [if_neg ready, run, suite]
  dsimp -zeta only
  rw [now, if_neg (not_not_intro loading)]
  extract_lets y cfg z gone d lost s1 s2
  have same : y = s.cell c := by simp [y, calm]
  clear_value y
  subst same
  refine ⟨_, d, rfl, ?_⟩
  have lossless : s1.cells = s.cells := by rw [State.loseFlits_cells, State.updSuite_cells]
  have set : CellSet s s2 c (committed (s.cell c) d) := ((cellSet_refl s c).of_cells lossless).trans (cellSet_setCell s1 c _)
  exact set.of_cells (by simp only [State.cellErrors_cells])

/-- A block in error is not committed (R302, R304). -/
theorem execConfigCommit_of_blockErr {c : CellId} {s : State} (bad : (s.cell c).cfg.blockErr = true) : execConfigCommit c s = .next s := by
  simp [execConfigCommit, bad]

/-- Settles O35: the cell that was LOADING is `committed`; its tags are those of `committed_tag`. -/
theorem commitStartsTheNewConfiguration : Obligations.CommitStartsTheNewConfiguration := by
  intro c s u x loading block treated idle
  refine ⟨fun good run past calm => ?_, fun bad => execConfigCommit_of_blockErr bad⟩
  obtain ⟨t, d, step, here, others⟩ := execConfigCommit_commits loading block treated idle good run past calm
  refine ⟨t, step, ?_⟩
  rw [here]
  exact ⟨rfl, rfl, rfl, rfl, rfl, rfl, rfl, rfl, rfl, rfl, rfl, rfl, rfl, rfl, rfl, committed_zones x d, rfl, rfl,
    fun g rising => committed_tag x d rising g, rfl, rfl, rfl, committed_storeA x d, others⟩

end Sys2Proof.Machine
end

section
/-!
PROOF. O58: no step opens a side on the device edge. The sides of bays change where an isolation write takes place, where a suite is created,
loaded or freed, and where the device is reset; every other part of a step leaves them, which is said once for each function that answers a
state.
-/

namespace Sys2Proof.Machine
open Sys2Proof

/-! ### The edge sides of a bay -/

/-- No side of bay b on the device edge is OPEN, or asked to open: the clause of `EdgesClosed` for one bay. -/
def EdgeShut (b : Nat) (y : Bay) : Prop :=
  b < 32 → ∀ d < 4, onEdge b d = true → y.iso.getLsbD d = false ∧ ∀ v, y.isoReq = some v → v.getLsbD d = false

theorem edgesClosed_iff (s : State) : EdgesClosed s ↔ ∀ e ∈ s.bays, EdgeShut e.1 e.2 := Iff.rfl

theorem edgeShut_iff_of_sides {b : Nat} {y z : Bay} (iso : z.iso = y.iso) (req : z.isoReq = y.isoReq) : EdgeShut b z ↔ EdgeShut b y := by
  rw [EdgeShut, EdgeShut, iso, req]

/-- A bay all of whose sides are CLOSED, with no write waiting. -/
theorem edgeShut_of_closed {b : Nat} {y : Bay} (iso : y.iso = 0) (req : y.isoReq = none) : EdgeShut b y := fun _ d _ _ => by
  simp [iso, req]

/-- The entries of a collection after a write are those written and some of those before it. -/
theorem mem_of_mem_sset {V : Type} {m : SMap V} {k : Nat} {v : V} {e : Nat × V} (listed : e ∈ sset m k v) : e = (k, v) ∨ e ∈ m := by
  fun_induction sset m k v with
  | case1 k v => simpa using listed
  | case2 i w r k v => simpa using listed
  | case3 i w r v =>
    rw [List.mem_cons] at listed ⊢
    exact listed.imp_right Or.inr
  | case4 i w r k v _ _ ih =>
    rw [List.mem_cons] at listed ⊢
    exact listed.elim (Or.inr ∘ Or.inl) fun l => (ih l).imp_right Or.inr

/-- What holds of every entry, and of the default, holds of what is read. -/
theorem sget_of_forall {V : Type} (P : Nat → V → Prop) (d : V) (m : SMap V) (k : Nat) (default : P k d) (all : ∀ e ∈ m, P e.1 e.2) :
    P k (sget d m k) := by
  fun_induction sget d m k with
  | case1 k => exact default
  | case2 => exact all _ List.mem_cons_self
  | case3 _ _ _ _ _ ih => exact ih default fun e listed => all e (List.mem_cons_of_mem _ listed)

/-- A write of a value of which the same holds as of the one that the index reads changes nothing in what holds of every entry. -/
theorem forall_sset_iff {V : Type} (P : Nat → V → Prop) (d v : V) (m : SMap V) (k : Nat) (default : P k d) (same : P k v ↔ P k (sget d m k)) :
    (∀ e ∈ sset m k v, P e.1 e.2) ↔ ∀ e ∈ m, P e.1 e.2 := by
  fun_induction sset m k v with
  | case1 k v => simpa [same, sget] using default
  | case2 i w r k v =>
    rw [List.forall_mem_cons, same]
    exact and_iff_right_of_imp (sget_of_forall P d _ k default)
  | case3 i w r v =>
    rw [sget, if_pos rfl] at same
    rw [List.forall_mem_cons, List.forall_mem_cons, same]
  | case4 i w r k v _ other ih =>
    rw [sget, if_neg other] at same
    rw [List.forall_mem_cons, List.forall_mem_cons, ih default same]

theorem edgeShut_bay {s : State} (closed : EdgesClosed s) (b : Nat) : EdgeShut b (s.bay b) :=
  sget_of_forall EdgeShut {} s.bays b (edgeShut_of_closed rfl rfl) closed

/-- A write of a bay whose edge sides are shut. -/
theorem edgesClosed_setBay {s : State} (closed : EdgesClosed s) {b : Nat} {y : Bay} (shut : EdgeShut b y) : EdgesClosed (s.setBay b y) := by
  intro e listed
  obtain rfl | listed := mem_of_mem_sset listed
  · exact shut
  · exact closed e listed

/-! ### Updates of the state -/

/-- A write of a bay that keeps its sides. -/
@[simp] theorem State.setBay_edges (s : State) (b : Nat) (y : Bay) (iso : y.iso = (s.bay b).iso) (req : y.isoReq = (s.bay b).isoReq) :
    EdgesClosed (s.setBay b y) ↔ EdgesClosed s :=
  forall_sset_iff EdgeShut {} y s.bays b (edgeShut_of_closed rfl rfl) (edgeShut_iff_of_sides iso req)

@[simp] theorem State.updBay_edges (s : State) (b : Nat) (f : Bay → Bay) (iso : ∀ y, (f y).iso = y.iso) (req : ∀ y, (f y).isoReq = y.isoReq) :
    EdgesClosed (s.updBay b f) ↔ EdgesClosed s := s.setBay_edges b _ (iso _) (req _)

/-- A state with no bay listed, each of which is as after a reset. -/
theorem edgesClosed_of_bays_nil {s : State} (none : s.bays = []) : EdgesClosed s := by
  rw [edgesClosed_iff, none]
  simp

theorem bayNext_eq_none_of_onEdge {b d : Nat} (edge : onEdge b d = true) : bayNext b d = none := by
  simp only [onEdge, Bool.or_eq_true, Bool.and_eq_true, beq_iff_eq, decide_eq_true_eq] at edge
  unfold bayNext
  obtain ((⟨rfl, h⟩ | ⟨rfl, h⟩) | ⟨rfl, h⟩) | ⟨rfl, h⟩ := edge <;> simp [h]

/-- Bit d of a word built from the sides that meet p, of the first n. -/
theorem getLsbD_foldl_sides (p : Nat → Bool) (d n : Nat) (few : n ≤ 4) :
    ((List.range n).foldl (fun (m : BitVec 4) k => if p k = true then m ||| BitVec.ofNat 4 (2 ^ k) else m) 0).getLsbD d =
      (decide (d < n) && p d) := by
  induction n with
  | zero => simp
  | succ n ih =>
    have bit : (BitVec.ofNat 4 (2 ^ n)).getLsbD d = decide (d = n) := by
      rw [BitVec.getLsbD_ofNat, Nat.testBit_two_pow]
      grind
    rw [List.range_succ, List.foldl_append, List.foldl_cons, List.foldl_nil]
    split <;> grind

/-- A side that may open leads to a bay of the same suite (R286, R287). -/
theorem bayNext_of_mayOpen {s : State} {b : Nat} {want : BitVec 4} {d : Nat} (side : d < 4) (opens : (mayOpen s b want).getLsbD d = true) :
    ∃ n, bayNext b d = some n ∧ (s.bay b).owner.isSome = true ∧ (s.bay b).owner = (s.bay n).owner := by
  have met := (getLsbD_foldl_sides _ d 4 (Nat.le_refl 4)).symm.trans opens
  simp only [side, decide_true, Bool.true_and, Bool.and_eq_true] at met
  obtain ⟨-, met⟩ := met
  split at met
  · next n next => exact ⟨n, next, by simpa using met⟩
  · cases met

/-- No side on the device edge may open: no bay lies beyond it. -/
theorem mayOpen_of_onEdge (s : State) {b : Nat} (want : BitVec 4) {d : Nat} (side : d < 4) (edge : onEdge b d = true) :
    (mayOpen s b want).getLsbD d = false := by
  refine Bool.eq_false_iff.mpr fun opens => ?_
  obtain ⟨n, next, -⟩ := bayNext_of_mayOpen side opens
  rw [bayNext_eq_none_of_onEdge edge] at next
  cases next

/-- An update that leaves the bays alone. -/
@[simp] theorem State.edges_update (s : State) (now : Nat) (tick : W64) (free : Nat) (pending : List Instr) (devState : DeviceState)
    (quiesced : Bool) (drainMode drainAt : Nat) (pcie : Pcie) (grade : Byte) (uid : BitVec 128) (domainValid : Bool) (part : BitVec 6)
    (routes : SMap (Bool × BitVec 4)) (power : Power) (macer : Macer) (repair : Repair) (keys : Keys) (fw : Firmware) (mgmt : Mgmt)
    (metering : Metering) (store : Store) (mbox : Mailbox) (devLog errLog : RecordRing) (devCtrs : Counters) (cells : SMap Cell)
    (suites : SMap Suite) (ports : SMap MemPort) (streams : SMap StreamState) (gacon : SMap GaconPort) (barriers : SMap Barrier)
    (seqs : SMap SeqEntry) (out : Output) :
    EdgesClosed ⟨now, tick, free, pending, devState, quiesced, drainMode, drainAt, pcie, grade, uid, domainValid, part, routes, power, macer,
      repair, keys, fw, mgmt, metering, store, mbox, devLog, errLog, devCtrs, cells, s.bays, suites, ports, streams, gacon, barriers, seqs,
      out⟩ ↔ EdgesClosed s := Iff.rfl

@[simp] theorem State.edges_ite (c : Prop) {_ : Decidable c} (a b : State) :
    EdgesClosed (if c then a else b) ↔ if c then EdgesClosed a else EdgesClosed b := iff_of_eq (apply_ite EdgesClosed c a b)

@[simp] theorem nextOf_fault (s : State) (f : Fault) : nextOf s (.fault f) = s := by rfl

@[simp] theorem nextOf_ite (s : State) (c : Prop) {_ : Decidable c} (a b : Host.Outcome State Fault Refusal) :
    nextOf s (if c then a else b) = if c then nextOf s a else nextOf s b := apply_ite (nextOf s) c a b

/-- A fold of steps that leave the edge sides of a part of what they carry leaves them. -/
theorem foldl_edges_of {A B : Type} (part : A → State) (op : A → B → A) (h : ∀ a b, EdgesClosed (part (op a b)) ↔ EdgesClosed (part a)) (l : List B)
    (a : A) : EdgesClosed (part (l.foldl op a)) ↔ EdgesClosed (part a) :=
  iff_of_eq (foldl_keeps (fun a => EdgesClosed (part a)) op (fun a b => propext (h a b)) l a)

@[simp] theorem State.foldl_edges {B : Type} (op : State → B → State) (h : ∀ s b, EdgesClosed (op s b) ↔ EdgesClosed s) (l : List B) (s : State) :
    EdgesClosed (l.foldl op s) ↔ EdgesClosed s := foldl_edges_of id op h l s

/-- A fold of steps that open no edge side opens none. -/
theorem edgesClosed_foldl {B : Type} {op : State → B → State} {l : List B} (h : ∀ s, ∀ b ∈ l, EdgesClosed s → EdgesClosed (op s b)) {s : State}
    (closed : EdgesClosed s) : EdgesClosed (l.foldl op s) := by
  induction l generalizing s with
  | nil => exact closed
  | cons b l ih => exact ih (fun s k listed => h s k (List.mem_cons_of_mem b listed)) (h s b List.mem_cons_self closed)

/-- The state of a pair, where the pair is known and its state keeps the edge sides. -/
theorem snd_edges_of_eq {A : Type} {p : A × State} {a : A} {s t : State} (h : p = (a, t)) (k : EdgesClosed p.2 ↔ EdgesClosed s) :
    EdgesClosed t ↔ EdgesClosed s := by
  subst h
  exact k

/-- So for a triple. -/
theorem third_edges_of_eq {A B : Type} {p : A × B × State} {a : A} {b : B} {s t : State} (h : p = (a, b, t)) (k : EdgesClosed p.2.2 ↔ EdgesClosed s) :
    EdgesClosed t ↔ EdgesClosed s := by
  subst h
  exact k

/-- Where an operation that may fail opens no edge side, none is open in the state that stands if it failed. -/
theorem State.getD_edges {o : Option State} {s : State} (h : ∀ t, o = some t → EdgesClosed s → EdgesClosed t) (closed : EdgesClosed s) :
    EdgesClosed (o.getD s) := by
  cases o with
  | none => exact closed
  | some t => exact h t rfl closed

/-! ### The shared operations of the state -/

@[simp] theorem State.setCell_edges (s : State) (c : Nat) (x : Cell) : EdgesClosed (s.setCell c x) ↔ EdgesClosed s := by rfl

@[simp] theorem State.updCell_edges (s : State) (c : Nat) (f : Cell → Cell) : EdgesClosed (s.updCell c f) ↔ EdgesClosed s := by rfl

@[simp] theorem State.setSuite_edges (s : State) (i : Nat) (x : Suite) : EdgesClosed (s.setSuite i x) ↔ EdgesClosed s := by rfl

@[simp] theorem State.updSuite_edges (s : State) (i : Nat) (f : Suite → Suite) : EdgesClosed (s.updSuite i f) ↔ EdgesClosed s := by rfl

@[simp] theorem State.setPort_edges (s : State) (p : Nat) (x : MemPort) : EdgesClosed (s.setPort p x) ↔ EdgesClosed s := by rfl

@[simp] theorem State.updPort_edges (s : State) (p : Nat) (f : MemPort → MemPort) : EdgesClosed (s.updPort p f) ↔ EdgesClosed s := by rfl

@[simp] theorem State.setGport_edges (s : State) (g : Nat) (x : GaconPort) : EdgesClosed (s.setGport g x) ↔ EdgesClosed s := by rfl

@[simp] theorem State.updGport_edges (s : State) (g : Nat) (f : GaconPort → GaconPort) : EdgesClosed (s.updGport g f) ↔ EdgesClosed s := by rfl

@[simp] theorem State.setBarrier_edges (s : State) (n : Nat) (x : Barrier) : EdgesClosed (s.setBarrier n x) ↔ EdgesClosed s := by rfl

@[simp] theorem State.setSeqEntry_edges (s : State) (n : Nat) (x : SeqEntry) : EdgesClosed (s.setSeqEntry n x) ↔ EdgesClosed s := by rfl

@[simp] theorem State.setStream_edges (s : State) (x : StreamCtx) (v : StreamState) : EdgesClosed (s.setStream x v) ↔ EdgesClosed s := by rfl

@[simp] theorem State.updStream_edges (s : State) (x : StreamCtx) (f : StreamState → StreamState) :
    EdgesClosed (s.updStream x f) ↔ EdgesClosed s := by rfl

@[simp] theorem State.fresh_edges (s : State) : EdgesClosed (s.fresh).2 ↔ EdgesClosed s := by rfl

@[simp] theorem State.msix_edges (s : State) (f : HostFn) (v : Nat) : EdgesClosed (s.msix f v) ↔ EdgesClosed s := by rfl

@[simp] theorem State.giveRead_edges (s : State) (v : W64) : EdgesClosed (s.giveRead v) ↔ EdgesClosed s := by rfl

@[simp] theorem State.addRecord_edges (s : State) (ty : Nat) (suite : Option Nat) (r : W256) :
    EdgesClosed (s.addRecord ty suite r) ↔ EdgesClosed s := by
  unfold State.addRecord; split <;> simp

@[simp] theorem State.report_edges (s : State) (ty code cls addr info : Nat) (unit : UnitRef) (suite : Option Nat) :
    EdgesClosed (s.report ty code cls addr info unit suite) ↔ EdgesClosed s := by simp [State.report]

@[simp] theorem State.suiteError_edges (s : State) (code addr info : Nat) (unit : UnitRef) (suite : Option Nat) :
    EdgesClosed (s.suiteError code addr info unit suite) ↔ EdgesClosed s := by simp [State.suiteError]

@[simp] theorem State.logEvent_edges (s : State) (code addr info : Nat) (suite : Option Nat) :
    EdgesClosed (s.logEvent code addr info suite) ↔ EdgesClosed s := by rfl

@[simp] theorem State.logDiscard_edges (s : State) (f : Option HostFn) (addr : Nat) : EdgesClosed (s.logDiscard f addr) ↔ EdgesClosed s := by rfl

@[simp] theorem State.corrected_edges (s : State) (code addr : Nat) (unit : UnitRef) (suite : Option Nat) :
    EdgesClosed (s.corrected code addr unit suite) ↔ EdgesClosed s := by simp [State.corrected]

@[simp] theorem State.countBay_edges (s : State) (b ev v : Nat) : EdgesClosed (s.countBay b ev v) ↔ EdgesClosed s := by simp [State.countBay]

@[simp] theorem State.countDev_edges (s : State) (ev unit v : Nat) : EdgesClosed (s.countDev ev unit v) ↔ EdgesClosed s := by rfl

@[simp] theorem State.suiteFault_edges (s : State) (i cls : Nat) (job : Bool) (fault : Option (Nat × Nat × Nat × Nat)) (check : Option UnitTest) :
    EdgesClosed (s.suiteFault i cls job fault check) ↔ EdgesClosed s := by rfl

@[simp] theorem State.takeFault_edges (s : State) (c cause detail addr : Nat) (exec : Bool) (f : FaultAt) :
    EdgesClosed (s.takeFault c cause detail addr exec f) ↔ EdgesClosed s := by
  fun_cases State.takeFault s c cause detail addr exec f <;> simp +zetaDelta

@[simp] theorem State.poisonPane_edges (s : State) (c g code : Nat) : EdgesClosed (s.poisonPane c g code) ↔ EdgesClosed s := by
  fun_cases State.poisonPane s c g code <;> simp

@[simp] theorem State.fixWords_edges (s : State) (c : Nat) (fixed : List (Nat × W32)) : EdgesClosed (s.fixWords c fixed) ↔ EdgesClosed s := by
  simp [State.fixWords]

@[simp] theorem State.noteBad_edges (s : State) (c : Nat) (bad : List Nat) : EdgesClosed (s.noteBad c bad) ↔ EdgesClosed s := by simp [State.noteBad]

@[simp] theorem State.zoneNotice_edges (s : State) (c z : Nat) (commit : Bool) : EdgesClosed (s.zoneNotice c z commit) ↔ EdgesClosed s := by
  simp [State.zoneNotice]

@[simp] theorem State.requestNotice_edges (s : State) (c z : Nat) (commit : Bool) (beat : Option Nat) :
    EdgesClosed (s.requestNotice c z commit beat) ↔ EdgesClosed s := by rfl

@[simp] theorem State.applyNotices_edges (s : State) (c z : Nat) (due : ZoneNotice → Bool) :
    EdgesClosed (s.applyNotices c z due) ↔ EdgesClosed s := by
  simp [State.applyNotices]

@[simp] theorem State.requestMode_edges (s : State) (c z : Nat) (credit : Bool) : EdgesClosed (s.requestMode c z credit) ↔ EdgesClosed s := by rfl

@[simp] theorem State.toHub_edges (s : State) (c : Nat) (i : HubItem) : EdgesClosed (s.toHub c i) ↔ EdgesClosed s := by rfl

@[simp] theorem State.sendCredit_edges (s : State) (c z n part queue : Nat) : EdgesClosed (s.sendCredit c z n part queue) ↔ EdgesClosed s := by rfl

@[simp] theorem State.seedCountdown_edges (s : State) (b n : Nat) : EdgesClosed (s.seedCountdown b n) ↔ EdgesClosed s := by
  simp [State.seedCountdown]

@[simp] theorem State.eligible_edges (s : State) (c : Nat) (i : Issued) : EdgesClosed (s.eligible c i) ↔ EdgesClosed s := by
  unfold State.eligible; split <;> simp

@[simp] theorem State.pushSend_edges (s : State) (c ch : Nat) (f : Flit) : EdgesClosed (s.pushSend c ch f) ↔ EdgesClosed s := by simp [State.pushSend]

@[simp] theorem State.voidFlit_edges (s : State) : EdgesClosed (s.voidFlit).2 ↔ EdgesClosed s := by rfl

@[simp] theorem State.voidFlits_edges (s : State) (n : Nat) : EdgesClosed (s.voidFlits n).2 ↔ EdgesClosed s := by
  induction n generalizing s with
  | zero => rfl
  | succ n ih => exact (ih _).trans s.voidFlit_edges

@[simp] theorem State.takeStrip_edges (s : State) (c ch : Nat) : EdgesClosed (s.takeStrip c ch).2.2 ↔ EdgesClosed s := by simp [State.takeStrip]

@[simp] theorem State.spoil_edges (s : State) (i : Nat) : EdgesClosed (s.spoil i) ↔ EdgesClosed s := by rfl

/-! ### Effects of the move unit and the hub -/

@[simp] theorem State.hubEffect_edges (s : State) (c : Nat) (i : Issued) (bs : List Byte) : EdgesClosed (s.hubEffect c i bs) ↔ EdgesClosed s := by
  simp [State.hubEffect]

@[simp] theorem State.zctlEffect_edges (s : State) (c : Nat) (i : Issued) : EdgesClosed (s.zctlEffect c i) ↔ EdgesClosed s := by
  simp [State.zctlEffect]

/-! ### Fetch -/

@[simp] theorem State.takeNext_edges (s : State) (c : Nat) : EdgesClosed (s.takeNext c) ↔ EdgesClosed s := by
  fun_cases State.takeNext s c <;> simp

/-! ### HBM -/

@[simp] theorem State.hbmRunW_edges (s : State) (a : Nat) (bs : List Byte) (n : Nat) : EdgesClosed (s.hbmRunW a bs n) ↔ EdgesClosed s :=
  iff_of_eq (congrArg EdgesClosed (s.hbmRunW_others a bs n) :)

@[simp] theorem State.hbmWrite_edges (s : State) (a : Nat) (bs : List Byte) : EdgesClosed (s.hbmWrite a bs) ↔ EdgesClosed s := by
  simp [State.hbmWrite]

@[simp] theorem State.hbmClear_edges (s : State) (lo hi : Nat) : EdgesClosed (s.hbmClear lo hi) ↔ EdgesClosed s := by rfl

@[simp] theorem State.meterHbm_edges (s : State) (i : Nat) : EdgesClosed (s.meterHbm i) ↔ EdgesClosed s := by rfl

/-! ### Messages, notices, transactions and barriers -/

@[simp] theorem State.toCell_edges (s : State) (m : W256) (vc : Option Nat) : EdgesClosed (s.toCell m vc) ↔ EdgesClosed s := by simp [State.toCell]

@[simp] theorem State.freeTxn_edges (s : State) (g vc : Nat) (t : Txn) : EdgesClosed (s.freeTxn g vc t) ↔ EdgesClosed s := by simp [State.freeTxn]

@[simp] theorem State.placeNotice_edges (s : State) (m : W256) : EdgesClosed (s.placeNotice m) ↔ EdgesClosed s := by simp [State.placeNotice]

@[simp] theorem State.queueTxn_edges (s : State) (g vc : Nat) (t : Txn) : EdgesClosed (s.queueTxn g vc t) ↔ EdgesClosed s := by rfl

@[simp] theorem State.sendNotice_edges (s : State) (vc suite reason addr len src wseq : Nat) :
    EdgesClosed (s.sendNotice vc suite reason addr len src wseq) ↔ EdgesClosed s := by
  fun_cases State.sendNotice s vc suite reason addr len src wseq <;> simp

@[simp] theorem State.barErr_edges (s : State) (n : Nat) (genchk : Bool) (gen : W16) : EdgesClosed (s.barErr n genchk gen) ↔ EdgesClosed s := by
  simp [State.barErr]

@[simp] theorem State.txnLost_edges (s : State) (vc : Nat) (t : Txn) (reason addr len : Nat) :
    EdgesClosed (s.txnLost vc t reason addr len) ↔ EdgesClosed s := by
  unfold State.txnLost; split <;> simp

@[simp] theorem State.voidReturn_edges (s : State) (tag : W32) : EdgesClosed (s.voidReturn tag) ↔ EdgesClosed s := by
  unfold State.voidReturn
  dsimp only
  split <;> rfl

@[simp] theorem State.noRoute_edges (s : State) (vc : Nat) (t : Txn) (reason : Nat) : EdgesClosed (s.noRoute vc t reason) ↔ EdgesClosed s := by
  fun_cases State.noRoute s vc t reason <;> simp

@[simp] theorem State.sendTxn_edges (s : State) (g vc : Nat) (t : Txn) : EdgesClosed (s.sendTxn g vc t) ↔ EdgesClosed s := by
  fun_cases State.sendTxn s g vc t <;> simp

@[simp] theorem State.sendMessage_edges (s : State) (suite : Nat) (m : W256) : EdgesClosed (s.sendMessage suite m) ↔ EdgesClosed s := by
  simp [State.sendMessage]

@[simp] theorem State.barComplete_edges (s : State) (n : Nat) : EdgesClosed (s.barComplete n) ↔ EdgesClosed s := by simp [State.barComplete]

@[simp] theorem State.barCommand_edges (s : State) (n : Nat) (arrive err genchk : Bool) (gen : W16) :
    EdgesClosed (s.barCommand n arrive err genchk gen) ↔ EdgesClosed s := by simp [State.barCommand]

@[simp] theorem State.popTxn_edges (s : State) (g vc : Nat) : EdgesClosed (s.popTxn g vc) ↔ EdgesClosed s := by rfl

@[simp] theorem State.endTxn_edges (s : State) (g vc : Nat) (t : Txn) : EdgesClosed (s.endTxn g vc t) ↔ EdgesClosed s := by simp [State.endTxn]

@[simp] theorem State.decideItem_edges (s : State) (i : WriteItem) (lost : Option (Nat × Nat)) :
    EdgesClosed (s.decideItem i lost) ↔ EdgesClosed s := by
  unfold State.decideItem
  dsimp only
  split
  · rfl
  · split <;> cases lost <;> simp

@[simp] theorem State.openWrite_edges (s : State) (g vc : Nat) (t : Txn) (items : List Nat) :
    EdgesClosed (s.openWrite g vc t items) ↔ EdgesClosed s := by rfl

@[simp] theorem State.refuseTxn_edges (s : State) (g vc : Nat) (t : Txn) (reason : Nat) :
    EdgesClosed (s.refuseTxn g vc t reason) ↔ EdgesClosed s := by
  simp [State.refuseTxn]

/-! ### Landing strips -/

@[simp] theorem State.decideStrip_edges (s : State) (item : Option WriteItem) (reason : Option Nat) :
    EdgesClosed (s.decideStrip item reason) ↔ EdgesClosed s := by
  unfold State.decideStrip; split <;> simp

@[simp] theorem State.refusalReport_edges (s : State) (c z a : Nat) : EdgesClosed (s.refusalReport c z a) ↔ EdgesClosed s := by
  fun_cases State.refusalReport s c z a <;> simp

@[simp] theorem landBytes_edges (s : State) (l : Landing) : EdgesClosed (landBytes s l).2 ↔ EdgesClosed s :=
  foldl_edges_of (fun a : List Byte × State => a.2) _ (fun a f => by
    cases f with
    | none => exact a.2.voidFlit_edges
    | some f => rfl) l.data ([], s)

@[simp] theorem State.landStrip_edges (s : State) (c : Nat) (l : Landing) : EdgesClosed (s.landStrip c l).1 ↔ EdgesClosed s := by
  fun_cases State.landStrip s c l
  case case7 => simp +zetaDelta [snd_edges_of_eq ‹_› (landBytes_edges _ _)]
  all_goals simp +zetaDelta

/-! ### A clock cycle, and time -/

@[simp] theorem State.sendDue_edges (s : State) (c t : Nat) (f : InFlight) : EdgesClosed (s.sendDue c t f) ↔ EdgesClosed s := by simp [State.sendDue]

@[simp] theorem State.serveAccess_edges (s : State) (c : Nat) (a : SpadAccess) : EdgesClosed (s.serveAccess c a) ↔ EdgesClosed s := by
  fun_cases State.serveAccess s c a <;> simp +zetaDelta

@[simp] theorem State.serveFree_edges (s : State) (c : Nat) (free next : Nat → Bool) : EdgesClosed (s.serveFree c free next) ↔ EdgesClosed s := by
  unfold State.serveFree
  split
  · rfl
  · refine State.foldl_edges _ (fun s o => ?_) _ s
    dsimp only
    split
    · rfl
    · split <;> simp

@[simp] theorem State.zoneEvents_edges (s : State) (c t : Nat) : EdgesClosed (s.zoneEvents c t) ↔ EdgesClosed s := by
  refine State.foldl_edges _ (fun s e => ?_) _ s
  dsimp only
  split <;> simp

@[simp] theorem Found.fault_edges (d : Found) (c t : Nat) (f : InFlight) (cause detail addr : Nat) :
    EdgesClosed (d.fault c t f cause detail addr).s ↔ EdgesClosed d.s := by rfl

@[simp] theorem Found.badWord_edges (d : Found) (c t : Nat) (f : InFlight) (bad : List Nat) :
    EdgesClosed (d.badWord c t f bad).s ↔ EdgesClosed d.s := by
  cases bad with
  | nil => rfl
  | cons a r => exact d.s.noteBad_edges c (a :: r)

/-- A fold over what a cycle finds keeps the edge sides when each of its steps does. -/
@[simp] theorem Found.foldl_edges {B : Type} (op : Found → B → Found) (h : ∀ d b, EdgesClosed (op d b).s ↔ EdgesClosed d.s) (l : List B)
    (d : Found) : EdgesClosed (l.foldl op d).s ↔ EdgesClosed d.s := foldl_edges_of (fun d : Found => d.s) op h l d

@[simp] theorem Found.collide_edges (d : Found) (c t : Nat) (as : List Access) : EdgesClosed (d.collide c t as).s ↔ EdgesClosed d.s := by
  refine Found.foldl_edges _ (fun d o => ?_) _ d
  dsimp only
  split <;> simp

@[simp] theorem Found.reads_edges (d : Found) (c t : Nat) (f : InFlight) : EdgesClosed (d.reads c t f).s ↔ EdgesClosed d.s := by
  refine Found.foldl_edges _ (fun d r => ?_) _ d
  dsimp only
  split <;> split <;> simp

@[simp] theorem Found.ite_edges (c : Prop) {_ : Decidable c} (a b : Found) :
    EdgesClosed (if c then a else b).s ↔ if c then EdgesClosed a.s else EdgesClosed b.s :=
  iff_of_eq (apply_ite (fun d : Found => EdgesClosed d.s) c a b)

@[simp] theorem Found.writes_edges (d : Found) (c t : Nat) (f0 : InFlight) : EdgesClosed (d.writes c t f0).s ↔ EdgesClosed d.s := by
  unfold Found.writes
  extract_lets begun d1 x
  have kept : EdgesClosed d1.s ↔ EdgesClosed d.s := by
    unfold d1
    split
    · rfl
    · refine Found.foldl_edges _ (fun d w => ?_) begun d
      dsimp only
      split <;> simp
  clear_value d1
  split
  · exact kept
  · dsimp only
    split
    · exact kept
    · exact kept

@[simp] theorem Found.engines_edges (d : Found) (c : Nat) (run : Bool) (lands : List Landing) :
    EdgesClosed (d.engines c run lands).s ↔ EdgesClosed d.s := by
  simp [Found.engines]

@[simp] theorem State.cellCycle_edges (s : State) (c : Nat) : EdgesClosed (s.cellCycle c) ↔ EdgesClosed s := by
  simp [State.cellCycle, ↓State.edges_ite]
  split <;> simp

@[simp] theorem State.takeDue_edges (s : State) (c : Nat) : EdgesClosed (s.takeDue c) ↔ EdgesClosed s := by simp [State.takeDue]

@[simp] theorem State.retire_edges (s : State) (c : Nat) : EdgesClosed (s.retire c) ↔ EdgesClosed s := by simp [State.retire]

@[simp] theorem State.clockTo_edges (s : State) (t : Nat) : EdgesClosed (s.clockTo t) ↔ EdgesClosed s := by rfl

@[simp] theorem State.passCell_edges (c len fuel n : Nat) (s : State) : EdgesClosed (State.passCell c len fuel n s) ↔ EdgesClosed s := by
  induction fuel generalizing n s with
  | zero => rfl
  | succ fuel ih =>
    unfold State.passCell
    split
    · rfl
    · simp [ih]

@[simp] theorem State.passCells_edges (s : State) (k : Nat) : EdgesClosed (s.passCells k) ↔ EdgesClosed s := by
  refine State.foldl_edges _ (fun s' e => ?_) _ s
  dsimp only
  split <;> simp

/-- What an isolation write asked for opens no edge side as it takes effect (R287). -/
@[simp] theorem State.passBays_edges (s : State) (k : Nat) (closed : EdgesClosed s) : EdgesClosed (s.passBays k) := by
  refine edgesClosed_foldl (fun s' e listed closed' => ?_) closed
  split
  · exact closed'
  next v asked =>
    dsimp only
    split
    · exact closed'
    · exact edgesClosed_setBay closed' fun inside d side edge => ⟨(closed e listed inside d side edge).2 v asked, fun _ none => by cases none⟩

@[simp] theorem State.passMeters_edges (s : State) (k : Nat) : EdgesClosed (s.passMeters k) ↔ EdgesClosed s := by
  refine State.foldl_edges _ (fun s e => ?_) _ s
  split <;> simp

@[simp] theorem State.passHolds_edges (s : State) (k : Nat) : EdgesClosed (s.passHolds k) ↔ EdgesClosed s := by simp [State.passHolds]

@[simp] theorem State.passLevels_edges (s : State) (k : Nat) : EdgesClosed (s.passLevels k) ↔ EdgesClosed s := by simp [State.passLevels]

@[simp] theorem State.advance_edges (s : State) (k : Nat) (closed : EdgesClosed s) : EdgesClosed (s.advance k) := by simp [closed, State.advance]

@[simp] theorem State.waitUntil_edges (s : State) (t : Nat) (closed : EdgesClosed s) : EdgesClosed (s.waitUntil t) := by
  simp [closed, State.waitUntil]

@[simp] theorem State.freshIn_edges (s : State) (len : Nat) (closed : EdgesClosed s) : EdgesClosed (s.freshIn len) := by simp [closed, State.freshIn]

/-- A wait for a cell's cycle opens no edge side. -/
theorem State.waitCycle_edges {s s1 : State} {c t : Nat} (h : s.waitCycle c t = some s1) (closed : EdgesClosed s) : EdgesClosed s1 := by
  unfold State.waitCycle at h
  dsimp only at h
  split at h
  · cases h
  · simp only [Option.ite_none_left_eq_some] at h
    obtain ⟨-, h⟩ := h
    split at h <;> cases h <;> simp [closed]

/-! ### Issue of an instruction -/

@[simp] theorem State.driedOne_edges (s : State) (x : Cell) : EdgesClosed (s.driedOne x) ↔ EdgesClosed s := by
  unfold State.driedOne; split <;> simp

@[simp] theorem seqEffect_edges (s : State) (c : Nat) (w : BitVec 128) (n : Nat) : EdgesClosed (seqEffect s c w n) ↔ EdgesClosed s := by
  fun_cases seqEffect s c w n <;> simp +zetaDelta

@[simp] theorem State.issuedDone_edges (s : State) (c : Nat) (i : Issued) : EdgesClosed (s.issuedDone c i) ↔ EdgesClosed s := by
  simp [State.issuedDone]

@[simp] theorem issueMain_edges (op c : Nat) (s : State) (closed : EdgesClosed s) : EdgesClosed (issueMain op c s) := by
  fun_cases issueMain op c s
  case case1 => exact closed
  all_goals simp +zetaDelta [closed, State.waitCycle_edges ‹_ = some _› closed]

@[simp] theorem issueEndloop_edges (c : Nat) (s : State) (closed : EdgesClosed s) : EdgesClosed (issueEndloop c s) := by
  fun_cases issueEndloop c s
  case case1 => exact closed
  all_goals simp [closed, State.waitCycle_edges ‹_ = some _› closed]

@[simp] theorem issueHandler_edges (op c : Nat) (s : State) (closed : EdgesClosed s) : EdgesClosed (issueHandler op c s) := by
  fun_cases issueHandler op c s
  case case1 => exact closed
  all_goals
    obtain ⟨h, -, waited⟩ := Option.bind_eq_some_iff.mp ‹Option.bind _ _ = some _›
    simp +zetaDelta [closed, State.waitCycle_edges waited closed]

@[simp] theorem issue_edges (op : Nat) (c : CellId) (x : Ctx) (s : State) (closed : EdgesClosed s) : EdgesClosed (nextOf s (issue op c x s)) := by
  cases x <;> unfold issue <;> simp [closed]

/-! ### Message queues -/

@[simp] theorem State.parityFault_edges (s : State) (c detail addr : Nat) : EdgesClosed (s.parityFault c detail addr) ↔ EdgesClosed s := by rfl

@[simp] theorem State.dropMessage_edges (s : State) (c q : Nat) : EdgesClosed (s.dropMessage c q) ↔ EdgesClosed s := by simp [State.dropMessage]

@[simp] theorem State.enqueue_edges (s : State) (c : Nat) (a : Arrival) : EdgesClosed (s.enqueue c a) ↔ EdgesClosed s := by
  fun_cases State.enqueue s c a <;> simp

@[simp] theorem State.popHead_edges (s : State) (c q : Nat) : EdgesClosed (s.popHead c q).2 ↔ EdgesClosed s := by
  fun_cases State.popHead s c q <;> simp +zetaDelta

@[simp] theorem State.qpop_edges (s : State) (c q : Nat) : EdgesClosed (s.qpop c q).2 ↔ EdgesClosed s := by
  simp only [State.qpop]
  split
  · simp
  · simp [apply_ite Prod.snd]

/-! ### Events of a cell -/

theorem State.waitPhase_edges {s s1 : State} {c ph : Nat} (h : s.waitPhase c ph = some s1) (closed : EdgesClosed s) : EdgesClosed s1 := by
  unfold State.waitPhase at h
  dsimp only at h
  split at h
  · cases h
  · split at h <;> cases h <;> simp [closed]

@[simp] theorem execIssueCheckPoint_edges (c : CellId) (s : State) (closed : EdgesClosed s) : EdgesClosed (nextOf s (execIssueCheckPoint c s)) := by
  fun_cases execIssueCheckPoint c s
  case case2 => simp [State.waitPhase_edges ‹_ = some _› closed]
  case case4 => simp [State.waitCycle_edges ‹_ = some _› closed]
  case case5 => simp [State.waitCycle_edges ‹_ = some _› closed]
  all_goals exact closed

@[simp] theorem execLateCheckPass_edges (c : CellId) (s : State) (closed : EdgesClosed s) : EdgesClosed (nextOf s (execLateCheckPass c s)) := by
  simp [closed, execLateCheckPass]

theorem State.startAt_edges {s s1 : State} {c : Nat} {e : Engine} {i : Issued} {free : Nat} (h : s.startAt c e i free = some s1)
    (closed : EdgesClosed s) :
    EdgesClosed s1 := by
  unfold State.startAt at h
  dsimp only at h
  split at h
  · cases h
  · exact State.waitCycle_edges h closed

@[simp] theorem State.begin_edges (s : State) (c : Nat) (f : InFlight) : EdgesClosed (s.begin c f) ↔ EdgesClosed s := by simp [State.begin]

@[simp] theorem startMatrix_edges (c : Nat) (s : State) (closed : EdgesClosed s) : EdgesClosed (startMatrix c s) := by
  fun_cases startMatrix c s
  case case1 => exact closed
  case case2 => exact closed
  all_goals simp [State.waitCycle_edges ‹_ = some _› closed]

@[simp] theorem startVector_edges (c : Nat) (s : State) (closed : EdgesClosed s) : EdgesClosed (startVector c s) := by
  fun_cases startVector c s
  case case1 => exact closed
  case case2 => exact closed
  all_goals simp [State.startAt_edges ‹_ = some _› closed]

@[simp] theorem startReduction_edges (c : Nat) (s : State) (closed : EdgesClosed s) : EdgesClosed (startReduction c s) := by
  fun_cases startReduction c s
  case case1 => exact closed
  case case2 => exact closed
  all_goals simp [State.startAt_edges ‹_ = some _› closed]

@[simp] theorem startMove_edges (c : Nat) (s : State) (closed : EdgesClosed s) : EdgesClosed (startMove c s) := by
  fun_cases startMove c s
  case case4 got =>
    have started := State.startAt_edges ‹_ = some _› closed
    have popped := snd_edges_of_eq (s := s) got (by simp +zetaDelta [closed, apply_ite Prod.snd, apply_ite EdgesClosed, started])
    simp [closed, popped]
  all_goals exact closed

@[simp] theorem startCounter_edges (c : Nat) (s : State) (closed : EdgesClosed s) : EdgesClosed (startCounter c s) := by
  fun_cases startCounter c s
  case case1 => exact closed
  case case2 => exact closed
  all_goals simp [State.startAt_edges ‹_ = some _› closed]

@[simp] theorem execMatrixStart_edges (c : CellId) (s : State) (closed : EdgesClosed s) : EdgesClosed (nextOf s (execMatrixStart c s)) := by
  simp [closed, execMatrixStart]

@[simp] theorem execVectorStart_edges (c : CellId) (s : State) (closed : EdgesClosed s) : EdgesClosed (nextOf s (execVectorStart c s)) := by
  simp [closed, execVectorStart]

@[simp] theorem execReductionStart_edges (c : CellId) (s : State) (closed : EdgesClosed s) : EdgesClosed (nextOf s (execReductionStart c s)) := by
  simp [closed, execReductionStart]

@[simp] theorem execMoveSendStart_edges (c : CellId) (s : State) (closed : EdgesClosed s) : EdgesClosed (nextOf s (execMoveSendStart c s)) := by
  simp [closed, execMoveSendStart]

@[simp] theorem execCounterUnitStart_edges (c : CellId) (s : State) (closed : EdgesClosed s) : EdgesClosed (nextOf s (execCounterUnitStart c s)) := by
  simp [closed, execCounterUnitStart]

@[simp] theorem execInstructionComplete_edges (c : CellId) (e : Engine) (s : State) (closed : EdgesClosed s) :
    EdgesClosed (nextOf s (execInstructionComplete c e s)) := by
  fun_cases execInstructionComplete c e s
  case case1 => exact closed
  case case2 => exact State.getD_edges (fun _ => State.waitCycle_edges) closed

@[simp] theorem execLandingStrip_edges (c : CellId) (octant : Fin 8) (s : State) (closed : EdgesClosed s) :
    EdgesClosed (nextOf s (execLandingStrip c octant s)) := by
  fun_cases execLandingStrip c octant s <;> simp [closed]

@[simp] theorem State.dispatch_edges (s : State) (c queue ready : Nat) : EdgesClosed (s.dispatch c queue ready) ↔ EdgesClosed s := by
  fun_cases State.dispatch s c queue ready
  case case1 => simp
  case case2 => simp
  all_goals simp +zetaDelta [snd_edges_of_eq ‹_ = (_, _)› (s.popHead_edges c queue)]

@[simp] theorem execHandlerDispatch_edges (c : CellId) (s : State) (closed : EdgesClosed s) : EdgesClosed (nextOf s (execHandlerDispatch c s)) := by
  fun_cases execHandlerDispatch c s
  case case1 => exact closed
  case case2 => exact closed
  all_goals
    have kept := State.waitCycle_edges (Option.ite_none_right_eq_some.mp ‹_ = some _›).2
    simp +zetaDelta [closed, kept]

/-! ### Commands that issue an instruction not named by its opcode alone -/

@[simp] theorem issueZctl_edges (k : Nat) (c : CellId) (x : Ctx) (s : State) (closed : EdgesClosed s) :
    EdgesClosed (nextOf s (issueZctl k c x s)) := by
  unfold issueZctl; simp [closed]

@[simp] theorem issueEnd_edges (c : CellId) (x : Ctx) (s : State) (closed : EdgesClosed s) : EdgesClosed (nextOf s (issueEnd c x s)) := by
  cases x <;> unfold issueEnd <;> simp [closed]

@[simp] theorem execEndloop_edges (c : CellId) (x : Ctx) (s : State) (closed : EdgesClosed s) : EdgesClosed (nextOf s (execEndloop c x s)) := by
  simp [closed, execEndloop]

@[simp] theorem execZctlGrant_edges (c : CellId) (x : Ctx) (s : State) (closed : EdgesClosed s) : EdgesClosed (nextOf s (execZctlGrant c x s)) := by
  simp [closed, execZctlGrant]

@[simp] theorem execZctlCommit_edges (c : CellId) (x : Ctx) (s : State) (closed : EdgesClosed s) : EdgesClosed (nextOf s (execZctlCommit c x s)) := by
  simp [closed, execZctlCommit]

@[simp] theorem execZctlVoid_edges (c : CellId) (x : Ctx) (s : State) (closed : EdgesClosed s) : EdgesClosed (nextOf s (execZctlVoid c x s)) := by
  simp [closed, execZctlVoid]

@[simp] theorem execZctlNormalMode_edges (c : CellId) (x : Ctx) (s : State) (closed : EdgesClosed s) :
    EdgesClosed (nextOf s (execZctlNormalMode c x s)) := by
  simp [closed, execZctlNormalMode]

@[simp] theorem execZctlCreditMode_edges (c : CellId) (x : Ctx) (s : State) (closed : EdgesClosed s) :
    EdgesClosed (nextOf s (execZctlCreditMode c x s)) := by
  simp [closed, execZctlCreditMode]

/-! ### The hub and barrier commands -/

@[simp] theorem State.takeUp_edges (s : State) (i b : Nat) : EdgesClosed (s.takeUp i b) ↔ EdgesClosed s := by
  unfold State.takeUp; split <;> simp

@[simp] theorem State.takeHub_edges (s : State) (i b : Nat) (released : Bool) : EdgesClosed (s.takeHub i b released) ↔ EdgesClosed s := by
  simp [State.takeHub]

@[simp] theorem State.routeMessage_edges (s : State) (i : Nat) (c : CellId) (m : W256) : EdgesClosed (s.routeMessage i c m) ↔ EdgesClosed s := by
  simp [State.routeMessage]

@[simp] theorem execHubPathTransfer_edges (c : CellId) (up : Bool) (s : State) (closed : EdgesClosed s) :
    EdgesClosed (nextOf s (execHubPathTransfer c up s)) := by
  fun_cases execHubPathTransfer c up s <;> simp +zetaDelta [closed]

@[simp] theorem execHubMessageRoute_edges (b : BayId) (s : State) (closed : EdgesClosed s) : EdgesClosed (nextOf s (execHubMessageRoute b s)) := by
  fun_cases execHubMessageRoute b s <;> simp [closed]

@[simp] theorem execMessageEnqueue_edges (c : CellId) (s : State) (closed : EdgesClosed s) : EdgesClosed (nextOf s (execMessageEnqueue c s)) := by
  fun_cases execMessageEnqueue c s <;> simp +zetaDelta [closed]

@[simp] theorem State.refuseBar_edges (s : State) (n : Nat) (src : BarSrc) : EdgesClosed (s.refuseBar n src) ↔ EdgesClosed s := by
  unfold State.refuseBar; split <;> simp

@[simp] theorem State.armBarrier_edges (s : State) (n : Nat) : EdgesClosed (s.armBarrier n) ↔ EdgesClosed s := by simp [State.armBarrier]

@[simp] theorem State.disarmBarrier_edges (s : State) (n : Nat) : EdgesClosed (s.disarmBarrier n) ↔ EdgesClosed s := by simp [State.disarmBarrier]

@[simp] theorem State.barTxn_edges (s : State) (g vc : Nat) (t : Txn) : EdgesClosed (s.barTxn g vc t) ↔ EdgesClosed s := by
  unfold State.barTxn; split <;> simp

@[simp] theorem State.remoteBar_edges (s : State) (part i n : Nat) (ok : W64 → Bool) : EdgesClosed (s.remoteBar part i n ok) ↔ EdgesClosed s := by
  unfold State.remoteBar; split <;> simp

@[simp] theorem execBarCmdArm_edges (src : BarSrc) (n : BarId) (s : State) : EdgesClosed (nextOf s (execBarCmdArm src n s)) ↔ EdgesClosed s := by
  unfold execBarCmdArm; split <;> simp

@[simp] theorem execBarCmdDisarm_edges (src : BarSrc) (n : BarId) (s : State) :
    EdgesClosed (nextOf s (execBarCmdDisarm src n s)) ↔ EdgesClosed s := by
  unfold execBarCmdDisarm; split <;> simp

@[simp] theorem execBarCmdArrive_edges (src : BarSrc) (n : BarId) (err genchk : Bool) (gen : W16) (s : State) :
    EdgesClosed (nextOf s (execBarCmdArrive src n err genchk gen s)) ↔ EdgesClosed s := by
  fun_cases execBarCmdArrive src n err genchk gen s <;> simp +zetaDelta

@[simp] theorem execBarCmdErr_edges (src : BarSrc) (n : BarId) (genchk : Bool) (gen : W16) (s : State) :
    EdgesClosed (nextOf s (execBarCmdErr src n genchk gen s)) ↔ EdgesClosed s := by
  unfold execBarCmdErr; split <;> simp

@[simp] theorem execBarCfgWrite_edges (f : HostFn) (n : BarId) (reg : Fin 5) (v : W64) (s : State) :
    EdgesClosed (nextOf s (execBarCfgWrite f n reg v s)) ↔ EdgesClosed s := by simp [execBarCfgWrite]

/-! ### Scratchpads and zones -/

@[simp] theorem State.access_edges (s : State) (c : Nat) (a : SpadAccess) (closed : EdgesClosed s) : EdgesClosed (s.access c a) := by
  simp [closed, State.access]

@[simp] theorem execScrubRead_edges (c : CellId) (o : Fin 8) (s : State) (closed : EdgesClosed s) : EdgesClosed (nextOf s (execScrubRead c o s)) := by
  simp [closed, execScrubRead]

@[simp] theorem State.boundedCause_edges (s : State) (i origin : Nat) : EdgesClosed (s.boundedCause i origin) ↔ EdgesClosed s := by
  simp [State.boundedCause]

@[simp] theorem execScrubIntervalEnd_edges (c : CellId) (s : State) (closed : EdgesClosed s) : EdgesClosed (nextOf s (execScrubIntervalEnd c s)) := by
  unfold execScrubIntervalEnd
  dsimp only
  rw [nextOf_next]
  split <;> simp [closed]

@[simp] theorem execCorrectionWriteBack_edges (c : CellId) (o : Fin 8) (s : State) (closed : EdgesClosed s) :
    EdgesClosed (nextOf s (execCorrectionWriteBack c o s)) := by
  simp [closed, execCorrectionWriteBack]

@[simp] theorem execMgmtScratchpadRead_edges (c : CellId) (word : BitVec 20) (s : State) (closed : EdgesClosed s) :
    EdgesClosed (nextOf s (execMgmtScratchpadRead c word s)) := by simp [closed, execMgmtScratchpadRead]

@[simp] theorem execMgmtScratchpadWrite_edges (c : CellId) (word : BitVec 20) (v : W32) (be : BitVec 4) (s : State) (closed : EdgesClosed s) :
    EdgesClosed (nextOf s (execMgmtScratchpadWrite c word v be s)) := by simp [closed, execMgmtScratchpadWrite]

@[simp] theorem State.passNotice_edges (s : State) (c z : Nat) (commit : Bool) (closed : EdgesClosed s) : EdgesClosed (s.passNotice c z commit) := by
  fun_cases State.passNotice s c z commit
  case case1 => exact closed
  case case2 => simp [closed]
  case case3 => exact State.getD_edges (fun _ => State.waitCycle_edges) closed

@[simp] theorem execZoneCommit_edges (c : CellId) (z : ZoneId) (s : State) (closed : EdgesClosed s) :
    EdgesClosed (nextOf s (execZoneCommit c z s)) := by
  simp [closed, execZoneCommit]

@[simp] theorem execZoneVoid_edges (c : CellId) (z : ZoneId) (s : State) (closed : EdgesClosed s) : EdgesClosed (nextOf s (execZoneVoid c z s)) := by
  simp [closed, execZoneVoid]

@[simp] theorem execZoneModeChange_edges (c : CellId) (z : ZoneId) (s : State) (closed : EdgesClosed s) :
    EdgesClosed (nextOf s (execZoneModeChange c z s)) := by
  rw [execZoneModeChange, nextOf_next]
  split
  · exact closed
  · exact State.getD_edges (fun _ => State.waitCycle_edges) closed

@[simp] theorem State.writeLz_edges (s : State) (f : HostFn) (c z : Nat) (v : W64) : EdgesClosed (s.writeLz f c z v) ↔ EdgesClosed s := by
  simp [State.writeLz]

@[simp] theorem execLzCfgCommit_edges (f : HostFn) (c : CellId) (z : ZoneId) (rest : W64) (s : State) (closed : EdgesClosed s) :
    EdgesClosed (nextOf s (execLzCfgCommit f c z rest s)) := by simp [closed, execLzCfgCommit]

@[simp] theorem execLzCfgVoid_edges (f : HostFn) (c : CellId) (z : ZoneId) (rest : W64) (s : State) (closed : EdgesClosed s) :
    EdgesClosed (nextOf s (execLzCfgVoid f c z rest s)) := by simp [closed, execLzCfgVoid]

@[simp] theorem execLzCfgGrant_edges (f : HostFn) (c : CellId) (z : ZoneId) (g : W16) (s : State) (closed : EdgesClosed s) :
    EdgesClosed (nextOf s (execLzCfgGrant f c z g s)) := by simp [closed, execLzCfgGrant]

@[simp] theorem execLzCfgWrite_edges (f : HostFn) (c : CellId) (z : ZoneId) (v : W64) (s : State) (closed : EdgesClosed s) :
    EdgesClosed (nextOf s (execLzCfgWrite f c z v s)) := by simp [closed, execLzCfgWrite]

/-! ### Holds and isolation -/

theorem State.waitBeat_edges {s s1 : State} {i ph : Nat} (h : s.waitBeat i ph = some s1) (closed : EdgesClosed s) : EdgesClosed s1 := by
  unfold State.waitBeat at h
  dsimp only at h
  split at h
  · cases h
  · split at h <;> cases h <;> simp [closed]

theorem State.waitBoundary_edges {s s1 : State} {i : Nat} (h : s.waitBoundary i = some s1) (closed : EdgesClosed s) : EdgesClosed s1 := by
  unfold State.waitBoundary at h
  dsimp only at h
  split at h
  · cases h
  · split at h <;> cases h <;> simp [closed]

@[simp] theorem State.rootSample_edges (s : State) (i : Nat) : EdgesClosed (s.rootSample i) ↔ EdgesClosed s := by rfl

@[simp] theorem execHoldRootSample_edges (sid : SuiteId) (s : State) (closed : EdgesClosed s) :
    EdgesClosed (nextOf s (execHoldRootSample sid s)) := by
  fun_cases execHoldRootSample sid s
  case case1 => exact closed
  case case2 waited =>
    obtain ⟨s1, first, second⟩ := Option.bind_eq_some_iff.mp waited
    have kept : EdgesClosed s1 := by
      split at first
      · exact State.waitBoundary_edges first closed
      · cases first; exact closed
    simp [State.waitBeat_edges second kept]

@[simp] theorem execHoldBegin_edges (sid : SuiteId) (s : State) (closed : EdgesClosed s) : EdgesClosed (nextOf s (execHoldBegin sid s)) := by
  fun_cases execHoldBegin sid s
  case case3 => simp +zetaDelta [State.waitBoundary_edges ‹_ = some _› closed]
  all_goals exact closed

@[simp] theorem State.releaseHold_edges (s : State) (i : Nat) : EdgesClosed (s.releaseHold i) ↔ EdgesClosed s := by simp [State.releaseHold]

@[simp] theorem execHoldEnd_edges (sid : SuiteId) (s : State) (closed : EdgesClosed s) : EdgesClosed (nextOf s (execHoldEnd sid s)) := by
  fun_cases execHoldEnd sid s
  case case1 => exact closed
  case case2 => exact closed
  all_goals simp +zetaDelta [State.waitBoundary_edges ‹_ = some _› closed]

@[simp] theorem execHoldTimeout_edges (sid : SuiteId) (s : State) (closed : EdgesClosed s) : EdgesClosed (nextOf s (execHoldTimeout sid s)) := by
  simp [closed, execHoldTimeout]

/-- A write of BAY_ISO asks for no edge side, and opens none (R286, R287). -/
@[simp] theorem State.writeIso_edges (s : State) (b : BayId) (v : W64) (closed : EdgesClosed s) : EdgesClosed (s.writeIso b v) := by
  unfold State.writeIso
  extract_lets y want ok y1 y2 s1
  have shut : EdgesClosed s1 := by
    refine edgesClosed_setBay closed fun inside d side edge => ?_
    have mayNot := mayOpen_of_onEdge s want side edge
    have before := (edgeShut_bay closed b.val inside d side edge).1
    unfold y2
    split
    · exact ⟨before, fun _ asked => Option.some.inj asked ▸ mayNot⟩
    · exact ⟨mayNot, fun _ none => by cases none⟩
  split
  · exact shut
  · simp [shut]

@[simp] theorem execBayIsoWrite_edges (f : HostFn) (b : BayId) (v : W64) (s : State) (closed : EdgesClosed s) :
    EdgesClosed (nextOf s (execBayIsoWrite f b v s)) := by
  simp [closed, execBayIsoWrite]

@[simp] theorem State.violation_edges (s : State) (b side origin : Nat) : EdgesClosed (s.violation b side origin) ↔ EdgesClosed s := by
  unfold State.violation; dsimp only; split <;> simp

/-! ### The mailbox and the states of device and suite -/

@[simp] theorem State.setRing_edges (s : State) (f : HostFn) (cpl : Bool) (r : Ring) : EdgesClosed (s.setRing f cpl r) ↔ EdgesClosed s := by rfl

@[simp] theorem State.dmaWrite_edges (s : State) (f : HostFn) (addr : Nat) (bytes : List Byte) :
    EdgesClosed (s.dmaWrite f addr bytes) ↔ EdgesClosed s := by rfl

@[simp] theorem State.dmaRead_edges (s : State) (f : HostFn) (addr n : Nat) : EdgesClosed (s.dmaRead f addr n) ↔ EdgesClosed s := by rfl

@[simp] theorem State.keepVersions_edges (s : State) (ends : Taken → Bool) : EdgesClosed (s.keepVersions ends) ↔ EdgesClosed s := by rfl

@[simp] theorem State.finish_edges (s : State) (t : Taken) (r : Reply) : EdgesClosed (s.finish t r) ↔ EdgesClosed s := by simp [State.finish]

@[simp] theorem State.setDevState_edges (s : State) (d : DeviceState) : EdgesClosed (s.setDevState d) ↔ EdgesClosed s := by simp [State.setDevState]

@[simp] theorem State.settleActive_edges (s : State) : EdgesClosed (s.settleActive) ↔ EdgesClosed s := by simp [State.settleActive]

@[simp] theorem State.setSuiteState_edges (s : State) (i : Nat) (st : SuiteState) : EdgesClosed (s.setSuiteState i st) ↔ EdgesClosed s := by
  unfold State.setSuiteState
  split
  · rfl
  · dsimp only
    rw [State.settleActive_edges, State.msix_edges, State.msix_edges]
    split <;> simp

@[simp] theorem State.suitePower_edges (s : State) (i : Nat) (p : BayState) : EdgesClosed (s.suitePower i p) ↔ EdgesClosed s := by
  refine State.foldl_edges _ (fun s b => State.updBay_edges s b _ (fun y => ?_) (fun y => ?_)) _ s <;> split <;> (try split) <;> rfl

@[simp] theorem State.answerStops_edges (s : State) (i : Nat) (r : Reply) : EdgesClosed (s.answerStops i r) ↔ EdgesClosed s := by
  simp [State.answerStops]

@[simp] theorem State.stopSuite_edges (s : State) (i : Nat) : EdgesClosed (s.stopSuite i) ↔ EdgesClosed s := by simp [State.stopSuite]

/-- A mailbox command opens no edge side when its own effect opens none. -/
@[simp] theorem runCommand_edges (s : State) (ticket op : Nat) (sel : Taken → Bool) (used : Taken → List (Nat × Nat)) (run : Taken → State → State)
    (h : ∀ t s, EdgesClosed s → EdgesClosed (run t s)) (closed : EdgesClosed s) : EdgesClosed (runCommand s ticket op sel used run) := by
  obtain ⟨-, e⟩ | ⟨t, r, -, -, -, e⟩ | ⟨t, -, -, e⟩ := runCommand_cases s ticket op sel used run
  · rw [e]
    exact closed
  · rw [e, State.finish_edges]
    exact closed
  · rw [e]
    exact h t s closed

@[simp] theorem State.keepRunning_edges (s : State) (t : Taken) : EdgesClosed (s.keepRunning t) ↔ EdgesClosed s := by rfl

/-! ### Tracks and routers -/

@[simp] theorem State.trackError_edges (s : State) (c code j : Nat) : EdgesClosed (s.trackError c code j) ↔ EdgesClosed s := by
  simp [State.trackError]

@[simp] theorem State.loseFlits_edges (s : State) (reason : Nat) (fs : List Flit) : EdgesClosed (s.loseFlits reason fs) ↔ EdgesClosed s := by
  simp [State.loseFlits]

@[simp] theorem State.loseCell_edges (s : State) (c : Nat) : EdgesClosed (s.loseCell c) ↔ EdgesClosed s := by simp [State.loseCell]

@[simp] theorem State.sendFlit_edges (s : State) (c j : Nat) (f : Flit) : EdgesClosed (s.sendFlit c j f) ↔ EdgesClosed s := by
  fun_cases State.sendFlit s c j f <;> simp +zetaDelta

@[simp] theorem execFlitReceive_edges (c : CellId) (port : Fin 5) (track : Fin 4) (err : FlitErr) (s : State) (closed : EdgesClosed s) :
    EdgesClosed (nextOf s (execFlitReceive c port track err s)) := by
  fun_cases execFlitReceive c port track err s
  case case1 => exact closed
  case case2 => simp +zetaDelta [closed]
  all_goals
    have kept := snd_edges_of_eq (s := s) ‹_ = (_, _)› (by cases err <;> simp +zetaDelta [closed])
    simp +zetaDelta [closed, kept]

@[simp] theorem State.endFrame_edges (s : State) (c j octant : Nat) (fs : List (Option Flit)) :
    EdgesClosed (s.endFrame c j octant fs) ↔ EdgesClosed s := by
  unfold State.endFrame; split <;> simp

@[simp] theorem State.landEntry_edges (s : State) (c j e : Nat) (f : Option Flit) : EdgesClosed (s.landEntry c j e f) ↔ EdgesClosed s := by
  simp [State.landEntry]

@[simp] theorem State.pushRecv_edges (s : State) (c ch : Nat) (f : Flit) : EdgesClosed (s.pushRecv c ch f) ↔ EdgesClosed s := by
  fun_cases State.pushRecv s c ch f <;> simp +zetaDelta

@[simp] theorem State.popSend_edges (s : State) (c ch : Nat) : EdgesClosed (s.popSend c ch).2 ↔ EdgesClosed s := by
  fun_cases State.popSend s c ch <;> simp

@[simp] theorem State.actOutput_edges (s : State) (c : Nat) (heads : SMap Flit) (je : Nat × Nat) :
    EdgesClosed (s.actOutput c heads je) ↔ EdgesClosed s := by
  unfold State.actOutput
  dsimp only
  split
  · split <;> simp
  · split <;> split <;> simp

@[simp] theorem State.actInput_edges (s : State) (c : Nat) (heads : SMap Flit) (je : Nat × Nat) :
    EdgesClosed (s.actInput c heads je) ↔ EdgesClosed s := by
  unfold State.actInput
  dsimp only
  split
  · simp
  · split <;> split <;> simp

@[simp] theorem State.runPhase_edges (s : State) (c : Nat) (u : Suite) : EdgesClosed (s.runPhase c u) ↔ EdgesClosed s := by
  unfold State.runPhase; dsimp only; split <;> simp

@[simp] theorem execRouteTablePhase_edges (c : CellId) (s : State) (closed : EdgesClosed s) : EdgesClosed (nextOf s (execRouteTablePhase c s)) := by
  fun_cases execRouteTablePhase c s <;> simp +zetaDelta [closed]

@[simp] theorem execRouterForward_edges (c : CellId) (input : Fin 5) (s : State) (closed : EdgesClosed s) :
    EdgesClosed (nextOf s (execRouterForward c input s)) := by
  fun_cases execRouterForward c input s
  case case3 => simp +zetaDelta [closed]
  case case5 => simp [State.waitCycle_edges ‹_ = some _› closed]
  case case6 => simp +zetaDelta [State.waitCycle_edges ‹_ = some _› closed]
  all_goals exact closed

/-! ### Streams -/

@[simp] theorem State.waitSlot_edges (s : State) (port n : Nat) (closed : EdgesClosed s) : EdgesClosed (s.waitSlot port n) := by
  simp [closed, State.waitSlot]

@[simp] theorem State.ctxError_edges (s : State) (x : StreamCtx) (err : Nat) (suite : Option Nat) :
    EdgesClosed (s.ctxError x err suite) ↔ EdgesClosed s := by
  unfold State.ctxError
  dsimp only
  split
  · simp
  · cases suite <;> simp

@[simp] theorem execDescriptorStart_edges (x : StreamCtx) (s : State) (closed : EdgesClosed s) :
    EdgesClosed (nextOf s (execDescriptorStart x s)) := by
  fun_cases execDescriptorStart x s <;> simp +zetaDelta [closed]

@[simp] theorem State.retireStack_edges (s : State) (p : PortId) (pc : Fin 64) : EdgesClosed (s.retireStack p pc) ↔ EdgesClosed s := by
  unfold State.retireStack
  dsimp only
  rw [State.foldl_edges] <;> simp

@[simp] theorem State.noteUncorr_edges (s : State) (p n : Nat) : EdgesClosed (s.noteUncorr p n) ↔ EdgesClosed s := by simp [State.noteUncorr]

@[simp] theorem State.finalUncorr_edges (s : State) (p n suite : Nat) : EdgesClosed (s.finalUncorr p n suite) ↔ EdgesClosed s := by rfl

@[simp] theorem State.fixGranule_edges (s : State) (p n : Nat) (d : List Byte) (suite : Option Nat) :
    EdgesClosed (s.fixGranule p n d suite) ↔ EdgesClosed s := by
  simp [State.fixGranule]

@[simp] theorem State.poisonRead_edges (s : State) (p n suite : Nat) : EdgesClosed (s.poisonRead p n suite) ↔ EdgesClosed s := by rfl

@[simp] theorem State.firstRead_edges (s : State) (p n suite : Nat) (again : MaintItem) :
    EdgesClosed (s.firstRead p n suite again).2 ↔ EdgesClosed s := by
  fun_cases State.firstRead s p n suite again <;> simp +zetaDelta

@[simp] theorem State.secondRead_edges (s : State) (p n suite : Nat) : EdgesClosed (s.secondRead p n suite).2 ↔ EdgesClosed s := by
  unfold State.secondRead; split <;> simp

@[simp] theorem State.stackReports_edges (s : State) (p : Nat) : EdgesClosed (s.stackReports p) ↔ EdgesClosed s := by rfl

@[simp] theorem readGranule_edges (p suite : Nat) (id : ReadId) (base : Nat) (acc : TileAcc) (g : Nat) :
    EdgesClosed (readGranule p suite id base acc g).st ↔ EdgesClosed acc.st := by
  have kept := acc.st.firstRead_edges p (base + g) suite (.reread (base + g) id)
  unfold readGranule
  split <;> (rename_i h; rw [h] at kept; exact kept)

@[simp] theorem State.readTile_edges (s : State) (p suite n : Nat) (id : ReadId) (a : Nat) :
    EdgesClosed (s.readTile p suite n id a) ↔ EdgesClosed s := by
  unfold State.readTile
  dsimp only
  simp only [State.meterHbm_edges, State.stackReports_edges, State.updPort_edges]
  refine foldl_edges_of (fun a : TileAcc => a.st) _ (fun acc g => ?_) _ _
  split
  · rfl
  · simp

@[simp] theorem State.faultAsker_edges (s : State) (x : StreamCtx) (i : Nat) (a : Int) : EdgesClosed (s.faultAsker x i a) ↔ EdgesClosed s := by
  fun_cases State.faultAsker s x i a <;> simp

@[simp] theorem State.stopContext_edges (s : State) (x : StreamCtx) (i : Nat) (a : Int) : EdgesClosed (s.stopContext x i a) ↔ EdgesClosed s := by
  simp [State.stopContext]

@[simp] theorem State.readSlot_edges (s : State) (p : PortId) (closed : EdgesClosed s) : EdgesClosed (s.readSlot p) := by
  fun_cases State.readSlot s p <;> simp +zetaDelta [closed]

@[simp] theorem indexWords_edges (s : State) (r : TileRead) : EdgesClosed (indexWords s r).2 ↔ EdgesClosed s := by
  refine foldl_edges_of (fun a : List W32 × State => a.2) _ (fun a g => ?_) _ ([], s)
  refine foldl_edges_of (fun a : List W32 × State => a.2) _ (fun a j => ?_) _ a
  dsimp only
  split <;> rfl

@[simp] theorem State.settleIndex_edges (s : State) (p : Nat) : EdgesClosed (s.settleIndex p) ↔ EdgesClosed s := by simp [State.settleIndex]

@[simp] theorem execTileReadReturn_edges (p : PortId) (s : State) (closed : EdgesClosed s) : EdgesClosed (nextOf s (execTileReadReturn p s)) := by
  unfold execTileReadReturn; split <;> simp [closed]

@[simp] theorem frameFlits_edges (s : State) (hdr : W256) (prov : Bool) (strip : List Byte) (void : List Nat) :
    EdgesClosed (frameFlits s hdr prov strip void).2 ↔ EdgesClosed s := by
  unfold frameFlits
  dsimp only
  refine foldl_edges_of (fun a : List Flit × State => a.2) _ (fun a j => ?_) _ ([], s)
  split <;> rfl

@[simp] theorem State.toInlet_edges (s : State) (cell track suite : Nat) (fs : List Flit) :
    EdgesClosed (s.toInlet cell track suite fs) ↔ EdgesClosed s := by
  simp [State.toInlet]

@[simp] theorem State.dropRead_edges (s : State) (id : ReadId) : EdgesClosed (s.dropRead id) ↔ EdgesClosed s := by
  unfold State.dropRead; split <;> simp

@[simp] theorem State.endRead_edges (s : State) (id : ReadId) (t : Nat) : EdgesClosed (s.endRead id t) ↔ EdgesClosed s := by
  unfold State.endRead; split <;> simp

@[simp] theorem execSpineFrameSend_edges (x : StreamCtx) (s : State) (closed : EdgesClosed s) : EdgesClosed (nextOf s (execSpineFrameSend x s)) := by
  fun_cases execSpineFrameSend x s
  case case5 =>
    have framed := snd_edges_of_eq (s := s) ‹frameFlits _ _ _ _ _ = (_, _)› (by simp +zetaDelta [closed])
    simp +zetaDelta [closed, framed]
  all_goals exact closed

@[simp] theorem execIndexFrameReceive_edges (x : StreamCtx) (s : State) (closed : EdgesClosed s) :
    EdgesClosed (nextOf s (execIndexFrameReceive x s)) := by
  fun_cases execIndexFrameReceive x s
  case case3 => simp +zetaDelta [State.waitCycle_edges ‹_ = some _› closed]
  case case4 =>
    have waited := State.waitCycle_edges ‹State.waitCycle _ _ _ = some _› closed
    have folded := snd_edges_of_eq (s := s) ‹List.foldl _ _ _ = (_, _)› (by
      refine (foldl_edges_of (fun a : List W32 × State => a.2) _ (fun a f => ?_) _ _).trans (by simp +zetaDelta [closed, waited])
      cases f with
      | none => simp
      | some f => simp [apply_ite Prod.snd])
    simp +zetaDelta [closed, folded]
  all_goals exact closed

@[simp] theorem execWriteStripTake_edges (x : StreamCtx) (s : State) (closed : EdgesClosed s) : EdgesClosed (nextOf s (execWriteStripTake x s)) := by
  fun_cases execWriteStripTake x s
  case case1 => exact closed
  case case2 => exact closed
  case case6 => exact closed
  all_goals simp +zetaDelta [State.waitCycle_edges ‹_ = some _› closed]

@[simp] theorem State.writeSlot_edges (s : State) (p : PortId) (closed : EdgesClosed s) : EdgesClosed (s.writeSlot p) := by
  fun_cases State.writeSlot s p <;> simp +zetaDelta [closed]

@[simp] theorem State.hostSlot_edges (s : State) (p n : Nat) (h : HostWait) (closed : EdgesClosed s) : EdgesClosed (s.hostSlot p n h) := by
  unfold State.hostSlot; split <;> simp [closed]

@[simp] theorem State.serveHost_edges (s : State) (p : Nat) (closed : EdgesClosed s) : EdgesClosed (s.serveHost p) := by
  fun_cases State.serveHost s p <;> simp +zetaDelta [closed]

@[simp] theorem execReadSlot_edges (p : PortId) (s : State) (closed : EdgesClosed s) : EdgesClosed (nextOf s (execReadSlot p s)) := by
  simp [closed, execReadSlot]

@[simp] theorem execWriteSlot_edges (p : PortId) (s : State) (closed : EdgesClosed s) : EdgesClosed (nextOf s (execWriteSlot p s)) := by
  simp [closed, execWriteSlot]

@[simp] theorem State.resolve_edges (s : State) (p : Nat) (id : ReadId) (g : Nat) (d : Option (List Byte)) :
    EdgesClosed (s.resolve p id g d) ↔ EdgesClosed s := by rfl

@[simp] theorem State.scrubGranule_edges (s : State) (p n : Nat) : EdgesClosed (s.scrubGranule p n) ↔ EdgesClosed s := by
  unfold State.scrubGranule; split <;> simp

@[simp] theorem State.serveFetch_edges (s : State) (p n serial : Nat) : EdgesClosed (s.serveFetch p n serial) ↔ EdgesClosed s := by
  fun_cases State.serveFetch s p n serial <;> simp

@[simp] theorem State.serveMaint_edges (s : State) (p : Nat) (i : MaintItem) : EdgesClosed (s.serveMaint p i) ↔ EdgesClosed s := by
  cases i with
  | displacedRead n id =>
    have kept := s.firstRead_edges p n ((s.ctxSuite id.ctx).getD 0) (.reread n id)
    unfold State.serveMaint
    dsimp only
    split <;> (rename_i h; rw [h] at kept; simpa using kept)
  | displacedWrite n d item => cases item <;> simp [State.serveMaint]
  | _ => simp [State.serveMaint]

@[simp] theorem execMaintenanceSlot_edges (p : PortId) (s : State) (closed : EdgesClosed s) : EdgesClosed (nextOf s (execMaintenanceSlot p s)) := by
  fun_cases execMaintenanceSlot p s
  case case1 => exact closed
  case case2 => exact closed
  case case3 =>
    simp +zetaDelta
    rw [State.foldl_edges]
    · simp [closed]
    · intro s g
      split <;> simp

@[simp] theorem execRfmRequest_edges (p : PortId) (pc : Fin 64) (absorb defer_ : Bool) (s : State) (closed : EdgesClosed s) :
    EdgesClosed (nextOf s (execRfmRequest p pc absorb defer_ s)) := by
  fun_cases execRfmRequest p pc absorb defer_ s <;> simp [closed]

@[simp] theorem execMpSlotWrite_edges (f : HostFn) (p : PortId) (i : Fin 1024) (v : W16) (s : State) (closed : EdgesClosed s) :
    EdgesClosed (nextOf s (execMpSlotWrite f p i v s)) := by simp [closed, execMpSlotWrite]

/-! ### Serving -/

@[simp] theorem State.sendNotices_edges (s : State) (i n : Nat) : EdgesClosed (s.sendNotices i n) ↔ EdgesClosed s := by
  fun_cases State.sendNotices s i n <;> simp

@[simp] theorem execStepBuild_edges (sid : SuiteId) (s : State) (closed : EdgesClosed s) : EdgesClosed (nextOf s (execStepBuild sid s)) := by
  simp [closed, execStepBuild]

@[simp] theorem execTokenRecordReceive_edges (b : BayId) (s : State) (closed : EdgesClosed s) :
    EdgesClosed (nextOf s (execTokenRecordReceive b s)) := by
  fun_cases execTokenRecordReceive b s <;> simp +zetaDelta [closed]

@[simp] theorem State.ringEvent_edges (s : State) (i ring : Nat) : EdgesClosed (s.ringEvent i ring) ↔ EdgesClosed s := by rfl

@[simp] theorem State.putOutput_edges (s : State) (i ring : Nat) (r : W256) : EdgesClosed (s.putOutput i ring r) ↔ EdgesClosed s := by
  simp [State.putOutput]

@[simp] theorem State.endSeq_edges (s : State) (i k : Nat) (st : SeqState) (reason : Nat) (slot : Bool) :
    EdgesClosed (s.endSeq i k st reason slot) ↔ EdgesClosed s := by simp [State.endSeq]

@[simp] theorem State.faultSeqs_edges (s : State) (i : Nat) : EdgesClosed (s.faultSeqs i) ↔ EdgesClosed s := by simp [State.faultSeqs]

@[simp] theorem State.commitToken_edges (s : State) (i n : Nat) (k : Slot) (token : Nat) :
    EdgesClosed (s.commitToken i n k token) ↔ EdgesClosed s := by
  simp [State.commitToken]

@[simp] theorem State.commitRest_edges (s : State) (i : Nat) (l : List Slot) (served : List Nat) :
    EdgesClosed (s.commitRest i l served) ↔ EdgesClosed s := by
  simp [State.commitRest]

@[simp] theorem State.settleRetiring_edges (s : State) (i : Nat) : EdgesClosed (s.settleRetiring i) ↔ EdgesClosed s := by simp [State.settleRetiring]

theorem commitRecord_edges (i n : Nat) (l : List Slot) (acc : State × List Nat) (m : W256) :
    EdgesClosed (commitRecord i n l acc m).1 ↔ EdgesClosed acc.1 := by
  unfold commitRecord
  dsimp only
  split <;> simp

@[simp] theorem execStepCommit_edges (sid : SuiteId) (s : State) (closed : EdgesClosed s) : EdgesClosed (nextOf s (execStepCommit sid s)) := by
  unfold execStepCommit
  dsimp only
  split
  · exact closed
  · simp [closed, foldl_edges_of (fun a : State × List Nat => a.1) _ (commitRecord_edges _ _ _)]

@[simp] theorem State.latency_edges (s : State) (i : Nat) (r : W256) : EdgesClosed (s.latency i r) ↔ EdgesClosed s := by rfl

@[simp] theorem execOutputRecordWrite_edges (sid : SuiteId) (ring : Fin 16) (dmaOk : Bool) (s : State) :
    EdgesClosed (nextOf s (execOutputRecordWrite sid ring dmaOk s)) ↔ EdgesClosed s := by
  unfold execOutputRecordWrite; dsimp only; split <;> simp

@[simp] theorem execOutRingCtlWrite_edges (f : HostFn) (sid : SuiteId) (ring : Fin 16) (v : W64) (s : State) :
    EdgesClosed (nextOf s (execOutRingCtlWrite f sid ring v s)) ↔ EdgesClosed s := by simp [execOutRingCtlWrite]

@[simp] theorem State.discardNotice_edges (s : State) (addr zone : Nat) (suite : Option Nat) :
    EdgesClosed (s.discardNotice addr zone suite) ↔ EdgesClosed s := by rfl

@[simp] theorem execNoticeArrival_edges (t : NoticeTarget) (commit : Bool) (beat : Option W32) (step : W32) (sect : W16) (s : State)
    (closed : EdgesClosed s) :
    EdgesClosed (nextOf s (execNoticeArrival t commit beat step sect s)) := by
  unfold execNoticeArrival
  split
  · dsimp only
    split <;> split <;> rw [nextOf_next] <;> simp [closed]
  · exact closed

/-! ### Suites and resets -/

@[simp] theorem State.emptyContext_edges (s : State) (x : StreamCtx) : EdgesClosed (s.emptyContext x) ↔ EdgesClosed s := by simp [State.emptyContext]

@[simp] theorem State.endContext_edges (s : State) (x : StreamCtx) : EdgesClosed (s.endContext x) ↔ EdgesClosed s := by simp [State.endContext]

@[simp] theorem State.endContexts_edges (s : State) (i : Nat) (voided : Bool) : EdgesClosed (s.endContexts i voided) ↔ EdgesClosed s := by
  simp [State.endContexts]

@[simp] theorem State.dropUnsent_edges (s : State) (i : Nat) : EdgesClosed (s.dropUnsent i) ↔ EdgesClosed s := by rfl

@[simp] theorem State.dropStaged_edges (s : State) (i : Nat) : EdgesClosed (s.dropStaged i) ↔ EdgesClosed s := by simp [State.dropStaged]

@[simp] theorem State.dropItems_edges (s : State) (i : Nat) : EdgesClosed (s.dropItems i) ↔ EdgesClosed s := by simp [State.dropItems]

@[simp] theorem State.flushOutput_edges (s : State) (i : Nat) : EdgesClosed (s.flushOutput i) ↔ EdgesClosed s := by
  refine State.foldl_edges _ (fun s r => State.foldl_edges _ (fun s _ => ?_) _ s) _ s
  exact execOutputRecordWrite_edges (Fin.ofNat 32 i) (Fin.ofNat 16 r) true s

@[simp] theorem State.cancelSeqs_edges (s : State) (i : Nat) : EdgesClosed (s.cancelSeqs i) ↔ EdgesClosed s := by simp [State.cancelSeqs]

@[simp] theorem State.freeSeqs_edges (s : State) (i : Nat) : EdgesClosed (s.freeSeqs i) ↔ EdgesClosed s := by rfl

@[simp] theorem State.clearCells_edges (s : State) (i : Nat) (reset : Bool) : EdgesClosed (s.clearCells i reset) ↔ EdgesClosed s := by
  simp [State.clearCells]

@[simp] theorem State.resetBarriers_edges (s : State) (i : Nat) : EdgesClosed (s.resetBarriers i) ↔ EdgesClosed s := by rfl

@[simp] theorem State.suiteReset_edges (s : State) (i : Nat) : EdgesClosed (s.suiteReset i) ↔ EdgesClosed s := by simp [State.suiteReset]

@[simp] theorem State.closeSides_edges (s : State) (i : Nat) (closed : EdgesClosed s) : EdgesClosed (s.closeSides i) :=
  edgesClosed_foldl (fun _ _ _ closed => edgesClosed_setBay closed (edgeShut_of_closed rfl rfl)) closed

/-- The borders inside a suite are opened; none is an edge side (R286, R486). -/
@[simp] theorem State.openSides_edges (s : State) (i : Nat) (closed : EdgesClosed s) : EdgesClosed (s.openSides i) := by
  refine edgesClosed_foldl (fun s b _ closed => edgesClosed_setBay closed fun inside d side edge => ⟨?_, ?_⟩) closed
  · exact mayOpen_of_onEdge s 0xF side edge
  · exact (edgeShut_bay closed b inside d side edge).2

@[simp] theorem State.wakeStacks_edges (s : State) (i : Nat) : EdgesClosed (s.wakeStacks i) ↔ EdgesClosed s := by simp [State.wakeStacks]

@[simp] theorem State.zeroSuite_edges (s : State) (i : Nat) : EdgesClosed (s.zeroSuite i) ↔ EdgesClosed s := by simp [State.zeroSuite]

@[simp] theorem State.unloadSuite_edges (s : State) (i : Nat) (closed : EdgesClosed s) : EdgesClosed (s.unloadSuite i) := by
  simp [closed, State.unloadSuite]

@[simp] theorem State.freeSlots_edges (s : State) (i : Nat) : EdgesClosed (s.freeSlots i) ↔ EdgesClosed s := by rfl

@[simp] theorem State.freeBays_edges (s : State) (i : Nat) (closed : EdgesClosed s) : EdgesClosed (s.freeBays i) := by
  refine edgesClosed_foldl (fun _ _ _ closed => edgesClosed_setBay closed (edgeShut_of_closed rfl rfl)) ?_
  refine edgesClosed_foldl (fun s c _ closed => ?_) closed
  dsimp only
  split <;> simp [closed]

@[simp] theorem State.freePositions_edges (s : State) (i : Nat) : EdgesClosed (s.freePositions i) ↔ EdgesClosed s := by simp [State.freePositions]

@[simp] theorem State.freeBarriers_edges (s : State) (i : Nat) : EdgesClosed (s.freeBarriers i) ↔ EdgesClosed s := by rfl

@[simp] theorem State.freeSuite_edges (s : State) (i : Nat) (closed : EdgesClosed s) : EdgesClosed (s.freeSuite i) := by
  simp [closed, State.freeSuite]

@[simp] theorem State.faultSuite_edges (s : State) (i : Nat) : EdgesClosed (s.faultSuite i) ↔ EdgesClosed s := by simp [State.faultSuite]

@[simp] theorem State.clearDevice_edges (s : State) (asleep : Bool) : EdgesClosed (s.clearDevice asleep) := edgesClosed_of_bays_nil rfl

@[simp] theorem State.breakLeases_edges (s : State) : EdgesClosed (s.breakLeases) ↔ EdgesClosed s := by rfl

@[simp] theorem State.endMailbox_edges (s : State) : EdgesClosed (s.endMailbox) ↔ EdgesClosed s := by rfl

@[simp] theorem State.resetRegisters_edges (s : State) (cause : Nat) (cold retest : Bool) :
    EdgesClosed (s.resetRegisters cause cold retest) ↔ EdgesClosed s := by rfl

@[simp] theorem State.trainLink_edges (s : State) : EdgesClosed (s.trainLink) ↔ EdgesClosed s := by simp [State.trainLink]

@[simp] theorem State.resetPcie_edges (s : State) (cause : Nat) : EdgesClosed (s.resetPcie cause) ↔ EdgesClosed s := by simp [State.resetPcie]

@[simp] theorem State.warmReset_edges (s : State) (cause : Nat) (retest : Bool) : EdgesClosed (s.warmReset cause retest) := by
  simp [State.warmReset]

@[simp] theorem State.deviceFatal_edges (s : State) : EdgesClosed (s.deviceFatal) := by simp [State.deviceFatal]

/-! ### Repair -/

@[simp] theorem State.retireBay_edges (s : State) (b : Nat) : EdgesClosed (s.retireBay b) ↔ EdgesClosed s := by rfl

@[simp] theorem State.markUnit_edges (s : State) (k : UnitCheck) (g : Nat) : EdgesClosed (s.markUnit k g) ↔ EdgesClosed s := by
  unfold State.markUnit
  split <;> rfl

theorem State.shiftRow_edges {s s1 : State} {c : Nat} (h : s.shiftRow c = some s1) : EdgesClosed s1 ↔ EdgesClosed s := by
  unfold State.shiftRow at h
  split at h <;> cases h
  rfl

@[simp] theorem State.fillPane_edges (s : State) (c g a : Nat) : EdgesClosed (s.fillPane c g a) ↔ EdgesClosed s := by rfl

@[simp] theorem State.refillCell_edges (s : State) (i c k : Nat) : EdgesClosed (s.refillCell i c k) ↔ EdgesClosed s := by
  refine State.foldl_edges _ (fun s g => ?_) _ s
  split <;> simp

/-! ### Reconfiguration -/

@[simp] theorem State.voidGroup_edges (s : State) : EdgesClosed (s.voidGroup).2 ↔ EdgesClosed s := by rfl

@[simp] theorem State.rowGranule_edges (s : State) (i p n : Nat) : EdgesClosed (s.rowGranule i p n).2 ↔ EdgesClosed s := by
  have first := s.firstRead_edges p n i (.rowReread n i)
  fun_cases State.rowGranule s i p n
  case case4 h => simpa using snd_edges_of_eq h first
  case case5 => exact first
  all_goals rfl

@[simp] theorem State.storedGroup_edges (s : State) (i a : Nat) : EdgesClosed (s.storedGroup i a).2 ↔ EdgesClosed s := by
  unfold State.storedGroup; dsimp only; split <;> simp

@[simp] theorem execReadyRaise_edges (c : CellId) (s : State) (closed : EdgesClosed s) : EdgesClosed (nextOf s (execReadyRaise c s)) := by
  simp [closed, execReadyRaise]

@[simp] theorem State.spineGroup_edges (s : State) (i c : Nat) : EdgesClosed (s.spineGroup i c).2 ↔ EdgesClosed s := by
  unfold State.spineGroup
  dsimp only
  split
  · simp [apply_ite Prod.snd]
  · split
    · rfl
    · split
      · split <;> simp [snd_edges_of_eq ‹State.storedGroup _ _ _ = _› (State.storedGroup_edges _ _ _)]
      · rfl

@[simp] theorem State.discardRow_edges (s : State) (i c : Nat) : EdgesClosed (s.discardRow i c) ↔ EdgesClosed s := by
  unfold State.discardRow; split <;> simp

@[simp] theorem execConfigGroupSend_edges (c : CellId) (spine : Bool) (s : State) (closed : EdgesClosed s) :
    EdgesClosed (nextOf s (execConfigGroupSend c spine s)) := by
  fun_cases execConfigGroupSend c spine s
  case case2 h => simp [closed, snd_edges_of_eq h (s.spineGroup_edges _ _)]
  case case3 h => simp [closed, snd_edges_of_eq h (s.spineGroup_edges _ _)]
  all_goals simp [closed]

@[simp] theorem State.configError_edges (s : State) (c : Nat) : EdgesClosed (s.configError c) ↔ EdgesClosed s := by
  unfold State.configError; split <;> simp

@[simp] theorem State.flitOfGroup_edges (s : State) (c track : Nat) (err : FlitErr) (g : Group) :
    EdgesClosed (s.flitOfGroup c track err g).2 ↔ EdgesClosed s := by
  unfold State.flitOfGroup; split <;> simp

@[simp] theorem execConfigGroupReceive_edges (c : CellId) (track : Fin 4) (err : FlitErr) (s : State) (closed : EdgesClosed s) :
    EdgesClosed (nextOf s (execConfigGroupReceive c track err s)) := by
  unfold execConfigGroupReceive; split <;> simp [closed]

theorem State.nextCycle_edges {s s1 : State} {c : Nat} (h : s.nextCycle c = some s1) (closed : EdgesClosed s) : EdgesClosed s1 := by
  unfold State.nextCycle at h
  obtain ⟨u, -, rfl⟩ := Option.map_eq_some_iff.mp h
  simp [closed]

@[simp] theorem execPaneClearing_edges (c : CellId) (s : State) (closed : EdgesClosed s) : EdgesClosed (nextOf s (execPaneClearing c s)) := by
  fun_cases execPaneClearing c s
  case case3 => simp +zetaDelta [State.nextCycle_edges ‹_ = some _› closed]
  all_goals exact closed

@[simp] theorem State.cellErrors_edges (s : State) (c code : Nat) (infos : List Nat) : EdgesClosed (s.cellErrors c code infos) ↔ EdgesClosed s := by
  simp [State.cellErrors]

@[simp] theorem execConfigCommit_edges (c : CellId) (s : State) (closed : EdgesClosed s) : EdgesClosed (nextOf s (execConfigCommit c s)) := by
  fun_cases execConfigCommit c s <;> simp +zetaDelta [closed]

/-! ### Sections -/

@[simp] theorem State.closeContext_edges (s : State) (i : Nat) (x : StreamCtx) : EdgesClosed (s.closeContext i x) ↔ EdgesClosed s := by
  simp [State.closeContext]

@[simp] theorem State.passSamples_edges (s : State) (i : Nat) : EdgesClosed (s.passSamples i) ↔ EdgesClosed s := by simp [State.passSamples]

@[simp] theorem State.override_edges (s : State) (i code : Nat) : EdgesClosed (s.override i code) ↔ EdgesClosed s := by rfl

@[simp] theorem State.raiseProtect_edges (s : State) (i : Nat) (c : ProtCause) : EdgesClosed (s.raiseProtect i c) ↔ EdgesClosed s := by rfl

@[simp] theorem State.protectTarget_edges (s : State) (i : Nat) : EdgesClosed (s.protectTarget i) ↔ EdgesClosed s := by simp [State.protectTarget]

@[simp] theorem State.switchStep_edges (s : State) (i : Nat) : EdgesClosed (s.switchStep i) ↔ EdgesClosed s := by simp [State.switchStep]

@[simp] theorem State.reloadCells_edges (s : State) (i : Nat) : EdgesClosed (s.reloadCells i) ↔ EdgesClosed s := by simp [State.reloadCells]

@[simp] theorem State.relocate_edges (s : State) (i b : Nat) : EdgesClosed (s.relocate i b) ↔ EdgesClosed s := by rfl

@[simp] theorem State.quarantineUnit_edges (s : State) (i next : Nat) (r : UnitRef) : EdgesClosed (s.quarantineUnit i next r) ↔ EdgesClosed s := by
  fun_cases State.quarantineUnit s i next r
  case case2 => simp +zetaDelta [State.shiftRow_edges ‹_ = some _›]
  all_goals simp +zetaDelta

@[simp] theorem execSectionClose_edges (sid : SuiteId) (s : State) (closed : EdgesClosed s) : EdgesClosed (nextOf s (execSectionClose sid s)) := by
  simp [closed, execSectionClose]

@[simp] theorem State.loadContext_edges (s : State) (i : Nat) (x : StreamCtx) (l : List (StreamCtx × BitVec 512)) :
    EdgesClosed (s.loadContext i x l) ↔ EdgesClosed s := by simp [State.loadContext]

@[simp] theorem State.endRecovery_edges (s : State) (i : Nat) (redo : Bool) : EdgesClosed (s.endRecovery i redo) ↔ EdgesClosed s := by
  simp [State.endRecovery]

@[simp] theorem execSectionStart_edges (sid : SuiteId) (s : State) (closed : EdgesClosed s) : EdgesClosed (nextOf s (execSectionStart sid s)) := by
  fun_cases execSectionStart sid s
  case case3 => simp +zetaDelta [State.waitBoundary_edges ‹_ = some _› closed]
  all_goals exact closed

@[simp] theorem State.beginSuite_edges (s : State) (i : Nat) : EdgesClosed (s.beginSuite i) ↔ EdgesClosed s := by simp [State.beginSuite]

@[simp] theorem execRegulatorRampDone_edges (b : BayId) (s : State) (closed : EdgesClosed s) :
    EdgesClosed (nextOf s (execRegulatorRampDone b s)) := by
  fun_cases execRegulatorRampDone b s <;> simp +zetaDelta [closed]

@[simp] theorem execDutyWithholdEnd_edges (sid : SuiteId) (s : State) (closed : EdgesClosed s) :
    EdgesClosed (nextOf s (execDutyWithholdEnd sid s)) := by
  simp [closed, execDutyWithholdEnd]

/-! ### Mailbox commands, rings and resets by the host -/

@[simp] theorem openSession_edges (t : Taken) (s : State) : EdgesClosed (openSession t s) ↔ EdgesClosed s := by
  fun_cases openSession t s <;> simp +zetaDelta

@[simp] theorem execSessionOpen_edges (t : Nat) (s : State) (closed : EdgesClosed s) : EdgesClosed (nextOf s (execSessionOpen t s)) := by
  simp [closed, execSessionOpen]

@[simp] theorem execSessionClose_edges (t : Nat) (s : State) (closed : EdgesClosed s) : EdgesClosed (nextOf s (execSessionClose t s)) := by
  simp [closed, execSessionClose]

@[simp] theorem execDeviceStatus_edges (t : Nat) (s : State) (closed : EdgesClosed s) : EdgesClosed (nextOf s (execDeviceStatus t s)) := by
  simp [closed, execDeviceStatus]

@[simp] theorem execSuiteStart_edges (t : Nat) (s : State) (closed : EdgesClosed s) : EdgesClosed (nextOf s (execSuiteStart t s)) := by
  rw [execSuiteStart, nextOf_next]
  refine runCommand_edges _ _ _ _ _ _ (fun t s closed => ?_) closed
  dsimp only
  split <;> simp [closed]

@[simp] theorem State.askStop_edges (s : State) (i : Nat) : EdgesClosed (s.askStop i) ↔ EdgesClosed s := by simp [State.askStop]

@[simp] theorem execSuiteStop_edges (t : Nat) (s : State) (closed : EdgesClosed s) : EdgesClosed (nextOf s (execSuiteStop t s)) := by
  rw [execSuiteStop, nextOf_next]
  refine runCommand_edges _ _ _ _ _ _ (fun t s closed => ?_) closed
  dsimp only
  split <;> simp [closed]

@[simp] theorem State.forceStop_edges (s : State) (i : Nat) : EdgesClosed (s.forceStop i) ↔ EdgesClosed s := by simp [State.forceStop]

@[simp] theorem execSuiteStopForce_edges (t : Nat) (s : State) (closed : EdgesClosed s) : EdgesClosed (nextOf s (execSuiteStopForce t s)) := by
  rw [execSuiteStopForce, nextOf_next]
  refine runCommand_edges _ _ _ _ _ _ (fun t s closed => ?_) closed
  dsimp only
  split <;> simp [closed]

@[simp] theorem submit_edges (t : Taken) (s : State) : EdgesClosed (submit t s) ↔ EdgesClosed s := by
  unfold submit
  dsimp only
  split
  · simp
  · split
    · simp
    · split
      · split
        · rw [State.finish_edges]
          split <;> simp
        · simp
      · simp

@[simp] theorem execSeqSubmit_edges (t : Nat) (s : State) (closed : EdgesClosed s) : EdgesClosed (nextOf s (execSeqSubmit t s)) := by
  simp [closed, execSeqSubmit]

@[simp] theorem cancel_edges (t : Taken) (s : State) : EdgesClosed (cancel t s) ↔ EdgesClosed s := by
  fun_cases cancel t s <;> simp

@[simp] theorem execSeqCancel_edges (t : Nat) (s : State) (closed : EdgesClosed s) : EdgesClosed (nextOf s (execSeqCancel t s)) := by
  simp [closed, execSeqCancel]

@[simp] theorem State.setTarget_edges (s : State) (i : Nat) (v : BitVec 2) (policy : Bool) :
    EdgesClosed (s.setTarget i v policy) ↔ EdgesClosed s := by
  simp [State.setTarget]

@[simp] theorem execPolicySetDevice_edges (t : Nat) (s : State) (closed : EdgesClosed s) : EdgesClosed (nextOf s (execPolicySetDevice t s)) := by
  simp [closed, execPolicySetDevice]

@[simp] theorem execPolicySetSuite_edges (t : Nat) (s : State) (closed : EdgesClosed s) : EdgesClosed (nextOf s (execPolicySetSuite t s)) := by
  rw [execPolicySetSuite, nextOf_next]
  refine runCommand_edges _ _ _ _ _ _ (fun t s closed => ?_) closed
  dsimp only
  split <;> simp [closed]

@[simp] theorem execPolicySetSplit_edges (t : Nat) (s : State) (closed : EdgesClosed s) : EdgesClosed (nextOf s (execPolicySetSplit t s)) := by
  rw [execPolicySetSplit, nextOf_next]
  refine runCommand_edges _ _ _ _ _ _ (fun t s closed => ?_) closed
  dsimp only
  split <;> simp [closed]

@[simp] theorem execCounterConfig_edges (t : Nat) (s : State) (closed : EdgesClosed s) : EdgesClosed (nextOf s (execCounterConfig t s)) := by
  rw [execCounterConfig, nextOf_next]
  refine runCommand_edges _ _ _ _ _ _ (fun t s closed => ?_) closed
  dsimp only
  split <;> simp [closed]

@[simp] theorem execSampleConfig_edges (t : Nat) (s : State) (closed : EdgesClosed s) : EdgesClosed (nextOf s (execSampleConfig t s)) := by
  rw [execSampleConfig, nextOf_next]
  refine runCommand_edges _ _ _ _ _ _ (fun t s closed => ?_) closed
  dsimp only
  split
  · simp [closed]
  · split <;> simp [closed]

@[simp] theorem execLeaseAcquire_edges (t : Nat) (s : State) (closed : EdgesClosed s) : EdgesClosed (nextOf s (execLeaseAcquire t s)) := by
  simp [closed, execLeaseAcquire]

@[simp] theorem execLeaseRelease_edges (t : Nat) (s : State) (closed : EdgesClosed s) : EdgesClosed (nextOf s (execLeaseRelease t s)) := by
  simp [closed, execLeaseRelease]

@[simp] theorem execLogRead_edges (t : Nat) (s : State) (closed : EdgesClosed s) : EdgesClosed (nextOf s (execLogRead t s)) := by
  simp [closed, execLogRead]

@[simp] theorem execDeviceResetWarm_edges (t : Nat) (s : State) (closed : EdgesClosed s) : EdgesClosed (nextOf s (execDeviceResetWarm t s)) := by
  rw [execDeviceResetWarm, nextOf_next]
  refine runCommand_edges _ _ _ _ _ _ (fun t s closed => ?_) closed
  split <;> simp [closed]

@[simp] theorem State.beginDrain_edges (s : State) (mode : Nat) : EdgesClosed (s.beginDrain mode) ↔ EdgesClosed s := by simp [State.beginDrain]

@[simp] theorem execDeviceResetDrainedWarm_edges (t : Nat) (s : State) (closed : EdgesClosed s) :
    EdgesClosed (nextOf s (execDeviceResetDrainedWarm t s)) := by
  simp [closed, execDeviceResetDrainedWarm]

@[simp] theorem execDeviceResetDrainedQuiesce_edges (t : Nat) (s : State) (closed : EdgesClosed s) :
    EdgesClosed (nextOf s (execDeviceResetDrainedQuiesce t s)) := by
  simp [closed, execDeviceResetDrainedQuiesce]

@[simp] theorem execDeviceResetRepairRetest_edges (t : Nat) (s : State) (closed : EdgesClosed s) :
    EdgesClosed (nextOf s (execDeviceResetRepairRetest t s)) := by
  rw [execDeviceResetRepairRetest, nextOf_next]
  refine runCommand_edges _ _ _ _ _ _ (fun t s closed => ?_) closed
  split <;> simp [closed]

@[simp] theorem execDrainTimeout_edges (sid : SuiteId) (s : State) (closed : EdgesClosed s) : EdgesClosed (nextOf s (execDrainTimeout sid s)) := by
  simp [closed, execDrainTimeout]

@[simp] theorem execDrainComplete_edges (s : State) (closed : EdgesClosed s) : EdgesClosed (nextOf s (execDrainComplete s)) := by
  simp [closed, execDrainComplete]

@[simp] theorem State.ringDoorbell_edges (s : State) (f : HostFn) (v : W64) : EdgesClosed (s.ringDoorbell f v) ↔ EdgesClosed s := by rfl

@[simp] theorem State.ringHead_edges (s : State) (f : HostFn) (v : W64) : EdgesClosed (s.ringHead f v) ↔ EdgesClosed s := by rfl

@[simp] theorem execCommandDoorbell_edges (f : HostFn) (v : W64) (s : State) (closed : EdgesClosed s) :
    EdgesClosed (nextOf s (execCommandDoorbell f v s)) := by
  simp [closed, execCommandDoorbell]

@[simp] theorem execCompletionHeadWrite_edges (f : HostFn) (v : W64) (s : State) (closed : EdgesClosed s) :
    EdgesClosed (nextOf s (execCompletionHeadWrite f v s)) := by
  simp [closed, execCompletionHeadWrite]

@[simp] theorem execRingEnable_edges (f : HostFn) (cpl : Bool) (v : W64) (s : State) :
    EdgesClosed (nextOf s (execRingEnable f cpl v s)) ↔ EdgesClosed s := by
  simp [execRingEnable]

@[simp] theorem execCommandFetch_edges (f : HostFn) (entry : HostRead) (s : State) (closed : EdgesClosed s) :
    EdgesClosed (nextOf s (execCommandFetch f entry s)) := by
  simp [closed, execCommandFetch]

@[simp] theorem State.resetRing_edges (s : State) (f : HostFn) (cpl : Bool) : EdgesClosed (s.resetRing f cpl) ↔ EdgesClosed s := by rfl

@[simp] theorem State.resetVectors_edges (s : State) (f : HostFn) : EdgesClosed (s.resetVectors f) ↔ EdgesClosed s := by rfl

@[simp] theorem State.loseCompletions_edges (s : State) (f : HostFn) : EdgesClosed (s.loseCompletions f) ↔ EdgesClosed s := by rfl

@[simp] theorem execFlrPf_edges (s : State) (closed : EdgesClosed s) : EdgesClosed (nextOf s (execFlrPf s)) := by simp [closed, execFlrPf]

@[simp] theorem execFlrVf_edges (sid : SuiteId) (s : State) (closed : EdgesClosed s) : EdgesClosed (nextOf s (execFlrVf sid s)) := by
  simp [closed, execFlrVf]

@[simp] theorem execPerstN_edges (s : State) (closed : EdgesClosed s) : EdgesClosed (nextOf s (execPerstN s)) := by simp [closed, execPerstN]

@[simp] theorem execPerstNDeassertion_edges (s : State) (closed : EdgesClosed s) : EdgesClosed (nextOf s (execPerstNDeassertion s)) := by
  simp [closed, execPerstNDeassertion]

@[simp] theorem execDeviceFatalError_edges (s : State) (closed : EdgesClosed s) : EdgesClosed (nextOf s (execDeviceFatalError s)) := by
  simp [closed, execDeviceFatalError]

/-! ### Gacon links -/

@[simp] theorem State.discardSends_edges (s : State) (g : Nat) : EdgesClosed (s.discardSends g) ↔ EdgesClosed s := by simp [State.discardSends]

@[simp] theorem State.portDown_edges (s : State) (g : Nat) (st : PortState) (reason : Nat) :
    EdgesClosed (s.portDown g st reason) ↔ EdgesClosed s := by
  simp [State.portDown]

@[simp] theorem State.beginSwap_edges (s : State) (g : Nat) : EdgesClosed (s.beginSwap g) ↔ EdgesClosed s := by
  unfold State.beginSwap
  dsimp only
  split
  · rfl
  · split <;> simp

@[simp] theorem State.failLane_edges (s : State) (g lane : Nat) : EdgesClosed (s.failLane g lane) ↔ EdgesClosed s := by simp [State.failLane]

@[simp] theorem State.reportReplay_edges (s : State) (g i : Nat) : EdgesClosed (s.reportReplay g i) ↔ EdgesClosed s := by simp [State.reportReplay]

@[simp] theorem State.countFec_edges (s : State) (g : Nat) (fec : FecResult) : EdgesClosed (s.countFec g fec) ↔ EdgesClosed s := by
  simp [State.countFec]

@[simp] theorem State.replayFrom_edges (s : State) (g : Nat) (l : List (BitVec 12 × BitVec 2144)) :
    EdgesClosed (s.replayFrom g l) ↔ EdgesClosed s := by
  simp [State.replayFrom]

@[simp] theorem State.meterGacon_edges (s : State) (i n : Nat) : EdgesClosed (s.meterGacon i n) ↔ EdgesClosed s := by rfl

@[simp] theorem State.assemble_edges (s : State) (g vc : Nat) (bs : List Byte) : EdgesClosed (s.assemble g vc bs) ↔ EdgesClosed s := by
  simp [State.assemble]

@[simp] theorem execLinkFlitReceive_edges (g : GPort) (flit : BitVec 2144) (fec : FecResult) (s : State) (closed : EdgesClosed s) :
    EdgesClosed (nextOf s (execLinkFlitReceive g flit fec s)) := by simp [closed, execLinkFlitReceive]

@[simp] theorem State.sendData_edges (s : State) (g vc : Nat) : EdgesClosed (s.sendData g vc) ↔ EdgesClosed s := by
  fun_cases State.sendData s g vc
  all_goals
    have kept := third_edges_of_eq (s := s) ‹_ = (_, _, _)› (by
      split
      · rfl
      · split
        · rfl
        · dsimp only
          split <;> simp)
    simp [kept]

@[simp] theorem execFlitOpportunity_edges (g : GPort) (s : State) (closed : EdgesClosed s) : EdgesClosed (nextOf s (execFlitOpportunity g s)) := by
  fun_cases execFlitOpportunity g s <;> simp +zetaDelta [closed]

@[simp] theorem execGaconIdle_edges (g : GPort) (flit : BitVec 2144) (s : State) (closed : EdgesClosed s) :
    EdgesClosed (nextOf s (execGaconIdle g flit s)) := by
  simp [closed, execGaconIdle]

@[simp] theorem execGaconNak_edges (g : GPort) (flit : BitVec 2144) (s : State) (closed : EdgesClosed s) :
    EdgesClosed (nextOf s (execGaconNak g flit s)) := by
  simp [closed, execGaconNak]

@[simp] theorem execNakTimeout_edges (g : GPort) (s : State) (closed : EdgesClosed s) : EdgesClosed (nextOf s (execNakTimeout g s)) := by
  simp [closed, execNakTimeout]

@[simp] theorem execReplayTimeout_edges (g : GPort) (s : State) (closed : EdgesClosed s) : EdgesClosed (nextOf s (execReplayTimeout g s)) := by
  simp [closed, execReplayTimeout]

@[simp] theorem execPartnerSignalLost_edges (g : GPort) (s : State) (closed : EdgesClosed s) :
    EdgesClosed (nextOf s (execPartnerSignalLost g s)) := by
  simp [closed, execPartnerSignalLost]

@[simp] theorem State.writeGcCtl_edges (s : State) (f : HostFn) (g : Nat) (v : W64) : EdgesClosed (s.writeGcCtl f g v) ↔ EdgesClosed s := by
  simp [State.writeGcCtl]

@[simp] theorem execGcCtlTrain_edges (f : HostFn) (g : GPort) (v : W64) (s : State) (closed : EdgesClosed s) :
    EdgesClosed (nextOf s (execGcCtlTrain f g v s)) := by
  simp [closed, execGcCtlTrain]

@[simp] theorem execGcCtlDown_edges (f : HostFn) (g : GPort) (v : W64) (s : State) (closed : EdgesClosed s) :
    EdgesClosed (nextOf s (execGcCtlDown f g v s)) := by
  simp [closed, execGcCtlDown]

@[simp] theorem execDetect_edges (g : GPort) (signal : BitVec 10) (s : State) (closed : EdgesClosed s) :
    EdgesClosed (nextOf s (execDetect g signal s)) := by
  simp [closed, execDetect]

@[simp] theorem execEqualise_edges (g : GPort) (rxGood txGood : BitVec 10) (slow : Bool) (s : State) (closed : EdgesClosed s) :
    EdgesClosed (nextOf s (execEqualise g rxGood txGood slow s)) := by simp [closed, execEqualise]

@[simp] theorem execNegotiate_edges (g : GPort) (cap : CapBlock) (s : State) (closed : EdgesClosed s) :
    EdgesClosed (nextOf s (execNegotiate g cap s)) := by
  simp [closed, execNegotiate]

@[simp] theorem execAlign_edges (g : GPort) (lock : Bool) (s : State) (closed : EdgesClosed s) : EdgesClosed (nextOf s (execAlign g lock s)) := by
  simp [closed, execAlign]

@[simp] theorem execDomainIdWrite_edges (f : HostFn) (v : W64) (s : State) : EdgesClosed (nextOf s (execDomainIdWrite f v s)) ↔ EdgesClosed s := by
  simp [execDomainIdWrite]

@[simp] theorem execLaneFailure_edges (g : GPort) (rx : Bool) (lane : Fin 10) (s : State) (closed : EdgesClosed s) :
    EdgesClosed (nextOf s (execLaneFailure g rx lane s)) := by simp [closed, execLaneFailure]

@[simp] theorem execGaconSwap_edges (g : GPort) (flit : BitVec 2144) (s : State) (closed : EdgesClosed s) :
    EdgesClosed (nextOf s (execGaconSwap g flit s)) := by
  simp [closed, execGaconSwap]

@[simp] theorem execGaconSwapAck_edges (g : GPort) (flit : BitVec 2144) (s : State) (closed : EdgesClosed s) :
    EdgesClosed (nextOf s (execGaconSwapAck g flit s)) := by
  simp [closed, execGaconSwapAck]

@[simp] theorem execFailoverSwitch_edges (g : GPort) (rx : Bool) (s : State) (closed : EdgesClosed s) :
    EdgesClosed (nextOf s (execFailoverSwitch g rx s)) := by
  unfold execFailoverSwitch; dsimp only; split <;> simp [closed]

/-! ### Gacon transactions -/

@[simp] theorem State.forwardTxn_edges (s : State) (g vc : Nat) (t : Txn) : EdgesClosed (s.forwardTxn g vc t) ↔ EdgesClosed s := by
  simp [State.forwardTxn]

@[simp] theorem State.useRemoteSlot_edges (s : State) (p n : Nat) (closed : EdgesClosed s) : EdgesClosed (s.useRemoteSlot p n) := by
  unfold State.useRemoteSlot; dsimp only; split <;> simp [closed]

@[simp] theorem State.storeWrite_edges (s : State) (g vc : Nat) (t : Txn) (n a : Nat) : EdgesClosed (s.storeWrite g vc t n a) ↔ EdgesClosed s := by
  simp [State.storeWrite]

@[simp] theorem State.openTrack_edges (s : State) : EdgesClosed (s.openTrack).2 ↔ EdgesClosed s := by rfl

@[simp] theorem State.sendStrips_edges (s : State) (g w : Nat) (t : Txn) (c a : Nat) : EdgesClosed (s.sendStrips g w t c a) ↔ EdgesClosed s := by
  simp [State.sendStrips]

@[simp] theorem execGaconWrite_edges (g : GPort) (vc : Vc) (s : State) (closed : EdgesClosed s) : EdgesClosed (nextOf s (execGaconWrite g vc s)) := by
  fun_cases execGaconWrite g vc s <;> simp [closed]

@[simp] theorem State.answerRead_edges (s : State) (g vc : Nat) (t : Txn) (n a : Nat) : EdgesClosed (s.answerRead g vc t n a) ↔ EdgesClosed s := by
  fun_cases State.answerRead s g vc t n a <;> simp

@[simp] theorem execGaconRead_edges (g : GPort) (vc : Vc) (s : State) (closed : EdgesClosed s) : EdgesClosed (nextOf s (execGaconRead g vc s)) := by
  fun_cases execGaconRead g vc s
  case case1 => exact closed
  all_goals simp +zetaDelta [closed]

@[simp] theorem execGaconReturn_edges (g : GPort) (vc : Vc) (s : State) (closed : EdgesClosed s) :
    EdgesClosed (nextOf s (execGaconReturn g vc s)) := by
  fun_cases execGaconReturn g vc s <;> simp +zetaDelta [closed]

@[simp] theorem execGaconMsg_edges (g : GPort) (vc : Vc) (s : State) (closed : EdgesClosed s) : EdgesClosed (nextOf s (execGaconMsg g vc s)) := by
  unfold execGaconMsg; split <;> simp [closed]

@[simp] theorem execGaconBarcmd_edges (g : GPort) (vc : Vc) (s : State) (closed : EdgesClosed s) :
    EdgesClosed (nextOf s (execGaconBarcmd g vc s)) := by
  unfold execGaconBarcmd; split <;> simp [closed]

@[simp] theorem execGaconNotice_edges (g : GPort) (vc : Vc) (s : State) (closed : EdgesClosed s) :
    EdgesClosed (nextOf s (execGaconNotice g vc s)) := by
  unfold execGaconNotice; split <;> simp [closed]

theorem State.askTile_edges {s s1 : State} {g i : Nat} {x : StreamCtx} (h : s.askTile g i x = some s1) (closed : EdgesClosed s) : EdgesClosed s1 := by
  unfold State.askTile at h
  dsimp only at h
  split at h
  · cases h
  · split at h <;> cases h <;> simp [closed]

@[simp] theorem State.sendTile_edges (s : State) (g i : Nat) (x : StreamCtx) (t a : Nat) : EdgesClosed (s.sendTile g i x t a) ↔ EdgesClosed s := by
  simp [State.sendTile]

@[simp] theorem State.settleGaconIndex_edges (s : State) (g : Nat) : EdgesClosed (s.settleGaconIndex g) ↔ EdgesClosed s := by
  simp [State.settleGaconIndex]

@[simp] theorem execRemoteSlot_edges (p : PortId) (s : State) (closed : EdgesClosed s) : EdgesClosed (nextOf s (execRemoteSlot p s)) := by
  unfold execRemoteSlot
  split
  · exact closed
  split
  · exact closed
  extract_lets s1 s2 die
  have slot : EdgesClosed s2 := by simp [closed, s2, s1]
  split
  · exact slot
  extract_lets i g s3 xs s4 here ready
  have asked : EdgesClosed s4 := by
    have settled : EdgesClosed s3 := by simp [s3, slot]
    unfold s4
    split
    · next e =>
      obtain ⟨x, -, e⟩ := List.exists_of_findSome?_eq_some e
      exact State.askTile_edges e settled
    · exact settled
  clear_value s4
  split
  · simp [asked]
  · split
    · exact asked
    · extract_lets v
      split
      · exact asked
      split
      · rw [nextOf_next]
        split <;> simp [asked]
      split <;> simp [asked]

/-! ### Metering -/

@[simp] theorem State.writeMeter_edges (s : State) (i : Nat) (m : Meter) (stop : W64) (flags : Nat) :
    EdgesClosed (s.writeMeter i m stop flags) ↔ EdgesClosed s := by rfl

@[simp] theorem State.startMeter_edges (s : State) (i : Nat) : EdgesClosed (s.startMeter i) ↔ EdgesClosed s := by rfl

@[simp] theorem State.closeMeter_edges (s : State) (i : Nat) : EdgesClosed (s.closeMeter i) ↔ EdgesClosed s := by rfl

@[simp] theorem State.endMeter_edges (s : State) (i : Nat) : EdgesClosed (s.endMeter i) ↔ EdgesClosed s := by rfl

@[simp] theorem State.recoverMeters_edges (s : State) : EdgesClosed (s.recoverMeters) ↔ EdgesClosed s := by simp [State.recoverMeters]

@[simp] theorem execMeterPeriodBoundary_edges (s : State) (closed : EdgesClosed s) : EdgesClosed (nextOf s (execMeterPeriodBoundary s)) := by
  simp [closed, execMeterPeriodBoundary]

@[simp] theorem execMeterCheckpoint_edges (s : State) (closed : EdgesClosed s) : EdgesClosed (nextOf s (execMeterCheckpoint s)) := by
  simp [closed, execMeterCheckpoint]

@[simp] theorem execMeterCtlWrite_edges (f : HostFn) (v : W64) (s : State) : EdgesClosed (nextOf s (execMeterCtlWrite f v s)) ↔ EdgesClosed s := by
  simp [execMeterCtlWrite]

@[simp] theorem execMeterRead_edges (t : Nat) (s : State) (closed : EdgesClosed s) : EdgesClosed (nextOf s (execMeterRead t s)) := by
  simp [closed, execMeterRead]

@[simp] theorem execTimeSet_edges (t : Nat) (s : State) (closed : EdgesClosed s) : EdgesClosed (nextOf s (execTimeSet t s)) := by
  simp [closed, execTimeSet]

/-! ### Loading of images -/

/-- The bays of a new suite are CLOSED (R485). -/
@[simp] theorem State.createSuite_edges (s : State) (h m : List Byte) (r : Reserved) (closed : EdgesClosed s) :
    EdgesClosed (s.createSuite h m r) := by
  unfold State.createSuite
  extract_lets o bays suite s1 s2
  have shut : EdgesClosed s2 := by
    refine edgesClosed_foldl (fun _ _ _ closed => edgesClosed_setBay closed (edgeShut_of_closed rfl rfl)) ?_
    simp [s1, closed]
  clear_value s2
  simp +zetaDelta [shut]

@[simp] theorem State.logImage_edges (s : State) (code : Nat) : EdgesClosed (s.logImage code) ↔ EdgesClosed s := by rfl

@[simp] theorem createFrom_edges (s : State) (b : List Byte) (closed : EdgesClosed s) : EdgesClosed (createFrom s b).2.2 := by
  fun_cases createFrom s b <;> simp [closed]

@[simp] theorem execSuiteCreate_edges (t : Nat) (buf : HostRead) (s : State) (closed : EdgesClosed s) :
    EdgesClosed (nextOf s (execSuiteCreate t buf s)) := by
  rw [execSuiteCreate, nextOf_next]
  refine runCommand_edges _ _ _ _ _ _ (fun t s closed => ?_) closed
  dsimp only
  split <;> simp [closed]

@[simp] theorem State.writeRows_edges (s : State) (i : Nat) (q : BodyMap) (b : List Byte) (k : Nat) (sec : Section) :
    EdgesClosed (s.writeRows i q b k sec) ↔ EdgesClosed s :=
  iff_of_eq (s.writeRows_keeps EdgesClosed (fun s a bs => propext (s.hbmWrite_edges a bs)) i q b k sec)

@[simp] theorem State.writeWindows_edges (s : State) (i : Nat) (m : List Byte) (q : BodyMap) (b : List Byte) :
    EdgesClosed (s.writeWindows i m q b) ↔ EdgesClosed s :=
  iff_of_eq (s.writeWindows_keeps EdgesClosed (fun s a bs => propext (s.hbmWrite_edges a bs)) i m q b)

theorem applyPatch_edges {i : Nat} {h peers : List Byte} {q : BodyMap} {p : List Byte} {a c : List Byte × State}
    (e : applyPatch i h peers q p a = some c) (closed : EdgesClosed a.2) : EdgesClosed c.2 := by
  unfold applyPatch at e
  simp only [Option.ite_none_left_eq_some] at e
  obtain ⟨v, -, e⟩ := Option.bind_eq_some_iff.mp e.2
  split at e
  · split at e
    · obtain ⟨-, e⟩ := Option.ite_none_right_eq_some.mp e
      cases e
      exact closed
    · cases e
  split at e
  · obtain ⟨-, e⟩ := Option.ite_none_right_eq_some.mp e
    cases e
    exact closed
  split at e
  · obtain ⟨-, e⟩ := Option.ite_none_right_eq_some.mp e
    cases e
    exact (State.hbmWrite_edges _ _ _).mpr closed
  split at e
  · obtain ⟨-, e⟩ := Option.ite_none_right_eq_some.mp e
    cases e
    exact closed
  · cases e

theorem applyPatches_edges {i : Nat} {h peers : List Byte} {q : BodyMap} {l : List Nat} {a c : List Byte × State}
    (e : applyPatches i h peers q l a = some c) (closed : EdgesClosed a.2) : EdgesClosed c.2 := by
  induction l generalizing a with
  | nil =>
    cases e
    exact closed
  | cons k l ih =>
    obtain ⟨b, hb, e⟩ := Option.bind_eq_some_iff.mp e
    exact ih e (applyPatch_edges hb closed)

theorem State.loadBody_edges {s t : State} {i : Nat} {h m cek cipher peers : List Byte} (e : s.loadBody i h m cek cipher peers = some t)
    (closed : EdgesClosed s) :
    EdgesClosed t := by
  unfold State.loadBody at e
  dsimp only at e
  split at e
  · cases e
  · obtain ⟨b, -, e⟩ := Option.bind_eq_some_iff.mp e
    split at e
    · cases e
    · obtain ⟨p, hp, e⟩ := Option.bind_eq_some_iff.mp e
      obtain ⟨secs, -, e⟩ := Option.bind_eq_some_iff.mp e
      obtain ⟨descs, -, e⟩ := Option.bind_eq_some_iff.mp e
      obtain ⟨rests, -, rfl⟩ := Option.map_eq_some_iff.mp e
      have k := applyPatches_edges hp (by simp [closed])
      simp [k]

@[simp] theorem State.abandonLoad_edges (s : State) (i : Nat) : EdgesClosed (s.abandonLoad i) ↔ EdgesClosed s := by simp [State.abandonLoad]

@[simp] theorem State.clearForLoad_edges (s : State) (i : Nat) (h m : List Byte) (closed : EdgesClosed s) : EdgesClosed (s.clearForLoad i h m) := by
  simp [closed, State.clearForLoad]

@[simp] theorem State.storeImage_edges (s : State) (cek image : List Byte) : EdgesClosed (s.storeImage cek image).2 ↔ EdgesClosed s := by rfl

@[simp] theorem startLoad_edges (s : State) (t : Taken) (i : Nat) (created : Bool) (img : List Byte) (closed : EdgesClosed s) :
    EdgesClosed (startLoad s t i created img).2 := by
  fun_cases startLoad s t i created img <;> simp +zetaDelta [closed]

@[simp] theorem loadInto_edges (s : State) (r : LoadRun) (img : List Byte) (len : Nat) (peers : HostRead) (keep : Bool) (closed : EdgesClosed s) :
    EdgesClosed (loadInto s r img len peers keep).2.2 := by
  fun_cases loadInto s r img len peers keep
  case case1 => simp +zetaDelta [closed]
  case case2 => simp +zetaDelta [closed]
  case case3 =>
    have loaded := State.loadBody_edges ‹_ = some _› closed
    have stored := snd_edges_of_eq ‹State.storeImage _ _ _ = _› (State.storeImage_edges _ _ _)
    exact stored.mpr loaded
  case case4 => exact State.loadBody_edges ‹_ = some _› closed

@[simp] theorem State.destroySuite_edges (s : State) (i : Nat) (closed : EdgesClosed s) : EdgesClosed (s.destroySuite i) := by
  simp [closed, State.destroySuite]

@[simp] theorem State.endLoad_edges (s : State) : EdgesClosed (s.endLoad) ↔ EdgesClosed s := by rfl

@[simp] theorem State.failLoad_edges (s : State) (r : LoadRun) (t : Taken) (st : Nat) (closed : EdgesClosed s) : EdgesClosed (s.failLoad r t st) := by
  simp [closed, State.failLoad]

@[simp] theorem beginLoad_edges (buf : HostRead) (t : Taken) (s : State) (closed : EdgesClosed s) : EdgesClosed (beginLoad buf t s) := by
  have read : EdgesClosed (if param t 9 1 = 0 then s.dmaRead .pf (param t 16 8) (param t 24 8) else s) := by simp [closed]
  unfold beginLoad
  dsimp only
  generalize (if param t 9 1 = 0 then s.dmaRead .pf (param t 16 8) (param t 24 8) else s) = s1 at read
  split
  · simp [closed]
  split
  · simp [closed]
  split
  · simp [read]
  next img _ _ =>
    have made := createFrom_edges s1 img read
    split <;> split
    · simp [made]
    · split <;> simp [made]
    · simp [read]
    · split <;> simp [read]

@[simp] theorem endImage_edges (buf peers : HostRead) (t : Taken) (s : State) (r : LoadRun) (closed : EdgesClosed s) :
    EdgesClosed (endImage buf peers t s r) := by
  simp [closed, endImage]

@[simp] theorem loadImage_edges (buf peers : HostRead) (t : Taken) (s : State) (closed : EdgesClosed s) : EdgesClosed (loadImage buf peers t s) := by
  fun_cases loadImage buf peers t s <;> simp [closed]

@[simp] theorem State.abandonLoads_edges (s : State) (n : Nat) (closed : EdgesClosed s) : EdgesClosed (s.abandonLoads n) := by
  fun_cases State.abandonLoads s n <;> simp [closed]

@[simp] theorem State.zeroiseBbk_edges (s : State) (n : Nat) (closed : EdgesClosed s) : EdgesClosed (s.zeroiseBbk n) := by
  refine State.abandonLoads_edges _ _ ?_
  split <;> exact closed

@[simp] theorem execImageLoad_edges (t : Nat) (buf peers : HostRead) (s : State) (closed : EdgesClosed s) :
    EdgesClosed (nextOf s (execImageLoad t buf peers s)) := by
  rw [execImageLoad, nextOf_next]
  exact runCommand_edges _ _ _ _ _ _ (fun t s => loadImage_edges buf peers t s) closed

@[simp] theorem execImageUnload_edges (t : Nat) (s : State) (closed : EdgesClosed s) : EdgesClosed (nextOf s (execImageUnload t s)) := by
  rw [execImageUnload, nextOf_next]
  refine runCommand_edges _ _ _ _ _ _ (fun t s closed => ?_) closed
  dsimp only
  split <;> simp [closed]

@[simp] theorem execSuiteDestroy_edges (t : Nat) (s : State) (closed : EdgesClosed s) : EdgesClosed (nextOf s (execSuiteDestroy t s)) := by
  rw [execSuiteDestroy, nextOf_next]
  refine runCommand_edges _ _ _ _ _ _ (fun t s closed => ?_) closed
  dsimp only
  split <;> simp [closed]

/-! ### Power and maceration -/

@[simp] theorem State.setAlert_edges (s : State) (m : Byte) : EdgesClosed (s.setAlert m) ↔ EdgesClosed s := by rfl

@[simp] theorem State.supplyStart_edges (s : State) (closed : EdgesClosed s) : EdgesClosed (s.supplyStart) := by simp [closed, State.supplyStart]

@[simp] theorem State.lostRail_edges (s : State) (cold : Bool) : EdgesClosed (s.lostRail cold) := by simp [State.lostRail]

@[simp] theorem State.powerOn_edges (s : State) : EdgesClosed s.powerOn := edgesClosed_of_bays_nil rfl

@[simp] theorem execVaonGood_edges (s : State) (closed : EdgesClosed s) : EdgesClosed (nextOf s (execVaonGood s)) := by simp [closed, execVaonGood]

@[simp] theorem execVaonLoss_edges (s : State) : EdgesClosed (nextOf s (execVaonLoss s)) := by simp [execVaonLoss]

@[simp] theorem execVin12Good_edges (s : State) (closed : EdgesClosed s) : EdgesClosed (nextOf s (execVin12Good s)) := by
  unfold execVin12Good
  extract_lets p early s1 s2 s3
  have waited : EdgesClosed s2 := by simp [s2, s1, closed]
  have waited' : EdgesClosed s3 := by simp [s3, waited]
  clear_value s3
  split <;> simp [closed, waited']

@[simp] theorem execVin12Loss_edges (s : State) (closed : EdgesClosed s) : EdgesClosed (nextOf s (execVin12Loss s)) := by simp [closed, execVin12Loss]

@[simp] theorem execVin48Good_edges (s : State) (closed : EdgesClosed s) : EdgesClosed (nextOf s (execVin48Good s)) := by simp [closed, execVin48Good]

@[simp] theorem execVin48Loss_edges (s : State) (closed : EdgesClosed s) : EdgesClosed (nextOf s (execVin48Loss s)) := by simp [closed, execVin48Loss]

@[simp] theorem execVin48Return_edges (s : State) (closed : EdgesClosed s) : EdgesClosed (nextOf s (execVin48Return s)) := by
  simp [closed, execVin48Return]

@[simp] theorem execVbatLoss_edges (s : State) (closed : EdgesClosed s) : EdgesClosed (nextOf s (execVbatLoss s)) := by simp [closed, execVbatLoss]

@[simp] theorem execVbatGood_edges (s : State) (closed : EdgesClosed s) : EdgesClosed (nextOf s (execVbatGood s)) := by exact closed

@[simp] theorem execResonatorFailure_edges (s : State) (closed : EdgesClosed s) : EdgesClosed (nextOf s (execResonatorFailure s)) := by
  simp [closed, execResonatorFailure]

@[simp] theorem execHoldoverEnd_edges (s : State) (closed : EdgesClosed s) : EdgesClosed (nextOf s (execHoldoverEnd s)) := by
  simp [closed, execHoldoverEnd]

@[simp] theorem execBayPllLock_edges (b : BayId) (s : State) (closed : EdgesClosed s) : EdgesClosed (nextOf s (execBayPllLock b s)) := by
  simp [closed, execBayPllLock]

@[simp] theorem State.scrubPass_edges (s : State) (c : Nat) : EdgesClosed (s.scrubPass c) ↔ EdgesClosed s := by simp [State.scrubPass]

@[simp] theorem execAsleepScrubWake_edges (b : BayId) (s : State) (closed : EdgesClosed s) : EdgesClosed (nextOf s (execAsleepScrubWake b s)) := by
  simp [closed, execAsleepScrubWake]

@[simp] theorem execStackSelfRefreshEntry_edges (p : PortId) (s : State) (closed : EdgesClosed s) :
    EdgesClosed (nextOf s (execStackSelfRefreshEntry p s)) := by
  simp [closed, execStackSelfRefreshEntry]

@[simp] theorem execStackSelfRefreshExit_edges (p : PortId) (s : State) (closed : EdgesClosed s) :
    EdgesClosed (nextOf s (execStackSelfRefreshExit p s)) := by
  simp [closed, execStackSelfRefreshExit]

@[simp] theorem State.setDuty_edges (s : State) (d : BitVec 4) : EdgesClosed (s.setDuty d) ↔ EdgesClosed s := by rfl

@[simp] theorem execPowerCapLoop_edges (p10 peak : W16) (s : State) (closed : EdgesClosed s) :
    EdgesClosed (nextOf s (execPowerCapLoop p10 peak s)) := by
  fun_cases execPowerCapLoop p10 peak s <;> simp +zetaDelta [closed]

@[simp] theorem State.limitBay_edges (s : State) (c : ProtCause) (on : Bool) : EdgesClosed (s.limitBay c on) ↔ EdgesClosed s := by
  unfold State.limitBay; split <;> simp

@[simp] theorem execProtectionTrigger_edges (c : ProtCause) (s : State) (closed : EdgesClosed s) :
    EdgesClosed (nextOf s (execProtectionTrigger c s)) := by
  simp [closed, execProtectionTrigger]

@[simp] theorem execProtectionClear_edges (c : ProtCause) (s : State) (closed : EdgesClosed s) :
    EdgesClosed (nextOf s (execProtectionClear c s)) := by
  simp [closed, execProtectionClear]

@[simp] theorem execThermtrip_edges (tj : Byte) (s : State) (closed : EdgesClosed s) : EdgesClosed (nextOf s (execThermtrip tj s)) := by
  simp [closed, execThermtrip]

@[simp] theorem execThermtripRearm_edges (tj : Byte) (s : State) (closed : EdgesClosed s) : EdgesClosed (nextOf s (execThermtripRearm tj s)) := by
  simp [closed, execThermtripRearm]

@[simp] theorem State.bootFirmware_edges (s : State) : EdgesClosed (s.bootFirmware).2 ↔ EdgesClosed s := by
  fun_cases State.bootFirmware s <;> simp +zetaDelta

@[simp] theorem State.enterSafe_edges (s : State) (code : Byte) : EdgesClosed (s.enterSafe code) ↔ EdgesClosed s := by simp [State.enterSafe]

@[simp] theorem State.restStacks_edges (s : State) (bad : List PortId) : EdgesClosed (s.restStacks bad) ↔ EdgesClosed s := by rfl

@[simp] theorem State.repairRows_edges (s : State) (l : List (Fin 256 × Fin 17 × Fin 256 × Fin 32 × Nat)) :
    EdgesClosed (s.repairRows l) ↔ EdgesClosed s := by rfl

@[simp] theorem State.spareCells_edges (s : State) (l : List UnitCheck) : EdgesClosed (s.spareCells l) ↔ EdgesClosed s := by
  refine State.foldl_edges _ (fun s k => ?_) _ s
  dsimp only
  split
  · rfl
  · split
    · simp [State.shiftRow_edges ‹_ = some _›]
    · simp

@[simp] theorem State.clearMarks_edges (s : State) (units : List (UnitCheck × Nat)) (bays : List BayId) :
    EdgesClosed (s.clearMarks units bays) ↔ EdgesClosed s := by simp [State.clearMarks]

@[simp] theorem State.enterReady_edges (s : State) : EdgesClosed (s.enterReady) ↔ EdgesClosed s := by simp [State.enterReady]

@[simp] theorem State.nextMacer_edges (s : State) : EdgesClosed (s.nextMacer) ↔ EdgesClosed s := by rfl

@[simp] theorem State.logSupplies_edges (s : State) : EdgesClosed (s.logSupplies) ↔ EdgesClosed s := by simp [State.logSupplies]

@[simp] theorem execMacerationStepComplete_edges (r : MacReport) (s : State) (closed : EdgesClosed s) :
    EdgesClosed (nextOf s (execMacerationStepComplete r s)) := by
  simp [closed, execMacerationStepComplete]

/-! ### Recovery -/

@[simp] theorem State.reportCheck_edges (s : State) (k : UnitCheck) (cls info : Nat) (suite : Option Nat) :
    EdgesClosed (s.reportCheck k cls info suite) ↔ EdgesClosed s := by simp [State.reportCheck]

@[simp] theorem State.checkEffect_edges (s : State) (b : Nat) (x : UnitCheck) : EdgesClosed (s.checkEffect b x) ↔ EdgesClosed s := by
  cases x <;> simp [State.checkEffect]

@[simp] theorem execUnitCheckError_edges (k : UnitCheck) (s : State) (closed : EdgesClosed s) : EdgesClosed (nextOf s (execUnitCheckError k s)) := by
  unfold execUnitCheckError; dsimp only; split <;> simp [closed]

@[simp] theorem execRecoveryDetect_edges (sid : SuiteId) (s : State) (closed : EdgesClosed s) :
    EdgesClosed (nextOf s (execRecoveryDetect sid s)) := by
  simp [closed, execRecoveryDetect]

@[simp] theorem State.rollback_edges (s : State) (i : Nat) : EdgesClosed (s.rollback i) ↔ EdgesClosed s := by simp [State.rollback]

@[simp] theorem State.repairUnit_edges (s : State) (i : Nat) (k : UnitCheck) : EdgesClosed (s.repairUnit i k).2 ↔ EdgesClosed s := by
  unfold State.repairUnit
  dsimp only
  split
  · split
    · split <;> simp
    · rfl
  · split
    · simp [State.shiftRow_edges ‹_ = some _›]
    · simp

@[simp] theorem State.completeRecord_edges (s : State) (i log queue info : Nat) :
    EdgesClosed (s.completeRecord i log queue info) ↔ EdgesClosed s := by rfl

@[simp] theorem State.afterTest_edges (s : State) (i : Nat) (t : UnitTest) (pass : Bool) : EdgesClosed (s.afterTest i t pass) ↔ EdgesClosed s := by
  unfold State.afterTest
  dsimp only
  split <;> simp [apply_ite Prod.snd]

@[simp] theorem State.endDetect_edges (s : State) (i : Nat) : EdgesClosed (s.endDetect i) ↔ EdgesClosed s := by simp [State.endDetect]

@[simp] theorem State.settleShifts_edges (s : State) (i : Nat) : EdgesClosed (s.settleShifts i) ↔ EdgesClosed s := by simp [State.settleShifts]

@[simp] theorem execQuickTestDone_edges (sid : SuiteId) (pass : Bool) (s : State) (closed : EdgesClosed s) :
    EdgesClosed (nextOf s (execQuickTestDone sid pass s)) := by
  unfold execQuickTestDone
  dsimp only
  split
  · rw [nextOf_next]
    split <;> simp [closed]
  · split
    · exact closed
    · split <;> simp [closed, ↓State.edges_ite]

@[simp] theorem execLateralCopyDone_edges (sid : SuiteId) (s : State) (closed : EdgesClosed s) :
    EdgesClosed (nextOf s (execLateralCopyDone sid s)) := by
  simp [closed, execLateralCopyDone]

@[simp] theorem execRestoreDone_edges (sid : SuiteId) (s : State) (closed : EdgesClosed s) : EdgesClosed (nextOf s (execRestoreDone sid s)) := by
  simp [closed, execRestoreDone]

@[simp] theorem execSuiteFatalFault_edges (sid : SuiteId) (s : State) (closed : EdgesClosed s) :
    EdgesClosed (nextOf s (execSuiteFatalFault sid s)) := by
  simp [closed, execSuiteFatalFault]

theorem State.repairSlot_edges {s s1 : State} {i p cls : Nat} (h : s.repairSlot i p cls = some s1) (closed : EdgesClosed s) : EdgesClosed s1 := by
  unfold State.repairSlot at h
  obtain ⟨n, -, rfl⟩ := Option.map_eq_some_iff.mp h
  simp [closed]

@[simp] theorem execMirrorRestore_edges (c : CellId) (o : Fin 8) (pane : Fin 128) (s : State) (closed : EdgesClosed s) :
    EdgesClosed (nextOf s (execMirrorRestore c o pane s)) := by
  fun_cases execMirrorRestore c o pane s
  case case5 => simp +zetaDelta [State.repairSlot_edges ‹_ = some _› closed]
  case case6 =>
    have repaired := State.repairSlot_edges ‹_ = some _› closed
    rw [nextOf_next]
    exact edgesClosed_foldl (fun s _ _ closed => State.access_edges s _ _ closed) repaired
  all_goals exact closed

@[simp] theorem execMirrorRewrite_edges (c : CellId) (o : Fin 8) (pane : Fin 128) (s : State) (closed : EdgesClosed s) :
    EdgesClosed (nextOf s (execMirrorRewrite c o pane s)) := by
  fun_cases execMirrorRewrite c o pane s
  case case6 => simp +zetaDelta [State.repairSlot_edges ‹_ = some _› closed]
  all_goals exact closed

@[simp] theorem execPseudoChannelLoss_edges (p : PortId) (pc : Fin 64) (s : State) (closed : EdgesClosed s) :
    EdgesClosed (nextOf s (execPseudoChannelLoss p pc s)) := by
  simp [closed, execPseudoChannelLoss]

@[simp] theorem State.suspectUnit_edges (s : State) (r : UnitRef) : EdgesClosed (s.suspectUnit r) ↔ EdgesClosed s := by
  fun_cases State.suspectUnit s r <;> simp +zetaDelta

@[simp] theorem execStateMismatchRecheck_edges (r : UnitRef) (differs : Bool) (s : State) (closed : EdgesClosed s) :
    EdgesClosed (nextOf s (execStateMismatchRecheck r differs s)) := by
  unfold execStateMismatchRecheck
  dsimp only
  split
  · simp [closed]
  · split <;> simp [closed]

/-! ### Counters, the watchdog and sampling -/

@[simp] theorem State.cellOverflow_edges (s : State) (c i : Nat) : EdgesClosed (s.cellOverflow c i) ↔ EdgesClosed s := by simp [State.cellOverflow]

@[simp] theorem execCounterOverflow_edges (k : CounterRef) (s : State) (closed : EdgesClosed s) :
    EdgesClosed (nextOf s (execCounterOverflow k s)) := by
  unfold execCounterOverflow; split <;> simp [closed]

@[simp] theorem execWatchdogExpiry_edges (c : CellId) (s : State) (closed : EdgesClosed s) : EdgesClosed (nextOf s (execWatchdogExpiry c s)) := by
  fun_cases execWatchdogExpiry c s
  case case1 => exact closed
  case case2 => exact closed
  all_goals simp +zetaDelta [State.waitCycle_edges ‹_ = some _› closed]

@[simp] theorem execSampleTaken_edges (c : CellId) (e : Option Engine) (s : State) (closed : EdgesClosed s) :
    EdgesClosed (nextOf s (execSampleTaken c e s)) := by
  fun_cases execSampleTaken c e s <;> simp +zetaDelta [closed]

@[simp] theorem execSampleRecordWrite_edges (sid : SuiteId) (s : State) (closed : EdgesClosed s) :
    EdgesClosed (nextOf s (execSampleRecordWrite sid s)) := by
  fun_cases execSampleRecordWrite sid s <;> simp +zetaDelta [closed]

/-! ### Registers -/

@[simp] theorem State.peek_edges (s : State) (c : Nat) : EdgesClosed (s.peek c) ↔ EdgesClosed s := by
  fun_cases State.peek s c <;> simp

@[simp] theorem State.clearContext_edges (s : State) (x : Fin 16 → StreamCtx) (o : Nat) : EdgesClosed (s.clearContext x o) ↔ EdgesClosed s := by
  simp [State.clearContext]

@[simp] theorem State.clearRead_edges (s : State) (x : Place) : EdgesClosed (s.clearRead x) ↔ EdgesClosed s := by
  unfold State.clearRead; split <;> simp

@[simp] theorem State.writeAlert_edges (s : State) (v : W64) : EdgesClosed (s.writeAlert v) ↔ EdgesClosed s := by rfl

@[simp] theorem State.writeRing_edges (s : State) (f : HostFn) (o : Nat) (v : W64) : EdgesClosed (s.writeRing f o v) ↔ EdgesClosed s := by
  simp [State.writeRing]

@[simp] theorem State.writeHub_edges (s : State) (o : Nat) (v : W64) : EdgesClosed (s.writeHub o v) ↔ EdgesClosed s := by
  fun_cases State.writeHub s o v <;> simp +zetaDelta

@[simp] theorem State.writeBarCmd_edges (s : State) (src : BarSrc) (n : BarId) (v : W64) : EdgesClosed (s.writeBarCmd src n v) ↔ EdgesClosed s := by
  simp [State.writeBarCmd]

@[simp] theorem State.writeBarrier_edges (s : State) (f : HostFn) (n o : Nat) (v : W64) : EdgesClosed (s.writeBarrier f n o v) ↔ EdgesClosed s := by
  simp [State.writeBarrier]

@[simp] theorem State.writeBuilder_edges (s : State) (f : HostFn) (i o : Nat) (v : W64) : EdgesClosed (s.writeBuilder f i o v) ↔ EdgesClosed s := by
  fun_cases State.writeBuilder s f i o v <;> simp +zetaDelta

@[simp] theorem State.writeConfig_edges (s : State) (c k : Nat) (v : W32) : EdgesClosed (s.writeConfig c k v) ↔ EdgesClosed s := by
  simp [State.writeConfig]

@[simp] theorem execConfigWindowWrite_edges (f : HostFn) (c : CellId) (word : Fin 4096) (v : W32) (s : State) (closed : EdgesClosed s) :
    EdgesClosed (nextOf s (execConfigWindowWrite f c word v s)) := by
  cases f <;> simp [closed, execConfigWindowWrite]

@[simp] theorem State.writeMsix_edges (s : State) (f : HostFn) (o : Nat) (v : W64) : EdgesClosed (s.writeMsix f o v) ↔ EdgesClosed s := by
  simp [State.writeMsix]

@[simp] theorem State.writePf_edges (s : State) (p : Place) (v : W64) (closed : EdgesClosed s) : EdgesClosed (s.writePf p v) := by
  unfold State.writePf; split <;> simp [closed]

@[simp] theorem State.writeVf_edges (s : State) (i : SuiteId) (p : Place) (v : W64) : EdgesClosed (s.writeVf i p v) ↔ EdgesClosed s := by
  unfold State.writeVf; split <;> simp

@[simp] theorem State.missAccess_edges (s : State) (f : HostFn) (p : Place) (off : Nat) (write : Bool) :
    EdgesClosed (s.missAccess f p off write) ↔ EdgesClosed s := by
  unfold State.missAccess; dsimp only; split <;> simp

@[simp] theorem State.hbmAccess_edges (s : State) (f : HostFn) (off a : Nat) (w : Option W64) (closed : EdgesClosed s) :
    EdgesClosed (s.hbmAccess f off a w) := by
  simp [closed, State.hbmAccess]

@[simp] theorem State.freshCycle_edges (s : State) (p : Place) (closed : EdgesClosed s) : EdgesClosed (s.freshCycle p) := by
  simp [closed, State.freshCycle]

@[simp] theorem execUnmappedAccess_edges (f : HostFn) (off : Nat) (write : Bool) (s : State) (closed : EdgesClosed s) :
    EdgesClosed (nextOf s (execUnmappedAccess f off write s)) := by
  fun_cases execUnmappedAccess f off write s <;> simp [closed]

@[simp] theorem execRcFieldRead_edges (f : HostFn) (off : Nat) (s : State) (closed : EdgesClosed s) :
    EdgesClosed (nextOf s (execRcFieldRead f off s)) := by
  fun_cases execRcFieldRead f off s <;> simp +zetaDelta [closed]

@[simp] theorem execRegisterWrite_edges (f : HostFn) (off : Nat) (v : W64) (s : State) (closed : EdgesClosed s) :
    EdgesClosed (nextOf s (execRegisterWrite f off v s)) := by
  unfold execRegisterWrite
  split
  · exact closed
  split
  · exact closed
  split
  · simp [closed]
  · simp [closed]
  · simp [closed]
  · dsimp only
    split
    · simp [closed]
    · split <;> simp [closed]

@[simp] theorem execApertureHbmAccess_edges (f : HostFn) (off : Nat) (w : Option W64) (s : State) (closed : EdgesClosed s) :
    EdgesClosed (nextOf s (execApertureHbmAccess f off w s)) := by
  fun_cases execApertureHbmAccess f off w s <;> simp [closed]

/-! ### Management, keys and firmware -/

@[simp] theorem execHeartbeat_edges (s : State) (closed : EdgesClosed s) : EdgesClosed (nextOf s (execHeartbeat s)) := by simp [closed, execHeartbeat]

@[simp] theorem execCheckpoint_edges (s : State) (closed : EdgesClosed s) : EdgesClosed (nextOf s (execCheckpoint s)) := by
  unfold execCheckpoint
  split <;> simp [closed]

@[simp] theorem execActiveCoreFailure_edges (s : State) (closed : EdgesClosed s) : EdgesClosed (nextOf s (execActiveCoreFailure s)) := by
  simp [closed, execActiveCoreFailure]

@[simp] theorem execStandbyBistDone_edges (pass : Bool) (s : State) (closed : EdgesClosed s) :
    EdgesClosed (nextOf s (execStandbyBistDone pass s)) := by
  fun_cases execStandbyBistDone pass s <;> simp [closed]

@[simp] theorem execSidebandRead_edges (k : Byte) (s : State) (closed : EdgesClosed s) : EdgesClosed (nextOf s (execSidebandRead k s)) := by
  unfold execSidebandRead
  split
  · exact closed
  · dsimp only
    split <;> simp [closed]

@[simp] theorem execSidebandWrite_edges (k : Byte) (v : W64) (s : State) (closed : EdgesClosed s) :
    EdgesClosed (nextOf s (execSidebandWrite k v s)) := by
  simp [closed, execSidebandWrite]

@[simp] theorem execPresenceAssert_edges (s : State) (closed : EdgesClosed s) : EdgesClosed (nextOf s (execPresenceAssert s)) := by
  fun_cases execPresenceAssert s <;> simp [closed]

@[simp] theorem execPresenceDeassert_edges (s : State) (closed : EdgesClosed s) : EdgesClosed (nextOf s (execPresenceDeassert s)) := by
  fun_cases execPresenceDeassert s <;> simp [closed]

@[simp] theorem execSealOpen_edges (s : State) (closed : EdgesClosed s) : EdgesClosed (nextOf s (execSealOpen s)) := by
  fun_cases execSealOpen s <;> simp +zetaDelta [closed]

@[simp] theorem provision_edges (t : Taken) (s : State) (slots size : Nat) (buf : HostRead) (free : Bool) (refuse : Option Nat)
    (run : List Byte → Reply × State) (h : ∀ b, EdgesClosed (run b).2) (closed : EdgesClosed s) :
    EdgesClosed (provision t s slots size buf free refuse run) := by
  fun_cases provision t s slots size buf free refuse run
  case case6 ran =>
    have kept := h ‹_›
    rw [ran] at kept
    simp +zetaDelta [kept]
  all_goals simp +zetaDelta [closed]

@[simp] theorem execKeyProvisionBbk_edges (t : Nat) (buf : HostRead) (s : State) (closed : EdgesClosed s) :
    EdgesClosed (nextOf s (execKeyProvisionBbk t buf s)) := by
  rw [execKeyProvisionBbk, nextOf_next]
  refine runCommand_edges _ _ _ _ _ _ (fun t s closed => ?_) closed
  refine provision_edges _ _ _ _ _ _ _ _ (fun b => ?_) closed
  split <;> exact closed

@[simp] theorem execKeyProvisionFk_edges (t : Nat) (buf : HostRead) (s : State) (closed : EdgesClosed s) :
    EdgesClosed (nextOf s (execKeyProvisionFk t buf s)) := by
  rw [execKeyProvisionFk, nextOf_next]
  refine runCommand_edges _ _ _ _ _ _ (fun t s closed => ?_) closed
  dsimp only
  split
  · simp [closed]
  refine provision_edges _ _ _ _ _ _ _ _ (fun b => ?_) closed
  exact closed

@[simp] theorem execKeyProvisionSigner_edges (t : Nat) (buf : HostRead) (s : State) (closed : EdgesClosed s) :
    EdgesClosed (nextOf s (execKeyProvisionSigner t buf s)) := by
  rw [execKeyProvisionSigner, nextOf_next]
  refine runCommand_edges _ _ _ _ _ _ (fun t s closed => ?_) closed
  refine provision_edges _ _ _ _ _ _ _ _ (fun b => ?_) closed
  exact closed

@[simp] theorem execKeyProvisionRevokeSigner_edges (t : Nat) (s : State) (closed : EdgesClosed s) :
    EdgesClosed (nextOf s (execKeyProvisionRevokeSigner t s)) := by
  rw [execKeyProvisionRevokeSigner, nextOf_next]
  refine runCommand_edges _ _ _ _ _ _ (fun t s closed => ?_) closed
  refine provision_edges _ _ _ _ _ _ _ _ (fun b => ?_) closed
  split <;> exact closed

@[simp] theorem execKeyProvisionRevokeFk_edges (t : Nat) (s : State) (closed : EdgesClosed s) :
    EdgesClosed (nextOf s (execKeyProvisionRevokeFk t s)) := by
  rw [execKeyProvisionRevokeFk, nextOf_next]
  refine runCommand_edges _ _ _ _ _ _ (fun t s closed => ?_) closed
  refine provision_edges _ _ _ _ _ _ _ _ (fun b => ?_) closed
  split <;> exact closed

@[simp] theorem execKeyProvisionSvnFloor_edges (t : Nat) (buf : HostRead) (s : State) (closed : EdgesClosed s) :
    EdgesClosed (nextOf s (execKeyProvisionSvnFloor t buf s)) := by
  rw [execKeyProvisionSvnFloor, nextOf_next]
  refine runCommand_edges _ _ _ _ _ _ (fun t s closed => ?_) closed
  refine provision_edges _ _ _ _ _ _ _ _ (fun b => ?_) closed
  dsimp only
  split <;> exact closed

@[simp] theorem execKeyProvisionSvnMin_edges (t : Nat) (buf : HostRead) (s : State) (closed : EdgesClosed s) :
    EdgesClosed (nextOf s (execKeyProvisionSvnMin t buf s)) := by
  rw [execKeyProvisionSvnMin, nextOf_next]
  refine runCommand_edges _ _ _ _ _ _ (fun t s closed => ?_) closed
  refine provision_edges _ _ _ _ _ _ _ _ (fun b => ?_) closed
  dsimp only
  split <;> exact closed

@[simp] theorem execKeyProvisionBbkZeroise_edges (t : Nat) (s : State) (closed : EdgesClosed s) :
    EdgesClosed (nextOf s (execKeyProvisionBbkZeroise t s)) := by
  rw [execKeyProvisionBbkZeroise, nextOf_next]
  refine runCommand_edges _ _ _ _ _ _ (fun t s closed => ?_) closed
  refine provision_edges _ _ _ _ _ _ _ _ (fun b => ?_) closed
  exact s.zeroiseBbk_edges _ closed

@[simp] theorem execDebugUnlock_edges (t : Nat) (buf : HostRead) (s : State) (closed : EdgesClosed s) :
    EdgesClosed (nextOf s (execDebugUnlock t buf s)) := by
  simp [closed, execDebugUnlock]

@[simp] theorem execDeviceResetFactory_edges (t : Nat) (s : State) (closed : EdgesClosed s) :
    EdgesClosed (nextOf s (execDeviceResetFactory t s)) := by
  rw [execDeviceResetFactory, nextOf_next]
  refine runCommand_edges _ _ _ _ _ _ (fun t s closed => ?_) closed
  dsimp only
  split <;> simp [closed]

@[simp] theorem execFwDownload_edges (t : Nat) (buf : HostRead) (s : State) (closed : EdgesClosed s) :
    EdgesClosed (nextOf s (execFwDownload t buf s)) := by
  rw [execFwDownload, nextOf_next]
  refine runCommand_edges _ _ _ _ _ _ (fun t s closed => ?_) closed
  dsimp only
  split
  · simp [closed]
  split
  · simp [closed]
  split
  · simp [closed]
  split <;> simp [closed]

@[simp] theorem execFwVerify_edges (t : Nat) (s : State) (closed : EdgesClosed s) : EdgesClosed (nextOf s (execFwVerify t s)) := by
  simp [closed, execFwVerify]

@[simp] theorem execFwActivate_edges (t : Nat) (s : State) (closed : EdgesClosed s) : EdgesClosed (nextOf s (execFwActivate t s)) := by
  rw [execFwActivate, nextOf_next]
  refine runCommand_edges _ _ _ _ _ _ (fun t s closed => ?_) closed
  simp [closed]

@[simp] theorem execFwConfirm_edges (t : Nat) (s : State) (closed : EdgesClosed s) : EdgesClosed (nextOf s (execFwConfirm t s)) := by
  simp [closed, execFwConfirm]

/-! ### A step -/

/-- No command opens an edge side. -/
theorem exec_edges (i : Instr) (s : State) (closed : EdgesClosed s) : EdgesClosed (nextOf s (exec i s)) := by
  cases named : opcodeOf i with
  | some e =>
    rw [exec_eq_issue named]
    exact issue_edges _ _ _ s closed
  | none => cases i <;> simp_all [exec, opcodeOf]

/-- No step opens an edge side: with no command pending, time passes; else the command in front is executed. -/
theorem step_edges {s t : State} (h : step s = .next t) (closed : EdgesClosed s) : EdgesClosed t := by
  unfold step at h
  split at h
  · cases h
    exact s.advance_edges 1 closed
  · next c r _ =>
    have kept := exec_edges c { s with pending := r } closed
    rw [h] at kept
    exact kept

/-- Settles O58: the clauses that `EdgesClosed` makes of each bay listed, each step keeps (`step_edges`), and they hold of the bays read
(`edgeShut_bay`), those not listed being CLOSED. -/
theorem edgeSidesStayClosed : Obligations.EdgeSidesStayClosed :=
  ⟨fun _ _ closed stepped => step_edges stepped closed, fun _ b d closed edge => (edgeShut_bay closed b.val b.isLt d.val d.isLt edge).1⟩

end Sys2Proof.Machine
end

section
/-!
PROOF. O22, O23: the hold of a suite, from the root's sample to the boundary at which it begins or ends (R270–R283).
-/

namespace Sys2Proof.Machine
open Sys2Proof

/-! ### One update in each of some cells -/

/-- The same update in each of some cells, one after another. -/
def State.updEach (s : State) (l : List Nat) (f : Cell → Cell) : State := l.foldl (fun s c => s.updCell c f) s

theorem State.updEach_suites (s : State) (l : List Nat) (f : Cell → Cell) : (s.updEach l f).suites = s.suites :=
  foldl_keeps State.suites (fun (s : State) c => s.updCell c f) (fun _ _ => rfl) l s

theorem State.updEach_bays (s : State) (l : List Nat) (f : Cell → Cell) : (s.updEach l f).bays = s.bays :=
  foldl_keeps State.bays (fun (s : State) c => s.updCell c f) (fun _ _ => rfl) l s

@[simp] theorem State.updEach_suite (s : State) (l : List Nat) (f : Cell → Cell) (i : Nat) : (s.updEach l f).suite i = s.suite i := by
  rw [State.suite, State.updEach_suites, State.suite]

theorem State.updCell_cell (s : State) (c k : Nat) (f : Cell → Cell) : (s.updCell c f).cell k = if k = c then f (s.cell k) else s.cell k := by
  split
  · next same => rw [same, State.updCell_cell_same]
  · next other => exact s.updCell_cell_ne c k f other

/-- What an update keeps of a cell, the same update of some cells keeps of each cell. -/
theorem State.updEach_keeps {A : Type} (p : Cell → A) {f : Cell → Cell} (keeps : ∀ x, p (f x) = p x) (s : State) (l : List Nat) (k : Nat) :
    p ((s.updEach l f).cell k) = p (s.cell k) := by
  refine foldl_keeps (fun s : State => p (s.cell k)) (fun (s : State) c => s.updCell c f) (fun s c => ?_) l s
  rw [State.updCell_cell]
  split
  · exact keeps _
  · rfl

theorem State.updEach_cell_of_not_mem (s : State) {l : List Nat} (f : Cell → Cell) {k : Nat} (out : k ∉ l) :
    (s.updEach l f).cell k = s.cell k := by
  unfold State.updEach
  induction l generalizing s with
  | nil => rfl
  | cons c l ih =>
    rw [List.mem_cons, not_or] at out
    rw [List.foldl_cons, ih _ out.2, State.updCell_cell_ne _ _ _ _ out.1]

/-- What an update brings about in a cell, and itself keeps, holds in each of the cells updated. -/
theorem State.updEach_of_mem (q : Cell → Prop) {f : Cell → Cell} {l : List Nat} {k : Nat} (listed : k ∈ l) (s : State) (made : q (f (s.cell k)))
    (kept : ∀ x, q x → q (f x)) : q ((s.updEach l f).cell k) := by
  unfold State.updEach
  induction l generalizing s with
  | nil => cases listed
  | cons c l ih =>
    rw [List.foldl_cons]
    by_cases again : k ∈ l
    · refine ih again _ ?_
      rw [State.updCell_cell]
      split
      · exact kept _ made
      · exact made
    · have unmoved := (s.updCell c f).updEach_cell_of_not_mem f again
      rw [State.updEach] at unmoved
      rw [unmoved, State.updCell_cell, if_pos ((List.mem_cons.mp listed).resolve_right again)]
      exact made

/-! ### The tree of a suite -/

/-- The hold lanes' reach is read from the bays (R270, R284). -/
theorem treeCells_of_bays {s t : State} (same : t.bays = s.bays) (i : Nat) : treeCells t i = treeCells s i := by
  simp only [treeCells, joined, suiteBays, borderOpen, State.bay, same]

/-! ### HOLD and RELEASE -/

/-- What a hold leaves of a cell: its memory, its tags and the place of its next instruction (R275). -/
def Cell.stood (x : Cell) : Memory × SMap Tag × Nat := (x.mem, x.tags, x.seq.pc)

theorem Cell.stood_eq_iff (x y : Cell) : x.stood = y.stood ↔ x.mem = y.mem ∧ x.tags = y.tags ∧ x.seq.pc = y.seq.pc := by
  simp [Cell.stood]

theorem holdCell_held (x : Cell) : (holdCell x).held = (x.held || holdable x) := by
  unfold holdCell
  split <;> simp_all

theorem holdable_holdCell (x : Cell) : holdable (holdCell x) = holdable x := by
  unfold holdCell
  split <;> rfl

theorem holdCell_stood (x : Cell) : (holdCell x).stood = x.stood := by
  unfold holdCell
  split <;> rfl

/-- The hold of a root that begins one at a boundary (R272, R275, R279). -/
def holdBegun (s : State) (i : Nat) : Hold :=
  let h := (s.suite i).hold
  { h with sendHold := false, held := true, holds := h.holds + 1, run := 0, startTick := s.tick, timedOut := false
           schedBeat := BitVec.ofNat 32 (suiteBeat s i) }

/-- At the boundary after HOLD was sent, the root's hold begins and each cell that the lanes reach takes HOLD (R272). -/
theorem execHoldBegin_of_sent {sid : SuiteId} {s s1 : State} (bound : s.waitBoundary sid.val = some s1)
    (sent : (s.suite sid.val).hold.sendHold = true) :
    execHoldBegin sid s = .next ((s1.setSuite sid.val { s1.suite sid.val with hold := holdBegun s1 sid.val }).updEach
      (treeCells s1 sid.val) holdCell) := by
  simp only [execHoldBegin, sent, Bool.not_true, Bool.false_eq_true, if_false, bound]
  rfl

/-- A cell that HOLD reaches is held if it was, or is not IDLE (R275). -/
theorem updEach_holdCell_held (s : State) {l : List Nat} {c : Nat} (listed : c ∈ l) :
    ((s.updEach l holdCell).cell c).held = ((s.cell c).held || holdable (s.cell c)) := by
  refine (State.updEach_of_mem (fun y => y.held = ((s.cell c).held || holdable (s.cell c)) ∧ holdable y = holdable (s.cell c)) listed s
    ⟨holdCell_held _, holdable_holdCell _⟩ fun y hit => ⟨?_, ?_⟩).1
  · rw [holdCell_held, hit.1, hit.2, Bool.or_assoc, Bool.or_self]
  · rw [holdable_holdCell, hit.2]

/-- The deferred faults of a cell as RELEASE leaves them (R90). -/
def recheckCell (x : Cell) : Cell := { x with seq := { x.seq with faults := (recheckFaults x).2 } }

/-- The late checks of a recheck stand with those before it (R90; log 94). -/
def lateCell (x : Cell) : Cell := { x with seq := { x.seq with late := x.seq.late ++ (recheckFaults x).1 } }

/-- RELEASE lets a cell go on (R274). -/
def freeCell (x : Cell) : Cell := { x with held := false }

theorem recheckCell_stood (x : Cell) : (recheckCell x).stood = x.stood := rfl

theorem lateCell_stood (x : Cell) : (lateCell x).stood = x.stood := rfl

theorem freeCell_stood (x : Cell) : (freeCell x).stood = x.stood := rfl

theorem lateCell_held (x : Cell) : (lateCell x).held = x.held := rfl

/-- The RUNNING cells that a suite's hold lanes reach. -/
def heldRunning (s : State) (i : Nat) : List Nat := (treeCells s i).filter (fun c => (s.cell c).state == .running)

/-- A deferred check that comes out late keeps the hold going, and takes the RELEASE back (log 94). -/
theorem execHoldEnd_of_late {sid : SuiteId} {s s1 : State} (bound : s.waitBoundary sid.val = some s1) (held : (s.suite sid.val).hold.held = true)
    (sent : (s.suite sid.val).hold.sendRelease = true)
    (late : ∃ c ∈ treeCells s1 sid.val, (s1.cell c).state = .running ∧ (recheckFaults (s1.cell c)).1 ≠ []) :
    execHoldEnd sid s = .next ((s1.updEach (heldRunning s1 sid.val) lateCell).updSuite sid.val
      (fun u => { u with hold := { u.hold with sendRelease := false } })) := by
  have found : (heldRunning s1 sid.val).any (fun c => !(recheckFaults (s1.cell c)).1.isEmpty) = true := by
    simpa [heldRunning, and_assoc] using late
  simp only [execHoldEnd, held, sent, Bool.not_true, Bool.or_self, Bool.false_eq_true, if_false, bound]
  exact if_pos found

/-- With no deferred check late, RELEASE ends the hold (R274). -/
theorem execHoldEnd_of_timely {sid : SuiteId} {s s1 : State} (bound : s.waitBoundary sid.val = some s1)
    (held : (s.suite sid.val).hold.held = true) (sent : (s.suite sid.val).hold.sendRelease = true)
    (timely : ∀ c ∈ treeCells s1 sid.val, (s1.cell c).state = .running → (recheckFaults (s1.cell c)).1 = []) :
    execHoldEnd sid s = .next ((s1.updEach (heldRunning s1 sid.val) recheckCell).releaseHold sid.val) := by
  have found : ¬(heldRunning s1 sid.val).any (fun c => !(recheckFaults (s1.cell c)).1.isEmpty) = true := by
    simpa [heldRunning, and_imp] using timely
  simp only [execHoldEnd, held, sent, Bool.not_true, Bool.or_self, Bool.false_eq_true, if_false, bound]
  exact if_neg found

/-- The hold of a root that RELEASE ends: its entry is written at HEAD (R281). -/
def holdEnded (h : Hold) : Hold :=
  { h with held := false, sendRelease := false, head := h.head + 1, ring := sset h.ring h.head.toNat (holdEntry h), origin := 0
           wraps := if h.head = 63 then h.wraps + 1 else h.wraps }

theorem State.releaseHold_eq (s : State) (i : Nat) :
    s.releaseHold i = (s.setSuite i { s.suite i with hold := holdEnded (s.suite i).hold }).updEach (treeCells s i)
      freeCell := by
  rfl

/-- Settles O22: HOLD's update of the cells reached is `holdCell`; RELEASE takes its branch by whether a recheck of a deferred fault is late. -/
theorem holdBeginsAndEndsAtABoundary : Obligations.HoldBeginsAndEndsAtABoundary := by
  intro sid s s1 bound
  refine ⟨fun sent => ?_, fun held sent => ?_, fun unsent => ?_, fun unsent => ?_⟩
  · refine ⟨_, execHoldBegin_of_sent bound sent, ?_⟩
    simp only [State.updEach_suite, State.setSuite_suite_same]
    refine ⟨rfl, rfl, rfl, rfl, rfl, fun c listed => updEach_holdCell_held _ listed, fun c out => State.updEach_cell_of_not_mem _ _ out, fun c => ?_⟩
    rw [← Cell.stood_eq_iff, State.updEach_keeps Cell.stood holdCell_stood]
    rfl
  · by_cases late : ∃ c ∈ treeCells s1 sid.val, (s1.cell c).state = .running ∧ (recheckFaults (s1.cell c)).1 ≠ []
    · refine ⟨_, execHoldEnd_of_late bound held sent late, fun c => ?_, fun timely => ?_, fun _ => ⟨?_, ?_, fun c => ?_⟩⟩
      · rw [← Cell.stood_eq_iff, State.updSuite_cell, State.updEach_keeps Cell.stood lateCell_stood]
      · obtain ⟨c, reached, running, missed⟩ := late
        exact absurd (timely c reached running) missed
      · simp
      · simp
      · rw [State.updSuite_cell, State.updEach_keeps Cell.held lateCell_held]
    · have timely : ∀ c ∈ treeCells s1 sid.val, (s1.cell c).state = .running → (recheckFaults (s1.cell c)).1 = [] := by
        simpa using late
      refine ⟨_, execHoldEnd_of_timely bound held sent timely, fun c => ?_, fun _ => ?_, fun missed => absurd missed late⟩
      · rw [← Cell.stood_eq_iff, State.releaseHold_eq, State.updEach_keeps Cell.stood freeCell_stood, State.setSuite_cell,
          State.updEach_keeps Cell.stood recheckCell_stood]
      · simp only [State.releaseHold_eq, State.updEach_suite, State.setSuite_suite_same]
        refine ⟨rfl, rfl, sget_sset_same _ _ _ _, fun c reached => ?_⟩
        rw [← treeCells_of_bays (s1.updEach_bays (heldRunning s1 sid.val) recheckCell)] at reached
        exact State.updEach_of_mem (fun y => y.held = false) reached _ rfl fun _ _ => rfl
  · simp [exec, execHoldBegin, unsent]
  · simp [exec, execHoldEnd, unsent]

/-! ### The root's sample -/

/-- A union of words is 0 only if each of them is. -/
theorem foldl_or_eq_zero_iff {w : Nat} (f : Nat → BitVec w) (l : List Nat) (a : BitVec w) :
    l.foldl (fun m c => m ||| f c) a = 0 ↔ a = 0 ∧ ∀ c ∈ l, f c = 0 := by
  induction l generalizing a with
  | nil => simp
  | cons c l ih =>
    have both : a ||| f c = 0 ↔ a = 0 ∧ f c = 0 := BitVec.or_eq_zero_iff
    rw [List.foldl_cons, ih, both, List.forall_mem_cons, and_assoc]

/-- The cells that come out late at a suite's sample: those with a cause (R272). -/
def lateCells (s : State) (i : Nat) : List Nat :=
  (treeCells s i).filter (fun c => (s.cell c).state == .running && lateMask (s.cell c) (suiteWallBeat s i) != 0)

/-- The causes that a suite's root sees at its sample (R271, R272). -/
def sampledCauses (s : State) (i : Nat) : BitVec 8 :=
  let mask := (lateCells s i).foldl (fun (m : BitVec 8) c => m ||| lateMask (s.cell c) (suiteWallBeat s i)) 0
  let mask := if protectAsked s i (s.suite i) then mask ||| 16 else mask
  if mgmtAsked (s.suite i) then mask ||| 32 else mask

/-- Whether the root has a cause: a late cell, PROTECT or MGMT (R272). -/
def causeSeen (s : State) (i : Nat) : Bool := !(lateCells s i).isEmpty || protectAsked s i (s.suite i) || mgmtAsked (s.suite i)

theorem sampledCauses_eq_zero_iff (s : State) (i : Nat) : sampledCauses s i = 0 ↔ causeSeen s i = false := by
  have none : (lateCells s i).foldl (fun (m : BitVec 8) c => m ||| lateMask (s.cell c) (suiteWallBeat s i)) 0 = 0 ↔
      (lateCells s i).isEmpty = true := by
    rw [foldl_or_eq_zero_iff, List.isEmpty_iff, List.eq_nil_iff_forall_not_mem]
    simp only [true_and]
    refine forall_congr' fun c => ⟨fun zero listed => ?_, fun out listed => absurd listed out⟩
    have masked := (List.mem_filter.mp listed).2
    simp [zero listed] at masked
  unfold sampledCauses causeSeen
  dsimp only
  split <;> split <;> simp_all [BitVec.or_eq_zero_iff]

/-- The hold of a root after its sample: HOLD with a cause while its section is open, RELEASE in a hold without one (R272, R274, R310). -/
theorem State.rootSample_hold (s : State) (i : Nat) :
    ((s.rootSample i).suite i).hold =
      let u := s.suite i
      let mask := sampledCauses s i
      let h := { u.hold with sampled := suiteWallBeat s i + 1, schedBeat := BitVec.ofNat 32 (suiteBeat s i) }
      if h.held then
        { h with causes := mask, orCauses := h.orCauses ||| mask, sendRelease := mask == 0, sendStart := startAllowed s i }
      else if mask ≠ 0 ∧ u.feeder.isOpen then
        { h with causes := mask, orCauses := mask, sendHold := true, firstCell := BitVec.ofNat 12 ((lateCells s i).min?.getD 0) }
      else { h with sendStart := startAllowed s i } := by
  rw [State.rootSample, State.setSuite_suite_same]
  rfl

theorem State.rootSample_cells (s : State) (i : Nat) : (s.rootSample i).cells = s.cells := by rfl

/-- A RUNNING suite's place in the beat that has come is not waited for. -/
theorem State.waitBeat_of_now {s : State} {i ph : Nat} (run : (s.suite i).state = .running)
    (now : s.now / cycleLen (s.suite i).freq.current % 16 = ph) : s.waitBeat i ph = some s := by
  have place : (ph + 16 - s.now / cycleLen (s.suite i).freq.current % 16) % 16 = 0 := by omega
  simp [State.waitBeat, run, place]

/-- In cycle 12 of a beat in which it has not sampled, the root samples at once (R272). -/
theorem execHoldRootSample_now {sid : SuiteId} {s : State} (run : (s.suite sid.val).state = .running)
    (now : s.now / cycleLen (s.suite sid.val).freq.current % 16 = 12)
    (first : (s.suite sid.val).hold.sampled ≠ suiteWallBeat s sid.val + 1) :
    execHoldRootSample sid s = .next (s.rootSample sid.val) := by
  simp [execHoldRootSample, first, State.waitBeat_of_now run now]

/-! ### The beats of a hold -/

/-- How many wall beats of a suite k quanta bring. -/
def beatsPassed (now k : Nat) (u : Suite) : Nat := (now + k) / (16 * cycleLen u.freq.current) - now / (16 * cycleLen u.freq.current)

/-- What `State.passHolds` does for one suite listed. -/
def State.passHold (k : Nat) (s : State) (e : Nat × Suite) : State :=
  let n := beatsPassed s.now k e.2
  if !e.2.hold.held || n == 0 then s
  else s.updSuite e.1 (fun u => { u with hold := { u.hold with run := u.hold.run + n, beats := u.hold.beats + BitVec.ofNat 48 n } })

theorem State.passHolds_eq (s : State) (k : Nat) : s.passHolds k = s.suites.foldl (State.passHold k) s := by rfl

theorem State.passHold_now (k : Nat) (s : State) (e : Nat × Suite) : (s.passHold k e).now = s.now := by
  unfold State.passHold; dsimp only; split <;> rfl

theorem State.passHold_cells (k : Nat) (s : State) (e : Nat × Suite) : (s.passHold k e).cells = s.cells := by
  unfold State.passHold; dsimp only; split <;> rfl

theorem State.passHold_suite_ne (k : Nat) (s : State) (e : Nat × Suite) {i : Nat} (other : i ≠ e.1) : (s.passHold k e).suite i = s.suite i := by
  unfold State.passHold
  dsimp only
  split
  · rfl
  · exact State.updSuite_suite_ne _ _ _ _ other

/-- The run of a held suite grows by the beats that pass (R279). -/
theorem State.passHold_run (k : Nat) (s : State) (i : Nat) (u : Suite) (held : u.hold.held = true) :
    ((s.passHold k (i, u)).suite i).hold.run = (s.suite i).hold.run + beatsPassed s.now k u := by
  unfold State.passHold
  dsimp only
  split
  · simp_all
  · simp

theorem State.foldl_passHold_suite (k : Nat) (l : SMap Suite) (s : State) {i : Nat} (out : i ∉ l.map (·.1)) :
    (l.foldl (State.passHold k) s).suite i = s.suite i := by
  induction l generalizing s with
  | nil => rfl
  | cons e l ih =>
    rw [List.map_cons, List.mem_cons, not_or] at out
    rw [List.foldl_cons, ih _ out.2, State.passHold_suite_ne k s e out.1]

theorem State.foldl_passHold_run (k : Nat) {l : SMap Suite} (s : State) {i : Nat} (once : (l.map (·.1)).Nodup)
    (listed : l.any (fun e => e.1 == i) = true) (held : (sget {} l i).hold.held = true) :
    ((l.foldl (State.passHold k) s).suite i).hold.run = (s.suite i).hold.run + beatsPassed s.now k (sget {} l i) := by
  induction l generalizing s with
  | nil => cases listed
  | cons e l ih =>
    obtain ⟨j, u⟩ := e
    rw [List.map_cons, List.nodup_cons] at once
    rw [List.foldl_cons]
    by_cases here : j = i
    · subst here
      rw [sget, if_pos rfl] at held ⊢
      rw [State.foldl_passHold_suite k l _ once.1, State.passHold_run k s j u held]
    · rw [sget, if_neg here] at held ⊢
      have further : l.any (fun e => e.1 == i) = true := by simpa [here] using listed
      rw [ih _ once.2 further held, State.passHold_suite_ne k s (j, u) (Ne.symm here), State.passHold_now]

/-! ### The limit of a hold -/

/-- An update of a suite that keeps its hold leaves the hold of each suite. -/
theorem State.updSuite_hold (s : State) (j : Nat) {f : Suite → Suite} (keeps : ∀ u, (f u).hold = u.hold) (i : Nat) :
    ((s.updSuite j f).suite i).hold = (s.suite i).hold := by
  by_cases same : i = j
  · rw [same, State.updSuite_suite_same, keeps]
  · rw [State.updSuite_suite_ne _ _ _ _ same]

/-- So does an error record. -/
theorem State.report_hold (s : State) (ty code cls addr info : Nat) (unit : UnitRef) (suite : Option Nat) (i : Nat) :
    ((s.report ty code cls addr info unit suite).suite i).hold = (s.suite i).hold := by
  unfold State.report
  generalize errRecord s ty code cls addr info (unitCode unit) suite = r
  obtain e | ⟨j, -, -, e⟩ := s.addRecord_cases ty suite r <;> rw [e]
  · rfl
  · exact s.updSuite_hold j (f := fun u => { u with errq := ringPush u.errq 512 r }) (fun _ => rfl) i

theorem State.report_errLog_length (s : State) (ty code cls addr info : Nat) (unit : UnitRef) (suite : Option Nat) :
    (s.report ty code cls addr info unit suite).errLog.records.length = s.errLog.records.length + 1 := by
  simp [State.report, ringPush]

/-- A fault of class 2 marks its suite for a suite-fatal stop and leaves its hold (R553, R554). -/
theorem State.suiteFault_fatal (s : State) (i : Nat) (job : Bool) :
    ((s.suiteFault i 2 job none none).suite i).recov.fatal = true ∧ ((s.suiteFault i 2 job none none).suite i).hold = (s.suite i).hold := by
  simp [State.suiteFault]

/-- A hold at its LIMIT is a timeout, once, and suite-fatal (R279, R558). -/
theorem execHoldTimeout_of_reached {sid : SuiteId} {s : State} (held : (s.suite sid.val).hold.held = true)
    (first : (s.suite sid.val).hold.timedOut = false) (limited : (s.suite sid.val).hold.limit ≠ 0)
    (reached : (s.suite sid.val).hold.limit.toNat ≤ (s.suite sid.val).hold.run) (calm : (s.suite sid.val).recov.active = false) :
    ∃ t, execHoldTimeout sid s = .next t ∧ (t.suite sid.val).hold.timeout = true ∧ (t.suite sid.val).recov.fatal = true ∧
      t.errLog.records.length = s.errLog.records.length + 1 ∧ t.cells = s.cells := by
  have due : ¬(!(s.suite sid.val).hold.held || (s.suite sid.val).hold.timedOut || (s.suite sid.val).hold.limit == 0 ||
      decide ((s.suite sid.val).hold.run < (s.suite sid.val).hold.limit.toNat) || (s.suite sid.val).recov.active) = true := by
    simpa [held, first, calm, reached] using limited
  refine ⟨_, if_neg due, ?_, ?_, ?_, ?_⟩
  · rw [(State.suiteFault_fatal _ _ _).2, State.report_hold, State.setSuite_suite_same]
  · exact (State.suiteFault_fatal _ _ _).1
  · exact State.report_errLog_length _ _ _ _ _ _ _ _
  · exact State.report_cells _ _ _ _ _ _ _ _

/-- Settles O23: the root's mask is 0 exactly without a cause; a suite listed once is passed over once. -/
theorem holdRootSamplesAndTimesOut : Obligations.HoldRootSamplesAndTimesOut := by
  intro sid s u h beat late cause
  refine ⟨fun run now first => ?_, fun k held listed once => ⟨?_, ?_⟩, fun held first limited reached calm => ?_, fun below => if_pos ?_⟩
  · have zero : sampledCauses s sid.val = 0 ↔ cause = false := sampledCauses_eq_zero_iff s sid.val
    refine ⟨_, execHoldRootSample_now run now first, ?_, fun free isOpen seen => ?_, fun free unseen => ?_, fun held => ?_, rfl⟩ <;>
      rw [State.rootSample_hold] <;> dsimp only
    · split
      · rfl
      · split <;> rfl
    · rw [if_neg (Bool.eq_false_iff.mp free), if_pos ⟨fun none => Bool.eq_false_iff.mp (zero.mp none) seen, isOpen⟩]
    · rw [if_neg (Bool.eq_false_iff.mp free), if_neg (fun some => some.1 (zero.mpr unseen))]
    · rw [if_pos held]
      rw [Bool.eq_iff_iff, beq_iff_eq, zero, Bool.not_eq_true']
  · exact (congrArg (fun t => (State.suite t sid.val).hold.run) (s.passHolds_eq k)).trans (State.foldl_passHold_run k s once listed held)
  · exact (congrArg State.cells (s.passHolds_eq k)).trans (foldl_keeps State.cells _ (State.passHold_cells k) _ s)
  · exact execHoldTimeout_of_reached held first limited reached calm
  · have short : decide ((s.suite sid.val).hold.run < (s.suite sid.val).hold.limit.toNat) = true := decide_eq_true below
    simp only [short, Bool.or_true, Bool.true_or]

end Sys2Proof.Machine
end

section
/-!
PROOF. O24: a write of BAY_ISO (R280, R286, R287).
-/

namespace Sys2Proof.Machine
open Sys2Proof

/-- The bay of a BAY_ISO write through the PF: the flags written with 1 are cleared, and the sides that may open are asked for, or stand at once
where the clock is stopped (R287, Table 7.16). -/
def isoWritten (y : Bay) (ok : BitVec 4) (v : W64) : Bay :=
  if bayClocked y then { y with viol := y.viol &&& ~~~ (fld v 16 4), isoReq := some ok }
  else { y with viol := y.viol &&& ~~~ (fld v 16 4), iso := ok, isoReq := none }

/-- A write of BAY_ISO writes its bay, and logs a side asked for that may not open (R286, R287). -/
theorem State.writeIso_eq (s : State) (b : BayId) (v : W64) :
    s.writeIso b v =
      if mayOpen s b.val (fld v 0 4) = fld v 0 4 then s.setBay b.val (isoWritten (s.bay b.val) (mayOpen s b.val (fld v 0 4)) v)
      else (s.setBay b.val (isoWritten (s.bay b.val) (mayOpen s b.val (fld v 0 4)) v)).logEvent 3 (bayRegAddr b.val 0) (fld v 0 4).toNat none := by
  rfl

theorem State.logEvent_devLog_next (s : State) (code addr info : Nat) (suite : Option Nat) :
    (s.logEvent code addr info suite).devLog.next = s.devLog.next + 1 := ringPush_next _ _ _

theorem State.writeIso_bays (s : State) (b : BayId) (v : W64) :
    (s.writeIso b v).bays = sset s.bays b.val (isoWritten (s.bay b.val) (mayOpen s b.val (fld v 0 4)) v) := by
  rw [State.writeIso_eq]
  split <;> rfl

theorem State.writeIso_cells (s : State) (b : BayId) (v : W64) : (s.writeIso b v).cells = s.cells := by
  rw [State.writeIso_eq]
  split <;> rfl

theorem State.writeIso_suites (s : State) (b : BayId) (v : W64) : (s.writeIso b v).suites = s.suites := by
  rw [State.writeIso_eq]
  split <;> rfl

theorem State.writeIso_bay_same (s : State) (b : BayId) (v : W64) :
    (s.writeIso b v).bay b.val = isoWritten (s.bay b.val) (mayOpen s b.val (fld v 0 4)) v := by
  rw [State.bay, State.writeIso_bays, sget_sset_same]

theorem State.writeIso_bay_ne (s : State) (b : BayId) (v : W64) {k : Nat} (other : k ≠ b.val) : (s.writeIso b v).bay k = s.bay k := by
  rw [State.bay, State.writeIso_bays, sget_sset_ne _ _ _ _ _ other, State.bay]

/-- Settles O24: the bay written is `isoWritten`, and a side that may open leads to a bay of its suite (`bayNext_of_mayOpen`). -/
theorem bayIsolationOpensOnlyInsideASuite : Obligations.BayIsolationOpensOnlyInsideASuite := by
  intro b v s s1 y ok
  refine ⟨fun here => ⟨s1.writeIso b v, ?_, fun clocked => ?_, fun stopped => ?_, ?_, fun granted => ?_, fun refused => ?_, s1.writeIso_cells b v,
    s1.writeIso_suites b v, fun k other => s1.writeIso_bay_ne b v other⟩, fun d side opens => bayNext_of_mayOpen side opens, fun f absent => ?_,
    fun k here => ?_⟩
  · simp [exec, execBayIsoWrite, here, s1]
  · rw [State.writeIso_bay_same, isoWritten, if_pos clocked]
    exact ⟨rfl, rfl⟩
  · rw [State.writeIso_bay_same, isoWritten, if_neg (Bool.eq_false_iff.mp stopped)]
    exact ⟨rfl, rfl⟩
  · rw [State.writeIso_bay_same, isoWritten]
    split <;> rfl
  · rw [State.writeIso_eq, if_pos granted]
    rfl
  · rw [State.writeIso_eq, if_neg refused, State.logEvent_devLog_next]
    rfl
  · simp [exec, execBayIsoWrite, absent]
  · simp [exec, execBayIsoWrite, here, s1]

end Sys2Proof.Machine
end

section
/-!
PROOF. O25: the arrival of a flit in its input FIFO (R256, R266, R268).
-/

namespace Sys2Proof.Machine
open Sys2Proof

/-- The cell with a flit taken from an input wire. -/
def Cell.offWire (x : Cell) (j : Nat) (rest : List Flit) : Cell := { x with trk := { x.trk with wires := sset x.trk.wires j rest } }

/-- The cell with an input FIFO set. -/
def Cell.putFifo (x : Cell) (j : Nat) (q : List Flit) : Cell := { x with trk := { x.trk with fifos := sset x.trk.fifos j q } }

/-- The cell with the later flits of an input FIFO marked VOID (R268). -/
def Cell.markFifo (x : Cell) (j : Nat) : Cell :=
  { x with trk := { x.trk with fifoBad := if x.trk.fifoBad.contains j then x.trk.fifoBad else j :: x.trk.fifoBad } }

/-- A track error of code 2 or 3 in a cell: OVERRUN or UNCORR of the port (R269). -/
theorem State.trackError_overrun_cell (s : State) (c j : Nat) :
    (s.trackError c 2 j).cell c = { s.cell c with trk := { (s.cell c).trk with overrun := setPortBit (s.cell c).trk.overrun (j / 4) } } := by
  rw [State.trackError, State.cell, State.suiteError_cells]
  exact State.updCell_cell_same _ _ _

theorem State.trackError_uncorr_cell (s : State) (c j : Nat) :
    (s.trackError c 3 j).cell c = { s.cell c with trk := { (s.cell c).trk with uncorr := setPortBit (s.cell c).trk.uncorr (j / 4) } } := by
  rw [State.trackError, State.cell, State.suiteError_cells]
  exact State.updCell_cell_same _ _ _

/-- What an arriving flit becomes on the track, with the error found in it (R256). -/
def seenFlit (f : Flit) : FlitErr → Flit
  | .none => f
  | .corrected => f
  | .uncorrectable seen => { f with data := seen, void := true }

/-- The error found in a flit on input track j is counted (R256, R269). -/
def State.noteFlit (s : State) (c : CellId) (j : Nat) : FlitErr → State
  | .none => s
  | .corrected => (s.updCell c.val (fun x => { (x.count 0x04A 1) with trk := { x.trk with corr := satAdd x.trk.corr 1 } })).corrected 2
      (spadAddr s c.val 0) (.cell c) (cellSuite (s.cell c.val))
  | .uncorrectable _ => s.trackError c.val 3 j

/-- The flit f reaches FIFO j of a cell, as g: it takes its place, goes without a trace when it is idle and finds none, or is an overrun (R268). -/
def State.toFifo (s : State) (c port track : Nat) (f g : Flit) : State :=
  let j := 4 * port + track
  let q := sget [] (s.cell c).trk.fifos j
  if !g.valid ∧ (8 ≤ q.length ∨ !tracksAct (s.cell c)) then s
  else if q.length < 8 then s.updCell c (fun x => x.putFifo j (q ++ [g]))
  else
    let s := (s.updCell c (fun x => x.markFifo j)).trackError c 2 j
    (if track = 2 then s.updCell c (fun x => x.came port) else s).loseFlits 5 [f]

/-- On a side inside the bay the oldest flit leaves its wire, an uncorrectable error in it is counted, and it reaches its FIFO (R256, R268). -/
theorem execFlitReceive_inside {c : CellId} {port : Fin 5} {track : Fin 4} {s : State} {f : Flit} {rest : List Flit}
    (waiting : sget [] (s.cell c).trk.wires (4 * port.val + track.val) = f :: rest)
    (inside : ∀ n, neighbour c.val port.val = some n → cellBay n = cellBay c.val) (err : FlitErr) :
    exec (.flitReceive c port track err) s =
      .next (((s.updCell c (fun x => x.offWire (4 * port.val + track.val) rest)).noteFlit c (4 * port.val + track.val) err).toFifo c port track f
        (seenFlit f err)) := by
  change execFlitReceive c port track err s = _
  unfold execFlitReceive
  extract_lets j b origin
  split
  · next none => exact absurd (none.symm.trans waiting) (by simp)
  next f' rest' wired =>
  obtain ⟨rfl, rfl⟩ := List.cons.inj (wired.symm.trans waiting)
  extract_lets s1 closed gone suite
  have isOpen : closed = false := by
    unfold closed
    split
    · next n next => simp [inside n next, b]
    · rfl
  rw [isOpen, if_neg Bool.false_ne_true]
  cases err <;>
  · simp only [State.toFifo, apply_ite Host.Outcome.next]
    rfl

/-- An idle flit that finds no place, or a table that does not act, goes (log 22). -/
theorem State.toFifo_of_gone {s : State} {c port track : Nat} {f g : Flit} (idle : g.valid = false)
    (out : 8 ≤ (sget [] (s.cell c).trk.fifos (4 * port + track)).length ∨ tracksAct (s.cell c) = false) : s.toFifo c port track f g = s :=
  if_pos (by simpa [idle] using out)

/-- With fewer than 8 flits the FIFO takes a VALID flit, and an idle one while the table acts (R266; log 22). -/
theorem State.toFifo_of_room {s : State} {c port track : Nat} {f g : Flit} (room : (sget [] (s.cell c).trk.fifos (4 * port + track)).length < 8)
    (taken : g.valid = true ∨ tracksAct (s.cell c) = true) :
    s.toFifo c port track f g =
      s.updCell c (fun x => x.putFifo (4 * port + track) (sget [] (s.cell c).trk.fifos (4 * port + track) ++ [g])) := by
  have stays : ¬((!g.valid) = true ∧ (8 ≤ (sget [] (s.cell c).trk.fifos (4 * port + track)).length ∨ (!tracksAct (s.cell c)) = true)) := by
    rintro ⟨idle, full | still⟩
    · omega
    · simp_all
  rw [State.toFifo]
  exact (if_neg stays).trans (if_pos room)

/-- A VALID flit that finds 8 flits in its FIFO is dropped (R268). -/
theorem State.toFifo_of_full {s : State} {c port track : Nat} {f g : Flit} (full : 8 ≤ (sget [] (s.cell c).trk.fifos (4 * port + track)).length)
    (valid : g.valid = true) :
    s.toFifo c port track f g =
      let s := (s.updCell c (fun x => x.markFifo (4 * port + track))).trackError c 2 (4 * port + track)
      (if track = 2 then s.updCell c (fun x => x.came port) else s).loseFlits 5 [f] := by
  rw [State.toFifo]
  exact (if_neg (by simp [valid])).trans (if_neg (Nat.not_lt.mpr full))

theorem Cell.mem_markFifo (x : Cell) (j : Nat) : j ∈ (x.markFifo j).trk.fifoBad := by
  unfold Cell.markFifo
  dsimp only
  split
  · next listed => exact List.contains_iff_mem.mp listed
  · exact List.mem_cons_self

/-- An overrun in its cell: the FIFO is marked, and OVERRUN set; its flits, memory and tags stand (R268, R269). -/
theorem State.toFifo_of_full_cell {s : State} {c port track : Nat} {f g : Flit} (side : track < 4)
    (full : 8 ≤ (sget [] (s.cell c).trk.fifos (4 * port + track)).length) (valid : g.valid = true) :
    let x := s.cell c
    let y := (s.toFifo c port track f g).cell c
    y.trk.wires = x.trk.wires ∧ y.trk.fifos = x.trk.fifos ∧ 4 * port + track ∈ y.trk.fifoBad ∧
      y.trk.overrun = setPortBit x.trk.overrun port ∧ y.mem = x.mem ∧ y.tags = x.tags := by
  have port_ : (4 * port + track) / 4 = port := by omega
  rw [State.toFifo_of_full full valid]
  dsimp only
  rw [State.cell_eq_of_cells (State.loseFlits_cells _ _ _)]
  have marked := Cell.mem_markFifo (s.cell c) (4 * port + track)
  split <;> (simp only [State.updCell_cell_same, State.trackError_overrun_cell, port_]; exact ⟨rfl, rfl, marked, rfl, rfl, rfl⟩)

/-- Settles O25: what the arriving flit meets in its FIFO is said by `State.toFifo_of_room`, `State.toFifo_of_gone` and `State.toFifo_of_full`. -/
theorem flitsEnterTheirFifoOrOverrun : Obligations.FlitsEnterTheirFifoOrOverrun := by
  intro c port track s j x q inside
  have off (rest : List Flit) : (s.updCell c.val (fun x => x.offWire j rest)).cell c.val = x.offWire j rest := State.updCell_cell_same _ _ _
  refine ⟨fun none err => ?_, fun f rest wired within room taken => ?_, fun f rest wired within idle out => ?_,
    fun f rest seen wired within valid room => ?_, fun f rest wired within valid full => ?_⟩
  · rw [exec, execFlitReceive]
    dsimp only
    split
    · rfl
    · next wired => cases none.symm.trans wired
  · refine ⟨_, execFlitReceive_inside wired within .none, ?_⟩
    rw [State.noteFlit, seenFlit, State.toFifo_of_room (by rwa [off]) (by rwa [off]), off, State.updCell_cell_same, off]
    exact ⟨sget_sset_same _ _ _ _, sget_sset_same _ _ _ _, fun k other => sget_sset_ne _ _ _ _ _ other, rfl, rfl, rfl, rfl⟩
  · refine ⟨_, execFlitReceive_inside wired within .none, ?_⟩
    rw [State.noteFlit, seenFlit, State.toFifo_of_gone idle (by rwa [off]), off]
    exact ⟨sget_sset_same _ _ _ _, rfl, rfl, rfl⟩
  · have counted := (s.updCell c.val (fun x => x.offWire j rest)).trackError_uncorr_cell c.val j
    have port_ : j / 4 = port.val := by omega
    rw [off, port_] at counted
    refine ⟨_, execFlitReceive_inside wired within (.uncorrectable seen), ?_⟩
    rw [State.noteFlit, seenFlit, State.toFifo_of_room (g := { f with data := seen, void := true }) (by rwa [counted]) (.inl valid), counted,
      State.updCell_cell_same, counted]
    exact ⟨sget_sset_same _ _ _ _, sget_sset_same _ _ _ _, rfl, rfl, rfl⟩
  · obtain ⟨wires, fifos, marked, overrun, mem, tags⟩ := State.toFifo_of_full_cell (s := s.updCell c.val (fun x => x.offWire j rest)) (f := f)
      (g := f) track.isLt (by rwa [off]) valid
    rw [off] at wires fifos overrun mem tags
    refine ⟨_, execFlitReceive_inside wired within .none, ?_, ?_, marked, overrun, mem, tags⟩
    · exact (congrArg (fun w => sget [] w j) wires).trans (sget_sset_same _ _ _ _)
    · exact congrArg (fun w => sget [] w j) fifos

end Sys2Proof.Machine
end

section
/-!
PROOF. O26: a phase of the route table pops each FIFO that an acting entry names once (R259, R263).
-/

namespace Sys2Proof.Machine
open Sys2Proof

/-! ### What the acting entries leave in every cell: the input FIFOs, the mark of the phase, the scratchpad -/

/-- What no acting entry of a route table changes in a cell: its input FIFOs (popped before any entry acts), the mark of the phase carried out, and
the scratchpad with its check bits. -/
def Cell.phaseKept (x : Cell) : SMap (List Flit) × Option Nat × Memory × Memory := (x.trk.fifos, x.trk.phaseDone, x.mem, x.check)

def State.phaseKept (s : State) (k : Nat) : SMap (List Flit) × Option Nat × Memory × Memory := (s.cell k).phaseKept

theorem State.phaseKept_of_cells {s t : State} (same : t.cells = s.cells) (k : Nat) : t.phaseKept k = s.phaseKept k :=
  congrArg Cell.phaseKept (State.cell_eq_of_cells same k)

theorem State.phaseKept_setCell {s : State} {c : Nat} {y : Cell} (same : y.phaseKept = s.phaseKept c) (k : Nat) :
    (s.setCell c y).phaseKept k = s.phaseKept k := by
  rw [State.phaseKept, State.setCell_cell]
  split
  · next here => rw [here, same]
  · rfl

theorem State.phaseKept_updCell {f : Cell → Cell} (keeps : ∀ x, (f x).phaseKept = x.phaseKept) (s : State) (c k : Nat) :
    (s.updCell c f).phaseKept k = s.phaseKept k := State.phaseKept_setCell (keeps _) k

@[simp] theorem State.loseFlits_phaseKept (s : State) (reason : Nat) (fs : List Flit) (k : Nat) :
    (s.loseFlits reason fs).phaseKept k = s.phaseKept k := State.phaseKept_of_cells (s.loseFlits_cells reason fs) k

@[simp] theorem State.suiteError_phaseKept (s : State) (code addr info : Nat) (unit : UnitRef) (suite : Option Nat) (k : Nat) :
    (s.suiteError code addr info unit suite).phaseKept k = s.phaseKept k := State.phaseKept_of_cells (s.suiteError_cells code addr info unit suite) k

@[simp] theorem State.voidFlit_phaseKept (s : State) (k : Nat) : s.voidFlit.2.phaseKept k = s.phaseKept k := by rfl

@[simp] theorem State.violation_phaseKept (s : State) (b side origin k : Nat) : (s.violation b side origin).phaseKept k = s.phaseKept k := by
  refine State.phaseKept_of_cells ?_ k
  unfold State.violation State.countBay
  dsimp only
  split <;> split <;> simp

@[simp] theorem State.trackError_phaseKept (s : State) (c code j k : Nat) : (s.trackError c code j).phaseKept k = s.phaseKept k := by
  rw [State.trackError, State.suiteError_phaseKept]
  refine State.phaseKept_updCell (fun x => ?_) s c k
  dsimp only [Cell.phaseKept]
  split
  · rfl
  · split <;> rfl

@[simp] theorem State.parityFault_phaseKept (s : State) (c detail addr k : Nat) : (s.parityFault c detail addr).phaseKept k = s.phaseKept k := by
  refine State.phaseKept_updCell (fun x => ?_) s c k
  split <;> rfl

/-- A flit that is sent reaches a wire, an outlet, or a CLOSED half (R264, R285). -/
@[simp] theorem State.sendFlit_phaseKept (s : State) (c j : Nat) (f : Flit) (k : Nat) : (s.sendFlit c j f).phaseKept k = s.phaseKept k := by
  have counted : (if f.valid then s.updCell c (fun x => x.count 0x048 1) else s).phaseKept k = s.phaseKept k := by
    split
    · exact State.phaseKept_updCell (fun _ => by rfl) s c k
    · rfl
  unfold State.sendFlit
  extract_lets s1 s2 b stopped
  have halted : stopped.phaseKept k = s1.phaseKept k := by
    unfold stopped
    split <;> simp
  refine Eq.trans (b := s1.phaseKept k) ?_ counted
  split
  · split
    · exact (State.phaseKept_updCell (fun _ => by rfl) s2 c k).trans (State.loseFlits_phaseKept _ _ _ _)
    · exact State.loseFlits_phaseKept _ _ _ _
  · split
    · exact halted
    · split
      · exact halted
      · exact State.phaseKept_updCell (fun _ => by rfl) s1 _ k

@[simp] theorem State.popSend_phaseKept (s : State) (c ch k : Nat) : (s.popSend c ch).2.phaseKept k = s.phaseKept k := by
  unfold State.popSend
  dsimp only
  split
  · rfl
  · exact State.phaseKept_setCell (by rfl) k

@[simp] theorem State.endFrame_phaseKept (s : State) (c j octant : Nat) (fs : List (Option Flit)) (k : Nat) :
    (s.endFrame c j octant fs).phaseKept k = s.phaseKept k := by
  unfold State.endFrame
  dsimp only
  split
  · split
    · simp
    · split
      · simp
      · refine (State.phaseKept_updCell (fun _ => by rfl) _ c k).trans ((State.loseFlits_phaseKept _ _ _ _).trans ?_)
        split <;> simp
  · split <;> simp

@[simp] theorem State.landEntry_phaseKept (s : State) (c j e : Nat) (f : Option Flit) (k : Nat) :
    (s.landEntry c j e f).phaseKept k = s.phaseKept k := by
  have framed (s : State) (v : List (Option Flit)) :
      (s.updCell c (fun x => { x with trk := { x.trk with frames := sset x.trk.frames j v } })).phaseKept k = s.phaseKept k :=
    State.phaseKept_updCell (fun _ => by rfl) s c k
  unfold State.landEntry
  dsimp only
  split
  · split <;> simp
  · split <;> simp [framed]

@[simp] theorem State.pushRecv_phaseKept (s : State) (c ch : Nat) (f : Flit) (k : Nat) : (s.pushRecv c ch f).phaseKept k = s.phaseKept k := by
  unfold State.pushRecv
  extract_lets s1 f1 x
  have lost : s1.phaseKept k = s.phaseKept k := s.loseFlits_phaseKept _ _ k
  have set {y : Cell} (same : y.phaseKept = x.phaseKept) : (s1.setCell c y).phaseKept k = s.phaseKept k :=
    (State.phaseKept_setCell same k).trans lost
  split
  · split
    · rw [State.suiteError_phaseKept]
      exact set (by rfl)
    · exact set (by rfl)
  · split
    · exact set (by rfl)
    · split
      · rw [State.trackError_phaseKept]
        exact set (by rfl)
      · exact set (by rfl)

@[simp] theorem State.actOutput_phaseKept (s : State) (c : Nat) (heads : SMap Flit) (je : Nat × Nat) (k : Nat) :
    (s.actOutput c heads je).phaseKept k = s.phaseKept k := by
  obtain ⟨j, e⟩ := je
  have popped (f : Option Flit) : (if nbits e 13 2 = 0 then (f, s) else s.popSend c (nbits e 5 3)).2.phaseKept k = s.phaseKept k := by
    split
    · rfl
    · exact s.popSend_phaseKept c _ k
  unfold State.actOutput
  dsimp only
  split
  · split <;> simp
  · split
    · simp [popped]
    · simp [apply_ite (State.phaseKept · k), popped]

@[simp] theorem State.actInput_phaseKept (s : State) (c : Nat) (heads : SMap Flit) (je : Nat × Nat) (k : Nat) :
    (s.actInput c heads je).phaseKept k = s.phaseKept k := by
  obtain ⟨j, e⟩ := je
  unfold State.actInput
  dsimp only
  split
  · simp
  · split
    · split
      · exact (State.phaseKept_updCell (fun _ => by rfl) _ c k).trans (State.loseFlits_phaseKept _ _ _ _)
      · rfl
    · split
      · split <;> simp
      · simp

/-! ### The flits that a phase pops -/

/-- The input FIFOs without the heads that a phase pops. -/
def popHeads (fifos : SMap (List Flit)) (heads : SMap Flit) : SMap (List Flit) :=
  heads.foldl (fun m h => sset m h.1 ((sget [] m h.1).drop 1)) fifos

/-- Heads of different FIFOs are popped once each. -/
theorem sget_popHeads {heads : SMap Flit} (once : (heads.map Prod.fst).Nodup) (fifos : SMap (List Flit)) (j : Nat) :
    sget [] (popHeads fifos heads) j = if j ∈ heads.map Prod.fst then (sget [] fifos j).drop 1 else sget [] fifos j := by
  unfold popHeads
  induction heads generalizing fifos with
  | nil => rfl
  | cons h heads ih =>
    obtain ⟨first, rest⟩ := List.nodup_cons.mp once
    rw [List.foldl_cons, ih rest, List.map_cons, sget_sset]
    by_cases here : j = h.1
    · subst here
      simp [first]
    · simp only [List.mem_cons, here, false_or, if_false]

/-- The FIFOs that have a head to pop: those named that hold a flit. -/
theorem headsOf_fifos (x : Cell) (js : List Nat) :
    (headsOf x js).map Prod.fst = (List.range 20).filter (fun j => js.contains j && !(sget [] x.trk.fifos j).isEmpty) := by
  rw [headsOf, List.map_filterMap, ← List.filterMap_eq_filter]
  refine congrArg (fun f => List.filterMap f _) (funext fun j => ?_)
  by_cases named : j ∈ js <;> cases holds : sget [] x.trk.fifos j <;> simp [named, holds, Option.guard]

/-- Each FIFO that is named loses its head, if it has one, and no other loses a flit (R259). -/
theorem sget_popHeads_headsOf (x : Cell) (js : List Nat) {j : Nat} (track : j < 20) :
    sget [] (popHeads x.trk.fifos (headsOf x js)) j = if j ∈ js then (sget [] x.trk.fifos j).drop 1 else sget [] x.trk.fifos j := by
  have once : ((headsOf x js).map Prod.fst).Nodup := headsOf_fifos x js ▸ List.nodup_range.filter _
  rw [sget_popHeads once, headsOf_fifos]
  by_cases named : j ∈ js <;> by_cases empty : sget [] x.trk.fifos j = [] <;> simp [track, named, empty]

/-! ### The phase -/

/-- A phase pops the heads and is marked done, and the entries that then act keep that. -/
theorem State.runPhase_phaseKept (s : State) (c : Nat) (u : Suite) :
    let x := s.cell c
    let named := namedFifos (x.outsActing c (s.phase u x)) (x.insActing c (s.phase u x))
    (s.runPhase c u).phaseKept c = (popHeads x.trk.fifos (headsOf x named), some x.obs.wall, x.mem, x.check) := by
  intro x named
  unfold State.runPhase
  extract_lets ph bad outs ins heads x1 trk x2 s1 s2 s3 copies s4
  have popped : s1.phaseKept c = (popHeads x.trk.fifos heads, some x.obs.wall, x.mem, x.check) :=
    congrArg Cell.phaseKept (State.setCell_cell_same s c x2)
  have outputs : s2.phaseKept c = s1.phaseKept c := foldl_keeps (State.phaseKept · c) _ (fun s e => s.actOutput_phaseKept c heads e c) outs s1
  have idle : s3.phaseKept c = s2.phaseKept c := foldl_keeps (State.phaseKept · c) _ (fun s j => s.sendFlit_phaseKept c j idleFlit c) _ s2
  have inputs : s4.phaseKept c = s3.phaseKept c := foldl_keeps (State.phaseKept · c) _ (fun s e => s.actInput_phaseKept c _ e c) ins s3
  have acted := inputs.trans (idle.trans (outputs.trans popped))
  clear_value bad
  cases bad with
  | none => exact acted
  | some k => exact (s4.parityFault_phaseKept c 2 (4 * k) c).trans acted

/-- A cell of a RUNNING suite carries out the phase that its cycle has not had, when its table acts. -/
theorem execRouteTablePhase_of_due {c : CellId} {s : State} {u : Suite} (running : s.runningSuite (s.cell c.val) = some u)
    (due : (s.cell c.val).trk.phaseDone ≠ some (s.cell c.val).obs.wall) :
    exec (.routeTablePhase c) s = .next (if tracksAct (s.cell c.val) then s.runPhase c.val u else s) := by
  rw [exec, execRouteTablePhase, running]
  dsimp only
  rw [if_neg due, running]

/-- Settles O26: the phase is `State.runPhase_phaseKept`, and its FIFOs are those of `sget_popHeads_headsOf`. -/
theorem routeTablePopsEachNamedFifoOnce : Obligations.RouteTablePopsEachNamedFifoOnce := by
  intro c s u x ph named running due
  have phase := execRouteTablePhase_of_due running due
  refine ⟨fun acts => ⟨s.runPhase c.val u, by rw [phase, if_pos acts], ?_⟩, fun still => by rw [phase, still]; rfl⟩
  obtain ⟨fifos, marked, mem, check⟩ : _ ∧ _ ∧ _ ∧ _ := by
    simpa only [State.phaseKept, Cell.phaseKept, Prod.mk.injEq] using s.runPhase_phaseKept c.val u
  exact ⟨marked, fun j track => by rw [fifos, sget_popHeads_headsOf x named track], mem, check⟩

end Sys2Proof.Machine
end
